-- ==== Sys2Proof/Word.lean ====
section
/-! DEFINITION. Words and the shapes of sparse plain data the whole model uses. -/

namespace Sys2Proof

/-- One byte of memory. -/
abbrev Byte := BitVec 8

/-- A vector lane element (R12). -/
abbrev Word32 := BitVec 32

/-- A group scalar (R46). -/
abbrev Word64 := BitVec 64

/-- Sparse words by address: addresses strictly rising, no entry equal to zero, which is what an
unlisted address reads as. -/
abbrev Cells (w : Nat) := List (Nat × BitVec w)

/-- A table of records by key: keys strictly rising. -/
abbrev Tbl (α : Type) := List (Nat × α)

end Sys2Proof
end

