-- ==== Sys2Proof/Config.lean ====
section
/-! DEFINITION. What is fixed for the package: sizes and unloaded times the specification gives, and the
free values, which nothing in the model can evaluate. -/

namespace Sys2Proof.Config

/-! ## Sizes (R2) -/

def coreCount : Nat := 192
def coresPerDie : Nat := 32
def dieCount : Nat := 6
def queuesPerDie : Nat := 512
def queueCount : Nat := 3072
def seatCount : Nat := 16
def handlerSeat : Nat := 16
def poolSize : Nat := 1024
def decodeSize : Nat := 1024
def handlerTableSize : Nat := 32
def tlbSize : Nat := 2048
def l1Ways : Nat := 8
def l1Sets : Nat := 256
def streamLines : Nat := 512
def copiesInFlight : Nat := 512
def walksPerDie : Nat := 64
def slotsA : Nat := 256
def slotsB : Nat := 512
def banksPerCore : Nat := 16
def templatesPerCore : Nat := 4
def deviceSize : Nat := 576 * 2 ^ 30
/-- Lines of one L2 slice: 64 MiB a die in 16 slices of 128-byte lines (R2, R269). -/
def sliceLines : Nat := 32768

/-- The window of CXL memory: the capacity of the ports, up to 8 TiB (R2, R381). -/
def cxlWindow : Nat := 2 ^ 43
/-- A count for each row of R2's table, in its order: accumulator banks, vector slots, tile slots of both spaces, registers,
templates, lines of the L1 and of the stream cache, entries of the decode table and of the TLB, copies, seats, L2 slices,
copy engines, queues, walks, supervisors, DRAM stacks, host port, CXL ports, Scarab ports, watts. DEDUCED, log 20. -/
def resourceCounts : List Nat :=
  [16, 2, 256, 512, 1024, 4, 2048, 512, 1024, 2048, 512, 17, 16, 16, 512, 64, 1, 12, 1, 8, 18, 2800]

/-! ## Unloaded times in cycles -/

/-- Paths of R288 by kind (device 0, CXL 1, host 2, peer 3), with the line in L2 or not. DESIGN CHOICE, log 16. -/
def pathCycles (kind : Nat) (hit : Bool) : Nat :=
  if hit then 150 else
  match kind with
  | 0 => 430
  | 1 => 850
  | 2 => 1600
  | _ => 1900

/-- A home on another die costs this much more on every path of R288. -/
def otherDieCycles : Nat := 90
def l1HitCycles : Nat := 24
def walkCycles : Nat := 120
def walkMissCycles : Nat := 280
/-- R268: a line's bytes. -/
def lineBytes : Nat := 128
def dirtyCycles : Nat := 2048
def dropCycles : Nat := 8
def horizonMargin : Nat := 4
def refillCycles : Nat := 46
def refillsInFlight : Nat := 4
def hiveCycles : Nat := 40
def hiveOtherDieCycles : Nat := 130
def launchCycles : Nat := 400
def gstateCycles : Nat := 16
def padCycles : Nat := 12
def padBridgeCycles : Nat := 40
def freezeCycles : Nat := 64
/-- R19: 64 beats. -/
def agingCycles : Nat := 256
def yieldCycles : Nat := 16

/-! ## Free values

Each is a function without a body, applied to a counter of the state or to what the value depends on. -/

/-- Which way of a set an L1 fill replaces (R268: no policy is given). DESIGN CHOICE, log 17. -/
opaque freeWay : Nat → Nat
/-- Which line of a full L2 slice is dropped for a new one (R269 gives no policy). DESIGN CHOICE, log 8. -/
opaque freeL2Line : Nat → Nat
/-- Whether the host grants an ATS translation (R261); by free value and page of 4 KiB. DESIGN CHOICE, log 39. -/
opaque atsGrants : Nat → Nat → Bool
/-- Whether PRI is permitted for a context (R261). DESIGN CHOICE, log 39. -/
opaque priPermitted : Nat → Bool
/-- Whether a byte of a slot that HALLOC does not zero keeps what an earlier tile of the context left, or is zero
(R250); by allocation and byte offset. DESIGN CHOICE, log 18. -/
opaque keepTileByte : Nat → Nat → Bool
/-- A byte of a team's save whose contents the manual names without a layout (R340, R341). DESIGN CHOICE, log 19. -/
opaque freeSaveByte : Nat → Nat → Byte
/-- The limit on a save, in cycles, that firmware sets for a partition instead of 200 µs, if it does (R343). DESIGN CHOICE,
log 115. -/
opaque partitionSaveLimit : Nat → Option Nat
/-- Which operand-store slot an allocation takes among the free ones. DESIGN CHOICE, log 18. -/
opaque freeSlot : Nat → Nat

/-- The code of the ROM, which MEAS0 is extended with (R383): the manual does not give it. DESIGN CHOICE, log 20. -/
opaque romBytes : List Byte
/-- The device identity of the capability table (R386). DESIGN CHOICE, log 20. -/
opaque identityBytes : List Byte
/-- The signature over the capability records (R386). DESIGN CHOICE, log 20. -/
opaque capabilitySignature : List Byte
/-- The length of the header and the code that an image's header gives (R383): the place and width of its size field are not
given. DESIGN CHOICE, log 21. -/
opaque imageLength : List Byte → Nat
/-- Where the security version stands in the header (R383). DESIGN CHOICE, log 21. -/
opaque securityVersionAt : Nat
/-- The fused minimum of the security version (R383). DESIGN CHOICE, log 21. -/
opaque minimumVersion : Nat
/-- The 60-byte public key whose SHA-256 is fused in ROM (R383). DESIGN CHOICE, log 21. -/
opaque hssPublicKey : List Byte
/-- The errata that the firmware appends (R386, R387): a withdrawn feature mask, or an identifier and a text.
DESIGN CHOICE, log 21. -/
opaque firmwareErrata : List Byte → List (Nat ⊕ Nat × String)
/-- Whether a step of the boot fails (R387); by free value and step. DESIGN CHOICE, log 21. -/
opaque bootStepFails : Nat → Nat → Bool
/-- The masks of Scarab ports (0) and CXL ports (1) that come up at boot (R381, R382, R387). DESIGN CHOICE, log 3. -/
opaque portsAtBoot : Nat → Nat
/-- The capacity of all CXL ports in bytes (R381). DESIGN CHOICE, log 3. -/
opaque cxlCapacity : Nat
/-- Whether a read of a CXL line returns poison (R381); by free value and line. DESIGN CHOICE, log 39. -/
opaque poisoned : Nat → Nat → Bool
/-- The route table as link training leaves it, and as PARTITION sets it with a table (R382): by entry, whether it is valid,
its peer, ports, base and size. DESIGN CHOICE, log 3. -/
opaque routeAtBoot : Nat → Bool × Nat × Nat × Nat × Nat
opaque routeAtPartition : List Byte → Nat → Bool × Nat × Nat × Nat × Nat
/-- Whether the handler image at a dictionary address of a context is the Cicada monitor (R396). DESIGN CHOICE, log 86. -/
opaque monitorImage : Nat → Nat → Bool
/-- The device address of BAR2 offset 0 once firmware runs (R373). DESIGN CHOICE, log 5. -/
opaque bar2AtBoot : Nat
/-- What a die's wear monitors read at a sample (R397): sixteen oscillator drifts in ppm, the bond resistance in
milliohms, the remaps of both stacks; by die, free value and place. DESIGN CHOICE, log 22. -/
opaque wearReading : Nat → Nat → Nat → Nat

end Sys2Proof.Config
end

