-- ==== Sys2Proof/Syntax.lean ====
section
/-! DEFINITION. The instructions: one constructor for each row of the table of operations and events.
The slot operations carry their guard and operands as R96 and R100 lay them out; the events of the
machine, its host and its platform carry the identifiers of what they act on. -/

namespace Sys2Proof

/-- The guard of a slot operation (R28, R96). -/
structure Guard where
  inv : Bool
  idx : Fin 8
deriving DecidableEq, Repr

/-- The code of an operand byte (R98). -/
inductive Code where
  /-- register 0x00-0x3F -/
  | reg (n : Fin 64)
  /-- the latches L.S, L.V0, L.V1, L.C0, L.C1 -/
  | ls | lv0 | lv1 | lc0 | lc1
  /-- queue-head latch qh0-qh3 -/
  | qh (k : Fin 4)
  /-- stream immediate I0-I3 -/
  | imm (k : Fin 4)
  /-- the values of R14 -/
  | zero | lane | grp | team | gwid
  /-- p0-p7 or c0-c7 -/
  | flag (n : Fin 8)
deriving DecidableEq, Repr

/-- A source operand byte: E bit and code (R98). -/
structure Operand where
  e : Bool
  code : Code
deriving DecidableEq, Repr

/-- A scalar register named as destination. -/
abbrev SReg := Fin 32
/-- A vector register named as destination. -/
abbrev VReg := Fin 64
/-- A predicate or condition named as destination. -/
abbrev Flag := Fin 8
/-- A handle h0-h63. -/
abbrev Handle := Fin 64
/-- An accumulator bank. -/
abbrev Bank := Fin 16
/-- A barrier b0-b7. -/
abbrev Bar := Fin 8
/-- An inbox slot. -/
abbrev Inbox := Fin 4
/-- A queue-head latch as QBIND's destination. -/
abbrev Latch := Fin 4
/-- A field that takes a stream immediate and nothing else (R100, "target"). -/
abbrev ImmSlot := Fin 4
/-- A special register index (R49). -/
abbrev Special := Fin 32

/-- The direction of a tile view (R64). -/
inductive Dir where
  | row | column | diagonal | antiDiagonal
deriving DecidableEq, Repr

/-- A tile view: direction and handle (R64). -/
structure View where
  dir : Dir
  h : Handle
deriving DecidableEq, Repr

/-- CBIND's barrier operand with the unbind bit (R100). -/
structure BarOff where
  unbind : Bool
  b : Bar
deriving DecidableEq, Repr

/-- A part of a format slot (R100). -/
structure SlotPart where
  part : Fin 4
  slot : Fin 8
deriving DecidableEq, Repr

/-- The K code of a format byte (R100, R236). -/
inductive KCode where
  | full | half | quarter | imm
deriving DecidableEq, Repr

/-- MMA's format byte: A slot, B slot, K code (R100). -/
structure Format where
  a : Fin 8
  b : Fin 8
  k : KCode
deriving DecidableEq, Repr

/-- The four rounding modes (R52, R80). -/
inductive Rounding where
  | rne | rz | ru | rd
deriving DecidableEq, Repr

/-- CVTFI's modifier (R112). -/
structure FiMode where
  uns : Bool
  rz : Bool
deriving DecidableEq, Repr

/-- CVTN's modifier with the companion register of error feedback (R86, R171). -/
inductive CvtMode where
  | rne | rz | ef (companion : VReg) (e : Bool) | sat
deriving DecidableEq, Repr

/-- VRED's modifier (R112). -/
inductive RedOp where
  | fadd | fmin | fmax | iadd
deriving DecidableEq, Repr

/-- HALLOC's modifier (R112). -/
structure AllocMode where
  bspace : Bool
  zeroed : Bool
deriving DecidableEq, Repr

/-- The width of a memory access: 1, 2, 4 or 8 bytes (R112). -/
inductive Width where
  | w1 | w2 | w4 | w8
deriving DecidableEq, Repr

/-- The scope of an atomic (R112). -/
inductive AtScope where
  | team | package | system
deriving DecidableEq, Repr

/-- The scope of a fence (R112). -/
inductive Scope where
  | group | team | package | system
deriving DecidableEq, Repr

/-- The instructions and events of the part, one constructor for each row of spec/opcode_table.json. -/
inductive Instr where
  /-- ADD (R128). Adds two 64-bit scalars per effective group, wrapping modulo 2^64. -/
  | add (g : Guard) (d : SReg) (a : Operand) (b : Operand)
  /-- SUB (R128). Subtracts two 64-bit scalars per effective group, wrapping modulo 2^64. -/
  | sub (g : Guard) (d : SReg) (a : Operand) (b : Operand)
  /-- MUL (R128). Writes the low 64 bits of the scalar product; lands after 2 beats. -/
  | mul (g : Guard) (d : SReg) (a : Operand) (b : Operand)
  /-- MULH (R128). Writes bits [127:64] of the signed 128-bit scalar product. -/
  | mulh (g : Guard) (d : SReg) (a : Operand) (b : Operand)
  /-- MULHW (R128). Writes bits [127:64] of the unsigned 128-bit scalar product. -/
  | mulhw (g : Guard) (d : SReg) (a : Operand) (b : Operand)
  /-- DIV (R129). Queues a signed scalar division on the core divider and marks the destination empty. -/
  | div (g : Guard) (d : SReg) (a : Operand) (b : Operand)
  /-- DIVW (R129). Queues an unsigned scalar division on the core divider and marks the destination empty. -/
  | divw (g : Guard) (d : SReg) (a : Operand) (b : Operand)
  /-- REM (R129). Queues a signed scalar remainder on the core divider and marks the destination empty. -/
  | rem (g : Guard) (d : SReg) (a : Operand) (b : Operand)
  /-- REMW (R129). Queues an unsigned scalar remainder on the core divider and marks the destination empty. -/
  | remw (g : Guard) (d : SReg) (a : Operand) (b : Operand)
  /-- AND (R128). Bitwise AND of two scalars per effective group. -/
  | and (g : Guard) (d : SReg) (a : Operand) (b : Operand)
  /-- OR (R128). Bitwise OR of two scalars per effective group. -/
  | or (g : Guard) (d : SReg) (a : Operand) (b : Operand)
  /-- XOR (R128). Bitwise XOR of two scalars per effective group. -/
  | xor (g : Guard) (d : SReg) (a : Operand) (b : Operand)
  /-- ANDN (R128). Computes a AND NOT b on scalars per effective group. -/
  | andn (g : Guard) (d : SReg) (a : Operand) (b : Operand)
  /-- SHL (R128). Shifts a scalar left by the amount modulo 64. -/
  | shl (g : Guard) (d : SReg) (a : Operand) (b : Operand)
  /-- SHR (R128). Shifts a scalar right with zero fill by the amount modulo 64. -/
  | shr (g : Guard) (d : SReg) (a : Operand) (b : Operand)
  /-- SAR (R128). Shifts a scalar right with sign fill by the amount modulo 64. -/
  | sar (g : Guard) (d : SReg) (a : Operand) (b : Operand)
  /-- ROL (R128). Rotates a scalar left by the amount modulo 64. -/
  | rol (g : Guard) (d : SReg) (a : Operand) (b : Operand)
  /-- MIN (R128). Writes the signed minimum of two scalars. -/
  | min (g : Guard) (d : SReg) (a : Operand) (b : Operand)
  /-- MAX (R128). Writes the signed maximum of two scalars. -/
  | max (g : Guard) (d : SReg) (a : Operand) (b : Operand)
  /-- MINW (R128). Writes the unsigned minimum of two scalars. -/
  | minw (g : Guard) (d : SReg) (a : Operand) (b : Operand)
  /-- MAXW (R128). Writes the unsigned maximum of two scalars. -/
  | maxw (g : Guard) (d : SReg) (a : Operand) (b : Operand)
  /-- CLZ (R128). Counts leading zero bits of a scalar. -/
  | clz (g : Guard) (d : SReg) (a : Operand)
  /-- CNT (R128). Counts set bits of a scalar. -/
  | cnt (g : Guard) (d : SReg) (a : Operand)
  /-- SEL (R131). Selects one of two scalars by a condition per group. -/
  | sel (g : Guard) (d : SReg) (a : Operand) (b : Operand) (c : Operand)
  /-- MOV (R131). Copies a scalar source to the destination. -/
  | mov (g : Guard) (d : SReg) (a : Operand)
  /-- LI (R131). Loads a sign-extended stream immediate into a scalar. -/
  | li (g : Guard) (d : SReg) (a : ImmSlot)
  /-- LIH (R131). Combines an immediate's low 32 bits as the high half with a scalar's low half. -/
  | lih (g : Guard) (d : SReg) (a : Operand) (b : ImmSlot)
  /-- CEQ (R132). Sets a condition when two scalars are equal. -/
  | ceq (g : Guard) (d : Flag) (a : Operand) (b : Operand)
  /-- CNE (R132). Sets a condition when two scalars differ. -/
  | cne (g : Guard) (d : Flag) (a : Operand) (b : Operand)
  /-- CLT (R132). Sets a condition on signed less-than of two scalars. -/
  | clt (g : Guard) (d : Flag) (a : Operand) (b : Operand)
  /-- CLE (R132). Sets a condition on signed less-or-equal of two scalars. -/
  | cle (g : Guard) (d : Flag) (a : Operand) (b : Operand)
  /-- CLTW (R132). Sets a condition on unsigned less-than of two scalars. -/
  | cltw (g : Guard) (d : Flag) (a : Operand) (b : Operand)
  /-- CLEW (R132). Sets a condition on unsigned less-or-equal of two scalars. -/
  | clew (g : Guard) (d : Flag) (a : Operand) (b : Operand)
  /-- CAND (R132). Writes the AND of two conditions. -/
  | cand (g : Guard) (d : Flag) (a : Operand) (b : Operand)
  /-- COR (R132). Writes the OR of two conditions. -/
  | cor (g : Guard) (d : Flag) (a : Operand) (b : Operand)
  /-- CXOR (R132). Writes the XOR of two conditions. -/
  | cxor (g : Guard) (d : Flag) (a : Operand) (b : Operand)
  /-- CANY (R133). Sets a condition when any lane of the group has the predicate true. -/
  | cany (g : Guard) (d : Flag) (a : Operand)
  /-- CEVERY (R133). Sets a condition when every lane of the group has the predicate true. -/
  | cevery (g : Guard) (d : Flag) (a : Operand)
  /-- BR (R139). Branches the gang unconditionally to a stream offset, leaving one empty beat. -/
  | br (g : Guard) (a : ImmSlot)
  /-- BRC (R139). Branches when a condition uniform across active groups holds, else traps DIVERGE on disagreement. -/
  | brc (g : Guard) (mod : Bool) (a : Operand) (b : ImmSlot)
  /-- BRD (R142). Divergent branch that splits groups and pushes two reconvergence entries. -/
  | brd (g : Guard) (a : Operand) (b : ImmSlot) (c : ImmSlot)
  /-- JOIN (R143). Pops the reconvergence entry tagged with its position and restores mask and position. -/
  | join (g : Guard)
  /-- CALL (R144). Pushes the return position on the return stack and branches. -/
  | call (g : Guard) (a : ImmSlot)
  /-- RET (R144). Pops the return stack and branches to the popped position. -/
  | ret (g : Guard)
  /-- LOOP (R140). Decrements a count, lands it, and branches when the uniform new count is nonzero. -/
  | loop (g : Guard) (d : SReg) (a : Operand) (b : ImmSlot)
  /-- BRX (R141). Branches to a stream position held uniformly in a scalar. -/
  | brx (g : Guard) (a : Operand)
  /-- EXIT (R145). Ends each effective group, seals its open batch and ends the gang when no group remains. -/
  | exit (g : Guard)
  /-- FREEZE (R146). Seals batches and publishes shadows, then waits for outstanding work before the template snapshot. -/
  | freeze (g : Guard)
  /-- YIELD (R147). Makes the gang not ready until equal-or-higher-class ready gangs of its phase have issued. -/
  | yield (g : Guard)
  /-- SLEEP (R148). Sets the gang's wake time to issue cycle plus the largest requested delay. -/
  | sleep (g : Guard) (a : Operand)
  /-- TRAP (R149). Raises a precise TRAP trap carrying its immediate code when a group is effective. -/
  | trap (g : Guard) (a : ImmSlot)
  /-- RDSR (R134). Reads a special register into a scalar. -/
  | rdsr (g : Guard) (d : SReg) (a : Special)
  /-- WRSR (R135). Writes a scalar into an RW or W1C special register field by field. -/
  | wrsr (g : Guard) (d : Special) (a : Operand)
  /-- VADD (R159). Adds 32-bit lanes modulo 2^32. -/
  | vadd (g : Guard) (d : VReg) (a : Operand) (b : Operand)
  /-- VSUB (R159). Subtracts 32-bit lanes modulo 2^32. -/
  | vsub (g : Guard) (d : VReg) (a : Operand) (b : Operand)
  /-- VMUL (R159). Writes the low 32 bits of the lane product. -/
  | vmul (g : Guard) (d : VReg) (a : Operand) (b : Operand)
  /-- VMULH (R159). Writes bits [63:32] of the signed lane product. -/
  | vmulh (g : Guard) (d : VReg) (a : Operand) (b : Operand)
  /-- VMAD (R159). Computes a times b plus c per lane modulo 2^32. -/
  | vmad (g : Guard) (d : VReg) (a : Operand) (b : Operand) (c : Operand)
  /-- VAND (R159). Bitwise AND of lanes. -/
  | vand (g : Guard) (d : VReg) (a : Operand) (b : Operand)
  /-- VOR (R159). Bitwise OR of lanes. -/
  | vor (g : Guard) (d : VReg) (a : Operand) (b : Operand)
  /-- VXOR (R159). Bitwise XOR of lanes. -/
  | vxor (g : Guard) (d : VReg) (a : Operand) (b : Operand)
  /-- VSHL (R159). Shifts lanes left by the amount modulo 32. -/
  | vshl (g : Guard) (d : VReg) (a : Operand) (b : Operand)
  /-- VSHR (R159). Shifts lanes right with zero fill. -/
  | vshr (g : Guard) (d : VReg) (a : Operand) (b : Operand)
  /-- VSAR (R159). Shifts lanes right with sign fill. -/
  | vsar (g : Guard) (d : VReg) (a : Operand) (b : Operand)
  /-- VMIN (R159). Signed lane minimum. -/
  | vmin (g : Guard) (d : VReg) (a : Operand) (b : Operand)
  /-- VMAX (R159). Signed lane maximum. -/
  | vmax (g : Guard) (d : VReg) (a : Operand) (b : Operand)
  /-- VMINW (R159). Unsigned lane minimum. -/
  | vminw (g : Guard) (d : VReg) (a : Operand) (b : Operand)
  /-- VMAXW (R159). Unsigned lane maximum. -/
  | vmaxw (g : Guard) (d : VReg) (a : Operand) (b : Operand)
  /-- VABS (R159). Absolute value of lanes modulo 2^32. -/
  | vabs (g : Guard) (d : VReg) (a : Operand)
  /-- VCLZ (R159). Counts leading zero bits per lane. -/
  | vclz (g : Guard) (d : VReg) (a : Operand)
  /-- VCNT (R159). Counts set bits per lane. -/
  | vcnt (g : Guard) (d : VReg) (a : Operand)
  /-- VSEL (R159). Selects between two lane values by a predicate. -/
  | vsel (g : Guard) (d : VReg) (a : Operand) (b : Operand) (c : Operand)
  /-- VMOV (R159). Copies a vector source to the destination lanes. -/
  | vmov (g : Guard) (d : VReg) (a : Operand)
  /-- VLI (R159). Writes the low 32 bits of an immediate to every effective lane. -/
  | vli (g : Guard) (d : VReg) (a : ImmSlot)
  /-- VCEQ (R160). Sets a predicate on equal integer lanes. -/
  | vceq (g : Guard) (d : Flag) (a : Operand) (b : Operand)
  /-- VCNE (R160). Sets a predicate on unequal integer lanes. -/
  | vcne (g : Guard) (d : Flag) (a : Operand) (b : Operand)
  /-- VCLT (R160). Sets a predicate on signed lane less-than. -/
  | vclt (g : Guard) (d : Flag) (a : Operand) (b : Operand)
  /-- VCLE (R160). Sets a predicate on signed lane less-or-equal. -/
  | vcle (g : Guard) (d : Flag) (a : Operand) (b : Operand)
  /-- VCLTW (R160). Sets a predicate on unsigned lane less-than. -/
  | vcltw (g : Guard) (d : Flag) (a : Operand) (b : Operand)
  /-- VCLEW (R160). Sets a predicate on unsigned lane less-or-equal. -/
  | vclew (g : Guard) (d : Flag) (a : Operand) (b : Operand)
  /-- FCEQ (R160). Sets a predicate on FP32 equality. -/
  | fceq (g : Guard) (d : Flag) (a : Operand) (b : Operand)
  /-- FCLT (R160). Sets a predicate on FP32 less-than. -/
  | fclt (g : Guard) (d : Flag) (a : Operand) (b : Operand)
  /-- FCLE (R160). Sets a predicate on FP32 less-or-equal. -/
  | fcle (g : Guard) (d : Flag) (a : Operand) (b : Operand)
  /-- FCUN (R160). Sets a predicate when either FP32 operand is NaN. -/
  | fcun (g : Guard) (d : Flag) (a : Operand) (b : Operand)
  /-- DCEQ (R160). Sets a predicate on FP64 pair equality. -/
  | dceq (g : Guard) (d : Flag) (a : Operand) (b : Operand)
  /-- DCLT (R160). Sets a predicate on FP64 pair less-than. -/
  | dclt (g : Guard) (d : Flag) (a : Operand) (b : Operand)
  /-- DCLE (R160). Sets a predicate on FP64 pair less-or-equal. -/
  | dcle (g : Guard) (d : Flag) (a : Operand) (b : Operand)
  /-- PAND (R161). AND of two lane predicates. -/
  | pand (g : Guard) (d : Flag) (a : Operand) (b : Operand)
  /-- POR (R161). OR of two lane predicates. -/
  | por (g : Guard) (d : Flag) (a : Operand) (b : Operand)
  /-- PXOR (R161). XOR of two lane predicates. -/
  | pxor (g : Guard) (d : Flag) (a : Operand) (b : Operand)
  /-- PANDN (R161). AND-NOT of two lane predicates. -/
  | pandn (g : Guard) (d : Flag) (a : Operand) (b : Operand)
  /-- PMOV (R161). Copies a lane predicate. -/
  | pmov (g : Guard) (d : Flag) (a : Operand)
  /-- FADD (R162). FP32 addition rounded once under FPMODE. -/
  | fadd (g : Guard) (d : VReg) (a : Operand) (b : Operand)
  /-- FSUB (R162). FP32 subtraction rounded once under FPMODE. -/
  | fsub (g : Guard) (d : VReg) (a : Operand) (b : Operand)
  /-- FMUL (R162). FP32 multiplication rounded once under FPMODE. -/
  | fmul (g : Guard) (d : VReg) (a : Operand) (b : Operand)
  /-- FFMA (R162). FP32 fused multiply-add with one rounding. -/
  | ffma (g : Guard) (d : VReg) (a : Operand) (b : Operand) (c : Operand)
  /-- FFMS (R162). FP32 fused multiply-subtract with one rounding. -/
  | ffms (g : Guard) (d : VReg) (a : Operand) (b : Operand) (c : Operand)
  /-- FNMA (R162). FP32 negated fused multiply-add with one rounding. -/
  | fnma (g : Guard) (d : VReg) (a : Operand) (b : Operand) (c : Operand)
  /-- FMIN (R163). FP32 minimum with NaN and signed-zero ordering rules. -/
  | fmin (g : Guard) (d : VReg) (a : Operand) (b : Operand)
  /-- FMAX (R163). FP32 maximum with NaN and signed-zero ordering rules. -/
  | fmax (g : Guard) (d : VReg) (a : Operand) (b : Operand)
  /-- FABS (R163). Clears the FP32 sign bit. -/
  | fabs (g : Guard) (d : VReg) (a : Operand)
  /-- FNEG (R163). Inverts the FP32 sign bit. -/
  | fneg (g : Guard) (d : VReg) (a : Operand)
  /-- FRND (R163). Rounds FP32 to an integral value under the MOD rounding. -/
  | frnd (g : Guard) (mod : Rounding) (d : VReg) (a : Operand)
  /-- FRCP (R164). Correctly rounded FP32 reciprocal under RNE. -/
  | frcp (g : Guard) (d : VReg) (a : Operand)
  /-- FRSQ (R164). Correctly rounded FP32 reciprocal square root under RNE. -/
  | frsq (g : Guard) (d : VReg) (a : Operand)
  /-- FSQRT (R164). Correctly rounded FP32 square root under FPMODE. -/
  | fsqrt (g : Guard) (d : VReg) (a : Operand)
  /-- FEXP2 (R165). Correctly rounded FP32 base-2 exponential. -/
  | fexp2 (g : Guard) (d : VReg) (a : Operand)
  /-- FLOG2 (R165). Correctly rounded FP32 base-2 logarithm. -/
  | flog2 (g : Guard) (d : VReg) (a : Operand)
  /-- DADD (R166). FP64 pair addition. -/
  | dadd (g : Guard) (d : VReg) (a : Operand) (b : Operand)
  /-- DSUB (R166). FP64 pair subtraction. -/
  | dsub (g : Guard) (d : VReg) (a : Operand) (b : Operand)
  /-- DMUL (R166). FP64 pair multiplication. -/
  | dmul (g : Guard) (d : VReg) (a : Operand) (b : Operand)
  /-- DFMA (R166). FP64 fused multiply-add with one rounding. -/
  | dfma (g : Guard) (d : VReg) (a : Operand) (b : Operand) (c : Operand)
  /-- DRCP (R166). Correctly rounded FP64 reciprocal under RNE. -/
  | drcp (g : Guard) (d : VReg) (a : Operand)
  /-- DRSQ (R166). Correctly rounded FP64 reciprocal square root under RNE. -/
  | drsq (g : Guard) (d : VReg) (a : Operand)
  /-- DSQRT (R166). Correctly rounded FP64 square root. -/
  | dsqrt (g : Guard) (d : VReg) (a : Operand)
  /-- HADD2 (R167). Packed FP16 or BF16 addition of two elements per lane. -/
  | hadd2 (g : Guard) (mod : Bool) (d : VReg) (a : Operand) (b : Operand)
  /-- HMUL2 (R167). Packed FP16 or BF16 multiplication of two elements per lane. -/
  | hmul2 (g : Guard) (mod : Bool) (d : VReg) (a : Operand) (b : Operand)
  /-- HFMA2 (R167). Packed FP16 or BF16 fused multiply-add per element. -/
  | hfma2 (g : Guard) (mod : Bool) (d : VReg) (a : Operand) (b : Operand) (c : Operand)
  /-- CVTIF (R168). Converts a 32-bit integer to FP32. -/
  | cvtif (g : Guard) (mod : Bool) (d : VReg) (a : Operand)
  /-- CVTFI (R168). Converts FP32 to a 32-bit integer with saturation. -/
  | cvtfi (g : Guard) (mod : FiMode) (d : VReg) (a : Operand)
  /-- CVTFD (R169). Widens FP32 exactly to an FP64 pair. -/
  | cvtfd (g : Guard) (d : VReg) (a : Operand)
  /-- CVTDF (R169). Rounds an FP64 pair to FP32. -/
  | cvtdf (g : Guard) (d : VReg) (a : Operand)
  /-- CVTN (R171). Narrows FP32 into one field of a format slot, optionally with error feedback. -/
  | cvtn (g : Guard) (d : VReg) (a : Operand) (b : SlotPart) (mode : CvtMode)
  /-- CVTW (R174). Widens one field of a format slot to FP32 applying its scale. -/
  | cvtw (g : Guard) (d : VReg) (a : Operand) (b : SlotPart)
  /-- VSHF (R176). Shuffles lanes within a group by per-lane index with fill. -/
  | vshf (g : Guard) (d : VReg) (a : Operand) (b : Operand) (c : Operand)
  /-- VBCAST (R176). Broadcasts one lane of each group to the group. -/
  | vbcast (g : Guard) (d : VReg) (a : Operand) (b : Operand)
  /-- VROT (R176). Rotates lanes within each group. -/
  | vrot (g : Guard) (d : VReg) (a : Operand) (b : Operand)
  /-- VRED (R177). Reduces effective lanes of each group by a fixed pairwise tree. -/
  | vred (g : Guard) (mod : RedOp) (d : VReg) (a : Operand)
  /-- VSCAN (R178). Computes the inclusive FP32 prefix sum over each group's lanes. -/
  | vscan (g : Guard) (d : VReg) (a : Operand)
  /-- VRDX (R179). Queues an index job reading lane elements of registers named per lane. -/
  | vrdx (g : Guard) (d : VReg) (a : Operand)
  /-- VWRX (R179). Queues an index job writing lane elements of registers named per lane. -/
  | vwrx (g : Guard) (a : Operand) (b : Operand)
  /-- MMA (R235). Queues a matrix multiply-accumulate into an accumulator bank. -/
  | mma (g : Guard) (d : Bank) (a : View) (b : Handle) (c : Format)
  /-- MMAZ (R238). Queues a matrix multiply that first zeroes its accumulator. -/
  | mmaz (g : Guard) (d : Bank) (a : View) (b : Handle) (c : Format)
  /-- MDRAIN (R240). Queues writing an accumulator bank to a tile, overwrite or add. -/
  | mdrain (g : Guard) (mod : Bool) (d : Handle) (a : Bank)
  /-- MFILL (R241). Queues loading an accumulator bank from an A-space tile. -/
  | mfill (g : Guard) (d : Bank) (a : Handle)
  /-- MZERO (R242). Queues zeroing one accumulator bank. -/
  | mzero (g : Guard) (d : Bank)
  /-- HALLOC (R250). Allocates a tile slot of a space within the team quota into a handle. -/
  | halloc (g : Guard) (mod : AllocMode) (d : Handle)
  /-- HFREE (R251). Frees a handle entry, raising its GEN and releasing its slot when unbound. -/
  | hfree (g : Guard) (a : Handle)
  /-- HGIVE (R252). Moves a handle's record to another gang's inbox slot. -/
  | hgive (g : Guard) (a : Handle) (b : Operand) (c : Inbox)
  /-- HTAKE (R253). Moves the record in an own inbox slot into a handle entry. -/
  | htake (g : Guard) (d : Handle) (c : Inbox)
  /-- HSHARE (R252). Delivers an alias-read-only of a record to another gang's inbox. -/
  | hshare (g : Guard) (a : Handle) (b : Operand) (c : Inbox)
  /-- HDUP (R254). Makes a second handle entry name the same record. -/
  | hdup (g : Guard) (d : Handle) (a : Handle)
  /-- HPUB (R255). Schedules publication of a record's shadow as its current slot. -/
  | hpub (g : Guard) (a : Handle)
  /-- HINFO (R257). Writes a handle's table-entry word to a scalar. -/
  | hinfo (g : Guard) (d : SReg) (a : Handle)
  /-- HWAIT (R256). Holds until a record's matrix counts, publication and copies are settled. -/
  | hwait (g : Guard) (a : Handle)
  /-- LDS (R188). Loads a sign-extended scalar from memory through the operand log. -/
  | lds (g : Guard) (mod : Width) (d : SReg) (a : Operand) (b : Operand)
  /-- LDSW (R188). Loads a zero-extended scalar from memory through the operand log. -/
  | ldsw (g : Guard) (mod : Width) (d : SReg) (a : Operand) (b : Operand)
  /-- STS (R188). Stores the low bytes of a scalar to memory. -/
  | sts (g : Guard) (mod : Width) (a : Operand) (b : Operand) (c : Operand)
  /-- LDV (R188). Loads sign-extended lane elements from per-lane addresses. -/
  | ldv (g : Guard) (mod : Width) (d : VReg) (a : Operand) (b : Operand)
  /-- LDVW (R188). Loads zero-extended lane elements from per-lane addresses. -/
  | ldvw (g : Guard) (mod : Width) (d : VReg) (a : Operand) (b : Operand)
  /-- STV (R188). Stores lane elements to per-lane addresses. -/
  | stv (g : Guard) (mod : Width) (a : Operand) (b : Operand) (c : Operand)
  /-- LDVB (R188). Loads consecutive 4-byte lane words from a group base. -/
  | ldvb (g : Guard) (d : VReg) (a : Operand)
  /-- STVB (R188). Stores consecutive 4-byte lane words to a group base. -/
  | stvb (g : Guard) (a : Operand) (c : Operand)
  /-- LDL (R193). Loads lane elements from the team pad. -/
  | ldl (g : Guard) (mod : Width) (d : VReg) (b : Operand)
  /-- STL (R193). Stores lane elements into the team pad. -/
  | stl (g : Guard) (mod : Width) (b : Operand) (c : Operand)
  /-- ATADD (R194). Atomic integer add per lane at the chosen scope, returning the old value. -/
  | atadd (g : Guard) (mod : AtScope) (d : VReg) (a : Operand) (b : Operand) (c : Operand)
  /-- ATMIN (R194). Atomic signed minimum per lane. -/
  | atmin (g : Guard) (mod : AtScope) (d : VReg) (a : Operand) (b : Operand) (c : Operand)
  /-- ATMAX (R194). Atomic signed maximum per lane. -/
  | atmax (g : Guard) (mod : AtScope) (d : VReg) (a : Operand) (b : Operand) (c : Operand)
  /-- ATMINW (R194). Atomic unsigned minimum per lane. -/
  | atminw (g : Guard) (mod : AtScope) (d : VReg) (a : Operand) (b : Operand) (c : Operand)
  /-- ATMAXW (R194). Atomic unsigned maximum per lane. -/
  | atmaxw (g : Guard) (mod : AtScope) (d : VReg) (a : Operand) (b : Operand) (c : Operand)
  /-- ATAND (R194). Atomic AND per lane. -/
  | atand (g : Guard) (mod : AtScope) (d : VReg) (a : Operand) (b : Operand) (c : Operand)
  /-- ATOR (R194). Atomic OR per lane. -/
  | ator (g : Guard) (mod : AtScope) (d : VReg) (a : Operand) (b : Operand) (c : Operand)
  /-- ATXOR (R194). Atomic XOR per lane. -/
  | atxor (g : Guard) (mod : AtScope) (d : VReg) (a : Operand) (b : Operand) (c : Operand)
  /-- ATXCH (R194). Atomic exchange per lane. -/
  | atxch (g : Guard) (mod : AtScope) (d : VReg) (a : Operand) (b : Operand) (c : Operand)
  /-- ATCAS (R194). Atomic compare-and-swap per lane. -/
  | atcas (g : Guard) (mod : AtScope) (d : VReg) (a : Operand) (b : Operand) (c : Operand)
  /-- ATFADD (R194). Atomic FP32 add per lane under RNE. -/
  | atfadd (g : Guard) (mod : AtScope) (d : VReg) (a : Operand) (b : Operand) (c : Operand)
  /-- FACQ (R196). Acquire fence: orders or drops clean L1 lines at its scope. -/
  | facq (g : Guard) (mod : Scope)
  /-- FREL (R196). Release fence: orders or writes dirty bytes and waits out HORIZON at its scope. -/
  | frel (g : Guard) (mod : Scope)
  /-- FAR (R196). Combined release then acquire fence at its scope. -/
  | far (g : Guard) (mod : Scope)
  /-- TLD (R197). Reads a tile view into a vector register. -/
  | tld (g : Guard) (d : VReg) (a : View) (b : Operand)
  /-- TST (R197). Writes a vector register into a tile view. -/
  | tst (g : Guard) (a : View) (b : Operand) (c : Operand)
  /-- XSV (R199). Broadcasts a group scalar's low 32 bits to its lanes. -/
  | xsv (g : Guard) (d : VReg) (a : Operand)
  /-- XVS (R199). Moves one or two lanes of a group into a scalar. -/
  | xvs (g : Guard) (mod : Bool) (d : SReg) (a : Operand) (b : Operand)
  /-- CPY (R202). Issues an asynchronous copy of global rows into an A-space shadow. -/
  | cpy (g : Guard) (mod : Bool) (d : Handle) (a : Operand) (b : Operand) (c : Operand)
  /-- CPYB (R202). Issues an asynchronous copy of global columns into a B-space shadow. -/
  | cpyb (g : Guard) (mod : Bool) (d : Handle) (a : Operand) (b : Operand) (c : Operand)
  /-- CPYM (R202). Issues a multicast copy into shadows on both cores of a pair. -/
  | cpym (g : Guard) (mod : Bool) (d : Handle) (a : Operand) (b : Operand) (c : Operand)
  /-- CPYO (R202). Issues an asynchronous copy of tile rows out to global memory. -/
  | cpyo (g : Guard) (d : SReg) (a : Handle) (b : Operand) (c : Operand)
  /-- CPYG (R202). Issues a global-to-global copy carried out by package copy engines. -/
  | cpyg (g : Guard) (d : SReg) (a : Operand) (b : Operand)
  /-- CPYL (R202). Issues a tile-to-tile copy into a destination shadow. -/
  | cpyl (g : Guard) (d : Handle) (a : Handle) (b : Operand) (c : Operand)
  /-- CCHAIN (R209). Chains the group's next copy after its last issued copy. -/
  | cchain (g : Guard)
  /-- CSEAL (R206). Seals the group's open copy batch and numbers it. -/
  | cseal (g : Guard) (d : SReg)
  /-- CWAIT (R208). Holds until at most n sealed batches of each group are unretired. -/
  | cwait (g : Guard) (a : ImmSlot)
  /-- CBIND (R210). Binds or unbinds the group's later copies to a barrier. -/
  | cbind (g : Guard) (a : BarOff)
  /-- BARINIT (R213). Sets a barrier's expected groups and bytes and reloads its counts. -/
  | barinit (g : Guard) (a : Bar) (b : Operand) (c : Operand)
  /-- BARARV (R214). Arrives at a barrier for the group. -/
  | bararv (g : Guard) (a : Bar)
  /-- BARWT (R214). Holds until the barrier phase differs from each group's token. -/
  | barwt (g : Guard) (a : Bar)
  /-- BARSYN (R214). Arrives at a barrier and then waits for its flip. -/
  | barsyn (g : Guard) (a : Bar)
  /-- QPUSH (R218). Pushes a record per group to a Hive queue, parking if refused. -/
  | qpush (g : Guard) (a : Operand) (b : Operand)
  /-- QPUSHN (R218). Pushes a record without parking, returning acceptance in a condition. -/
  | qpushn (g : Guard) (d : Flag) (a : Operand) (b : Operand)
  /-- QPOP (R219). Claims one record per group from a queue into a vector register. -/
  | qpop (g : Guard) (d : VReg) (a : Operand)
  /-- QBIND (R220). Binds or unbinds a queue-head latch to a queue, claiming held and prefetch records. -/
  | qbind (g : Guard) (d : Latch) (a : Operand)
  /-- QARM (R221). Sends a new threshold and age to a queue. -/
  | qarm (g : Guard) (a : Operand) (b : Operand) (c : Operand)
  /-- QSTAT (R221). Requests a snapshot of a queue's counts and state. -/
  | qstat (g : Guard) (d : SReg) (a : Operand)
  /-- QDONE (R222). Ends the team's firing and discards unclaimed reserved records. -/
  | qdone (g : Guard)
  /-- LAUNCH (R223). Submits a launch record from a gang as a package release. -/
  | launch (g : Guard) (d : SReg) (a : Operand)
  /-- GSTATE (R224). Reads state of the served gang in a handler run. -/
  | gstate (g : Guard) (d : VReg) (a : Operand) (b : Operand)
  /-- GSET (R224). Writes state of the served gang in a handler run. -/
  | gset (g : Guard) (a : Operand) (b : Operand) (c : Operand)
  /-- RESUME_ACTION (R225). GSET item 0xFF resumes the gang at or after the trapping bundle or kills its team. -/
  | resumeAction (core : Nat) (action : Word32)
  /-- MBOX (R226). Exchanges one word per group with the host through the core mailbox. -/
  | mbox (g : Guard) (d : SReg) (a : Operand)
  /-- STOP (R101). Stream escape that ends every group of the gang as if each had executed EXIT. -/
  | stop
  /-- STREAM_FETCH (R103). Fetch of a gang's next reference through the stream cache and decode table. -/
  | streamFetch (gid : Nat)
  /-- STREAM_CACHE_FILL (R103). Stream bytes arrive in the stream cache, making a waiting gang ready. -/
  | streamCacheFill (core : Nat) (fill : Nat)
  /-- REFILL_INSTALL (R108). Refill engine reads, filters and installs a decode entry. -/
  | refillInstall (core : Nat) (refill : Nat)
  /-- STARVATION_BOUND (R19). A gang idle for 64 beats counts as class 3 for its next issue. -/
  | starvationBound (gid : Nat)
  /-- RESULT_LANDING (R20). A fixed-latency result lands at the start of its landing beat and updates the latch. -/
  | resultLanding (core : Nat)
  /-- LONG_WRITE_FILL (R71). A long-latency result is written and its destination becomes full. -/
  | longWriteFill (gid : Nat) (write : Nat)
  /-- DIVIDER_RESULT (R130). The scalar divider writes a bundle's results 12 beats after acceptance. -/
  | dividerResult (core : Nat)
  /-- INDEX_JOB_LAND (R180). A register-index job's writes land and its registers become full. -/
  | indexJobLand (core : Nat)
  /-- MATRIX_OP_START (R243). A queued matrix operation starts on the array and reads its inputs. -/
  | matrixOpStart (core : Nat)
  /-- MATRIX_OP_COMPLETE (R243). A matrix operation completes and releases its busy counts. -/
  | matrixOpComplete (core : Nat)
  /-- TEMPLATE_INSTALL (R37). A core completes installing a template into its bank and tile slots. -/
  | templateInstall (core : Nat) (install : Nat)
  /-- FREEZE_SNAPSHOT (R34). Once outstanding work has landed, FREEZE snapshots the template and ends the prologue group. -/
  | freezeSnapshot (gid : Nat)
  /-- GANG_END (R145). An ended gang leaves its seat once results, log and batches are done. -/
  | gangEnd (gid : Nat)
  /-- COPY_DEADLOCK (R40). Core declares copy deadlock and hard-pre-empts the most recently dispatched team. -/
  | copyDeadlock (core : Nat)
  /-- SLEEP_WAKE (R148). A sleeping gang's wake time is reached and it becomes ready. -/
  | sleepWake (gid : Nat)
  /-- YIELD_EXPIRY (R147). A yielded gang becomes ready again after 4 beats. -/
  | yieldExpiry (gid : Nat)
  /-- STL_LAND (R193). A pad store lands in the pad 12 or 40 cycles after issue. -/
  | stlLand (gid : Nat) (write : Nat)
  /-- TLB_WALK_DONE (R262). A page-table walk completes and fills the TLB or reports a fault. -/
  | tlbWalkDone (die : Nat) (walk : Nat)
  /-- FAULT_RESOLUTION (R264). A recoverable fault is resolved and unperformed elements are re-issued. -/
  | faultResolution (fault : Nat) (success : Bool)
  /-- PAGE (R266). An unrecoverable fault parks the gang with a PAGE trap after younger bundles. -/
  | page (gid : Nat)
  /-- L1_FILL (R268). A line fetched from its home slice is merged into the L1 with a new lease. -/
  | l1Fill (core : Nat) (fetch : Nat)
  /-- LEASE_EXPIRY (R271). An L1 line's lease expires and its clean bytes become invalid. -/
  | leaseExpiry (core : Nat) (line : Nat)
  /-- DIRTY_TIMEOUT (R273). A line dirty for 2,048 cycles is written back to its home slice. -/
  | dirtyTimeout (core : Nat) (line : Nat)
  /-- WRITEBACK_ARRIVAL (R273). Written-back bytes merge at the home slice, which returns a global completion time. -/
  | writebackArrival (writeback : Nat)
  /-- ATOMIC_AT_HOME (R276). An atomic arrives at its home slice and is performed in coherence order. -/
  | atomicAtHome (atomic : Nat)
  /-- RELEASE_WAIT_END (R274). A release wait ends when TIME reaches HORIZON plus 4. -/
  | releaseWaitEnd (gid : Nat)
  /-- ACQUIRE_DROP (R275). An acquire drop invalidates clean non-template L1 bytes over 8 cycles. -/
  | acquireDrop (core : Nat) (gid : Nat)
  /-- COPY_COMPLETION (R211). An asynchronous copy finishes moving its bytes. -/
  | copyCompletion (copyId : Nat)
  /-- BATCH_RETIREMENT (R207). A completed batch retires 4 cycles after all earlier batches of its group. -/
  | batchRetirement (gid : Nat) (group : Nat)
  /-- AUTO_PUBLISH (R207). An auto-publish copy's shadow is published 8 cycles after its batch retires. -/
  | autoPublish (copyId : Nat)
  /-- PUBLISH_SWAP (R255). At time P the shadow becomes the current slot for every alias on every core. -/
  | publishSwap (team : Nat) (record : Nat)
  /-- INBOX_DELIVERY (R249). A given or shared record becomes visible in the target gang's inbox. -/
  | inboxDelivery (delivery : Nat)
  /-- BARRIER_ARRIVAL (R216). A barrier arrival reaches the pair barrier unit and decrements its counts. -/
  | barrierArrival (arrival : Nat)
  /-- PUSH_ARRIVAL (R298). A pushed record arrives at its queue and is accepted or refused. -/
  | pushArrival (push : Nat)
  /-- PUSH_REFUSAL (R218). A refusal returns to the pushing core and parks the gang. -/
  | pushRefusal (push : Nat)
  /-- HELD_PUSH_ACCEPT (R298). Held pushes are accepted in arrival order once the queue accepts again. -/
  | heldPushAccept (queue : Nat)
  /-- QARM_UPDATE (R221). A QARM write reaches the Hive and sets the queue's threshold and age. -/
  | qarmUpdate (update : Nat)
  /-- LATCH_DELIVERY (R220). A claimed record arrives at a bound latch, making it full. -/
  | latchDelivery (delivery : Nat)
  /-- REFILL_BURST_START (R297). A queue starts moving up to 16 oldest ring records back on chip. -/
  | refillBurstStart (queue : Nat)
  /-- REFILL_BURST_LANDING (R312). A refill burst lands on chip and frees its ring places. -/
  | refillBurstLanding (queue : Nat)
  /-- AGE_TRIGGER (R299). A queue's oldest unreserved record reaches age A and the queue becomes eligible. -/
  | ageTrigger (queue : Nat)
  /-- FIRING (R300). A die's firing unit fires an eligible queue, reserving records and handing over a team. -/
  | firing (die : Nat)
  /-- PROLOGUE_DISPATCH (R317). An accepted launch dispatches its prologue group alone in one gang. -/
  | prologueDispatch (launch : Nat)
  /-- TEAM_PLACEMENT (R320). A pending team is placed on a core or pair of its die where it fits. -/
  | teamPlacement (die : Nat) (team : Nat)
  /-- TEAM_COMPLETION (R324). A team completes, returns its resources and pushes its completion record. -/
  | teamCompletion (team : Nat)
  /-- HANDLER_RUN_START (R332). The handler seat starts a run for the oldest trapped gang. -/
  | handlerRunStart (core : Nat)
  /-- SOFT_DEADLINE (R336). A soft-pre-empted team reaching its deadline is hard-pre-empted. -/
  | softDeadline (team : Nat)
  /-- SAVE_COMPLETE (R338). A team save's last byte is written and its resources return. -/
  | saveComplete (team : Nat)
  /-- SAVE_TIMEOUT (R343). A save incomplete after 200 µs resets the context. -/
  | saveTimeout (team : Nat)
  /-- RESTORE (R342). A saved team is restored onto cores where it fits. -/
  | restore (team : Nat)
  /-- DOORBELL (R375). Host write makes ring commands up to the value available or halts on overrun. -/
  | doorbell (value : Word64)
  /-- RESYNC (R377). Host write discards untaken commands, restarts the ring and rewrites held events. -/
  | resync (value : Word64)
  /-- ACK_SEQ (R380). Host write acknowledges events, letting held events be written. -/
  | ackSeq (value : Word64)
  /-- RINGCFG (R378). Host write configures the command ring and sets it running. -/
  | ringcfg (value : Word64)
  /-- CARVE_LOCK (R383). Host write locks the carve-out and starts image verification. -/
  | carveLock (value : Word64)
  /-- DEBUGLVL (R391). Host write sets the debug level if permitted by the lifecycle. -/
  | debuglvl (value : Word64)
  /-- INW (R394). Host write of the incoming mailbox word, ignored while INFULL is set. -/
  | inw (core : Nat) (value : Word64)
  /-- OUTW (R394). Host read of the outgoing mailbox word clears OUTFULL. -/
  | outw (core : Nat)
  /-- REGISTER_WRITE (R373). Host write to a BAR0 register with no behaviour of its own. -/
  | registerWrite (offset : Nat) (value : Word64)
  /-- HOST_LAUNCH (R376). Ring LAUNCH command submits a launch record. -/
  | hostLaunch (hsn : Nat)
  /-- COPY (R376). Ring COPY command performs a global copy as a CPYG batch. -/
  | copy (hsn : Nat)
  /-- QUEUE_CFG (R295). Ring command has firmware accept or reject a queue configuration block. -/
  | queueCfg (hsn : Nat)
  /-- QUEUE_PUSH (R376). Ring command pushes a host record to a queue. -/
  | queuePush (hsn : Nat)
  /-- SIGNAL (R376). Ring command writes a value to a host address after earlier commands complete. -/
  | signal (hsn : Nat)
  /-- FENCE (R376). Ring command completes once every earlier command has completed. -/
  | fence (hsn : Nat)
  /-- PREEMPT_SOFT (R336). Ring PREEMPT command soft-pre-empts the selected launches. -/
  | preemptSoft (hsn : Nat)
  /-- PREEMPT_HARD (R338). Ring PREEMPT command hard-pre-empts the selected launches. -/
  | preemptHard (hsn : Nat)
  /-- INVAL (R263). Ring command invalidates TLB entries of a virtual range. -/
  | inval (hsn : Nat)
  /-- CONTEXT_CREATE (R376). Ring CONTEXT command creates a context with its areas. -/
  | contextCreate (hsn : Nat)
  /-- CONTEXT_DESTROY (R376). Ring CONTEXT command destroys a context as a reset. -/
  | contextDestroy (hsn : Nat)
  /-- PARTITION (R379). Ring command applies a partition table and slot table. -/
  | partition (hsn : Nat)
  /-- RESUME (R376). Ring command resumes placing and restores of launches stopped by PREEMPT. -/
  | resume (hsn : Nat)
  /-- QUEEN_CLAIM (R384). A supervisor claims leadership by compare-and-set after expiry. -/
  | queenClaim (die : Nat)
  /-- QUEEN_RENEW (R384). The leader renews its lease expiry. -/
  | queenRenew (die : Nat)
  /-- QUEEN_EXPIRY (R384). The leader finds its lease expired and stops leading. -/
  | queenExpiry
  /-- PACKAGE_RESET (R387). A package reset steps through the boot stages to ready. -/
  | packageReset
  /-- LIFECYCLE_FUSE (R391). A fuse moves the lifecycle forward, DECOMMISSION zeroing memory. -/
  | lifecycleFuse
  /-- SCARAB_LINK_DOWN (R382). A Scarab port goes down and a type 3 event is raised. -/
  | scarabLinkDown (port : Nat)
  /-- A1_ENTRY (R389). A core idle for 10 µs gates its datapath clocks. -/
  | a1Entry (core : Nat)
  /-- A2_ENTRY (R390). A die idle for 1 ms writes back dirty L1 bytes and parks. -/
  | a2Entry (die : Nat)
  /-- A2_EXIT (R390). A firing, placement or command brings a parked die back to A0. -/
  | a2Exit (die : Nat)
  /-- D3HOT_REQUEST (R390). Host D3hot request enters S3 after write-backs and queue saves once idle. -/
  | d3hotRequest
  /-- D0_EXIT (R390). Return to D0 restores queues and leaves S3. -/
  | d0Exit
  /-- HALT (R393). The 1149.1 HALT instruction stops every gang without a save. -/
  | halt
  /-- SCAN (R393). Scan reads or writes the halted state. -/
  | scan (write : Bool) (gid : Nat) (item : Nat) (sel : Nat) (lane : Nat) (value : Nat)
  /-- SCAN_RESUME (R393). The 1149.1 RESUME restarts every halted gang at its stopped position. -/
  | scanResume
  /-- WEAR_SAMPLE (R398). Hourly sample of the wear monitors and end-of-life fit. -/
  | wearSample (die : Nat)
  /-- READ (R396). Monitor word reads one lane of a GSTATE item. -/
  | read (core : Nat)
  /-- WRITE (R396). Monitor word pair writes a value through GSET. -/
  | write (core : Nat)
  /-- PEEK (R396). Monitor word reads 8 bytes of virtual memory. -/
  | peek (core : Nat)
  /-- MONITOR_RESUME (R396). Monitor word takes a resume action and ends the run. -/
  | monitorResume (core : Nat)
  /-- MONITOR_UNKNOWN (R396). Monitor answers an unknown opcode with 0xFF and the echo. -/
  | monitorUnknown (core : Nat)
  /-- PARTNER_SLOT_FILL (R247). The second slot of a pair-team record finishes filling over the pair bridge after 64 cycles, and the partner-core BUSYW is released. -/
  | partnerSlotFill (fill : Nat)
  /-- PARTNER_SLOT_WRITE (R248). A TST or MDRAIN to a two-slot record writes the partner slot 16 cycles later and releases the partner-core BUSYW. -/
  | partnerSlotWrite (write : Nat)
  /-- HALLOC_CLEAR_DONE (R250). A zeroed HALLOC slot finishes clearing after 16 cycles and its BUSYW is released. -/
  | hallocClearDone (gid : Nat) (write : Nat)
  /-- EVCFG (R378). A host write of EVCFG sets the event ring, and events held while its address was 0 may then be written. -/
  | evcfg (value : Word64)
  /-- CXL_PORT_DOWN (R381). A CXL port goes down, after which reads that meet it are unrecoverable faults. -/
  | cxlPortDown (port : Nat)
  /-- HOST_BAR2_ACCESS (R383). A host read or write through BAR2 reaches device memory, or completes with Unsupported Request in a locked carve-out. -/
  | hostBar2Access (store : Bool) (offset : Nat) (bytes : Nat) (value : Nat)
  /-- PEER_ACCESS_ARRIVAL (R280). A peer's access arrives over a Scarab link and takes its place in coherence order at the home slice. -/
  | peerAccessArrival (arrival : Nat)
deriving DecidableEq, Repr

end Sys2Proof
end

