-- ==== Sys2Proof/Decode.lean ====
section
/-! DEFINITION. Control words and the stream: the fields of a control word (R95, R96), operand bytes
(R98, R100), the opcode maps (R112), the hazard filter (R110), the stream references (R101, R102), and
after the decoder the encoder of the same tables. -/

namespace Sys2Proof

/-! ## Slot fields -/

/-- The four opcode maps (R112): V0 and V1 share one, C0 and C1 share one. -/
inductive SlotClass where
  | S | V | M | C
deriving DecidableEq, Repr

/-- The six slots in field order (R21, R96). -/
inductive Slot where
  | s | v0 | v1 | m | c0 | c1
deriving DecidableEq, Repr

/-- The opcode map of a slot. -/
def Slot.cls : Slot → SlotClass
  | .s => .S | .v0 => .V | .v1 => .V | .m => .M | .c0 => .C | .c1 => .C

/-- The place of a slot in field order, which orders the collisions of one bundle (R21). -/
def Slot.order : Slot → Nat
  | .s => 0 | .v0 => 1 | .v1 => 2 | .m => 3 | .c0 => 4 | .c1 => 5

/-- The lowest bit of a slot's field in the control word (R96). -/
def Slot.low : Slot → Nat
  | .s => 240 | .v0 => 192 | .v1 => 144 | .m => 96 | .c0 => 48 | .c1 => 0

/-- The fields of one 48-bit slot (R96). -/
structure SlotBits where
  valid : BitVec 1
  inv : BitVec 1
  gidx : BitVec 3
  op : BitVec 9
  mod : BitVec 2
  d : Byte
  a : Byte
  b : Byte
  c : Byte
deriving DecidableEq, Repr

/-- Splits a slot's 48 bits into its fields (R96). -/
def SlotBits.of (w : BitVec 48) : SlotBits where
  valid := w.extractLsb' 47 1
  inv := w.extractLsb' 46 1
  gidx := w.extractLsb' 43 3
  op := w.extractLsb' 34 9
  mod := w.extractLsb' 32 2
  d := w.extractLsb' 24 8
  a := w.extractLsb' 16 8
  b := w.extractLsb' 8 8
  c := w.extractLsb' 0 8

/-- Joins the fields of a slot: VALID_INV_GIDX_OP_MOD_D_A_B_C (R96). -/
def SlotBits.word (s : SlotBits) : BitVec 48 :=
  s.valid ++ s.inv ++ s.gidx ++ s.op ++ s.mod ++ s.d ++ s.a ++ s.b ++ s.c

/-! ## Operand bytes -/

/-- The seven-bit code of an operand (R98). -/
def Code.toNat : Code → Nat
  | .reg n => n.val
  | .ls => 0x40 | .lv0 => 0x41 | .lv1 => 0x42 | .lc0 => 0x43 | .lc1 => 0x44
  | .qh k => 0x48 + k.val
  | .imm k => 0x50 + k.val
  | .zero => 0x58 | .lane => 0x59 | .grp => 0x5A | .team => 0x5B | .gwid => 0x5C
  | .flag n => 0x60 + n.val

/-- The operand a seven-bit code names, where it names one (R98). -/
def Code.ofNat? (n : Nat) : Option Code :=
  if h : n < 0x40 then some (.reg ⟨n, h⟩)
  else if n = 0x40 then some .ls
  else if n = 0x41 then some .lv0
  else if n = 0x42 then some .lv1
  else if n = 0x43 then some .lc0
  else if n = 0x44 then some .lc1
  else if h : 0x48 ≤ n ∧ n < 0x4C then some (.qh ⟨n - 0x48, by omega⟩)
  else if h : 0x50 ≤ n ∧ n < 0x54 then some (.imm ⟨n - 0x50, by omega⟩)
  else if n = 0x58 then some .zero
  else if n = 0x59 then some .lane
  else if n = 0x5A then some .grp
  else if n = 0x5B then some .team
  else if n = 0x5C then some .gwid
  else if h : 0x60 ≤ n ∧ n < 0x68 then some (.flag ⟨n - 0x60, by omega⟩)
  else none

/-- The byte of a source operand: E in bit 7, code below (R98). -/
def Operand.byte (o : Operand) : Byte :=
  BitVec.ofNat 8 ((if o.e then 0x80 else 0) + o.code.toNat)

/-- Reads a source operand byte (R98). -/
def Operand.ofByte? (b : Byte) : Option Operand :=
  (Code.ofNat? (b.toNat % 0x80)).map fun c => { e := decide (0x80 ≤ b.toNat), code := c }

/-- The codes a vector role takes in a slot of class `c` (R98). -/
def Code.okVector (c : SlotClass) : Code → Bool
  | .reg _ => true
  | .ls => false
  | .lv0 | .lv1 => c == .V || c == .C
  | .lc0 | .lc1 => true
  | .qh _ | .imm _ | .zero | .lane | .grp | .team | .gwid => true
  | .flag _ => false

/-- The codes a scalar role takes in a slot of class `c` (R98). -/
def Code.okScalar (c : SlotClass) : Code → Bool
  | .reg n => n.val < 32
  | .ls => c == .S || c == .M || c == .C
  | .lv0 | .lv1 => false
  | .lc0 | .lc1 => true
  | .qh _ | .imm _ | .zero | .grp | .team | .gwid => true
  | .lane | .flag _ => false

/-- The codes an FP64 pair source takes (R154). -/
def Code.okPair : Code → Bool
  | .reg _ | .zero | .imm _ => true
  | _ => false

/-- The codes a predicate or condition source takes (R98). -/
def Code.okFlag : Code → Bool
  | .flag _ => true
  | _ => false

/-! ## The fields of an operation, by role -/

/-- What one field of a slot operation holds, with the role the opcode map gives it (R98, R100, R112). -/
inductive Field where
  /-- the field is unused and holds 0x00 -/
  | none
  | vec (o : Operand) | sca (o : Operand) | pair (o : Operand)
  | prd (o : Operand) | cnd (o : Operand)
  /-- CVTN's error-feedback companion: source and destination (R171, R173) -/
  | companion (r : VReg) (e : Bool)
  | dVec (r : VReg) | dPair (r : VReg) | dSca (r : SReg) | dPrd (f : Flag) | dCnd (f : Flag)
  /-- a scalar register read through the D field (CPYO, CPYG) -/
  | rSca (r : SReg)
  | handle (h : Handle) | view (v : View) | mview (v : View) | bank (b : Bank)
  | bar (b : Bar) | barOff (b : BarOff) | part (p : SlotPart) | fmt (f : Format)
  | spec (n : Special) | dSpec (n : Special) | inbox (n : Inbox) | latch (n : Latch)
  | target (k : ImmSlot)
deriving DecidableEq, Repr

/-- The two bits of a direction (R64). -/
def Dir.toNat : Dir → Nat
  | .row => 0 | .column => 1 | .diagonal => 2 | .antiDiagonal => 3

/-- The direction of two bits (R64). -/
def Dir.ofBits : Nat → Dir
  | 0 => .row | 1 => .column | 2 => .diagonal | _ => .antiDiagonal

/-- The two bits of a K code (R236). -/
def KCode.toNat : KCode → Nat
  | .full => 0 | .half => 1 | .quarter => 2 | .imm => 3

/-- The K code of two bits (R236). -/
def KCode.ofBits : Nat → KCode
  | 0 => .full | 1 => .half | 2 => .quarter | _ => .imm

/-- A view's byte (R100). -/
def View.byte (v : View) : Byte := BitVec.ofNat 8 (v.dir.toNat * 64 + v.h.val)

/-- The byte of a field (R98, R100). DEDUCED, log 102. -/
def Field.byte : Field → Byte
  | .none => 0
  | .vec o | .sca o | .pair o | .prd o | .cnd o => o.byte
  | .companion r e => BitVec.ofNat 8 ((if e then 0x80 else 0) + r.val)
  | .dVec r | .dPair r => BitVec.ofNat 8 r.val
  | .dSca r | .rSca r => BitVec.ofNat 8 r.val
  | .dPrd f | .dCnd f => BitVec.ofNat 8 (0x60 + f.val)
  | .handle h => BitVec.ofNat 8 h.val
  | .view v | .mview v => v.byte
  | .bank b => BitVec.ofNat 8 b.val
  | .bar b => BitVec.ofNat 8 b.val
  | .barOff b => BitVec.ofNat 8 ((if b.unbind then 8 else 0) + b.b.val)
  | .part p => BitVec.ofNat 8 (p.part.val * 8 + p.slot.val)
  | .fmt f => BitVec.ofNat 8 (f.a.val * 32 + f.b.val * 4 + f.k.toNat)
  | .spec n | .dSpec n => BitVec.ofNat 8 n.val
  | .inbox n => BitVec.ofNat 8 n.val
  | .latch n => BitVec.ofNat 8 (0x48 + n.val)
  | .target k => BitVec.ofNat 8 (0x50 + k.val)

/-- A field meets the roles of R98 and R100; what only reasons 5, 7 and 8 of R110 refuse is left to
`Shape.reasons`. -/
def Field.ok (c : SlotClass) : Field → Bool
  | .vec o => o.code.okVector c
  | .sca o => o.code.okScalar c
  | .pair o => o.code.okPair
  | .prd o | .cnd o => o.code.okFlag
  | .dPrd f | .dCnd f => f.val ≠ 0
  | .mview v => v.dir == .row || v.dir == .column
  | _ => true

/-- One slot operation as the opcode maps describe it. -/
structure Shape where
  cls : SlotClass
  g : Guard
  op : BitVec 9
  mod : BitVec 2
  d : Field
  a : Field
  b : Field
  c : Field
deriving DecidableEq, Repr

/-! ## Modifiers -/

/-- One bit of a modifier. -/
def bit2 (x : Bool) : BitVec 2 := if x then 1 else 0

/-- The modifier of a rounding mode (R112). -/
def Rounding.mod : Rounding → BitVec 2
  | .rne => 0 | .rz => 1 | .ru => 2 | .rd => 3

/-- The modifier of CVTFI (R112). -/
def FiMode.mod (m : FiMode) : BitVec 2 := (if m.rz then 2 else 0) + bit2 m.uns

/-- The modifier of CVTN (R112). -/
def CvtMode.mod : CvtMode → BitVec 2
  | .rne => 0 | .rz => 1 | .ef _ _ => 2 | .sat => 3

/-- CVTN's C field (R171). -/
def CvtMode.field : CvtMode → Field
  | .ef r e => .companion r e
  | _ => .none

/-- The modifier of VRED (R112). -/
def RedOp.mod : RedOp → BitVec 2
  | .fadd => 0 | .fmin => 1 | .fmax => 2 | .iadd => 3

/-- The modifier of HALLOC (R112). -/
def AllocMode.mod (m : AllocMode) : BitVec 2 := (if m.bspace then 2 else 0) + bit2 m.zeroed

/-- The modifier of an access width (R112). -/
def Width.mod : Width → BitVec 2
  | .w1 => 0 | .w2 => 1 | .w4 => 2 | .w8 => 3

/-- The modifier of an atomic's scope (R112). -/
def AtScope.mod : AtScope → BitVec 2
  | .team => 0 | .package => 1 | .system => 2

/-- The modifier of a fence's scope (R112). -/
def Scope.mod : Scope → BitVec 2
  | .group => 0 | .team => 1 | .package => 2 | .system => 3

/-- Each slot operation's class, guard, opcode, modifier and fields (R112); events have none. -/
def Instr.shape : Instr → Option Shape
  | .add g d a b => some ⟨.S, g, 0x001, 0, .dSca d, .sca a, .sca b, .none⟩
  | .sub g d a b => some ⟨.S, g, 0x002, 0, .dSca d, .sca a, .sca b, .none⟩
  | .mul g d a b => some ⟨.S, g, 0x003, 0, .dSca d, .sca a, .sca b, .none⟩
  | .mulh g d a b => some ⟨.S, g, 0x004, 0, .dSca d, .sca a, .sca b, .none⟩
  | .mulhw g d a b => some ⟨.S, g, 0x005, 0, .dSca d, .sca a, .sca b, .none⟩
  | .div g d a b => some ⟨.S, g, 0x006, 0, .dSca d, .sca a, .sca b, .none⟩
  | .divw g d a b => some ⟨.S, g, 0x007, 0, .dSca d, .sca a, .sca b, .none⟩
  | .rem g d a b => some ⟨.S, g, 0x008, 0, .dSca d, .sca a, .sca b, .none⟩
  | .remw g d a b => some ⟨.S, g, 0x009, 0, .dSca d, .sca a, .sca b, .none⟩
  | .and g d a b => some ⟨.S, g, 0x00A, 0, .dSca d, .sca a, .sca b, .none⟩
  | .or g d a b => some ⟨.S, g, 0x00B, 0, .dSca d, .sca a, .sca b, .none⟩
  | .xor g d a b => some ⟨.S, g, 0x00C, 0, .dSca d, .sca a, .sca b, .none⟩
  | .andn g d a b => some ⟨.S, g, 0x00D, 0, .dSca d, .sca a, .sca b, .none⟩
  | .shl g d a b => some ⟨.S, g, 0x00E, 0, .dSca d, .sca a, .sca b, .none⟩
  | .shr g d a b => some ⟨.S, g, 0x00F, 0, .dSca d, .sca a, .sca b, .none⟩
  | .sar g d a b => some ⟨.S, g, 0x010, 0, .dSca d, .sca a, .sca b, .none⟩
  | .rol g d a b => some ⟨.S, g, 0x011, 0, .dSca d, .sca a, .sca b, .none⟩
  | .min g d a b => some ⟨.S, g, 0x012, 0, .dSca d, .sca a, .sca b, .none⟩
  | .max g d a b => some ⟨.S, g, 0x013, 0, .dSca d, .sca a, .sca b, .none⟩
  | .minw g d a b => some ⟨.S, g, 0x014, 0, .dSca d, .sca a, .sca b, .none⟩
  | .maxw g d a b => some ⟨.S, g, 0x015, 0, .dSca d, .sca a, .sca b, .none⟩
  | .clz g d a => some ⟨.S, g, 0x016, 0, .dSca d, .sca a, .none, .none⟩
  | .cnt g d a => some ⟨.S, g, 0x017, 0, .dSca d, .sca a, .none, .none⟩
  | .mov g d a => some ⟨.S, g, 0x019, 0, .dSca d, .sca a, .none, .none⟩
  | .sel g d a b c => some ⟨.S, g, 0x018, 0, .dSca d, .sca a, .sca b, .cnd c⟩
  | .li g d a => some ⟨.S, g, 0x01A, 0, .dSca d, .target a, .none, .none⟩
  | .lih g d a b => some ⟨.S, g, 0x01B, 0, .dSca d, .sca a, .target b, .none⟩
  | .ceq g d a b => some ⟨.S, g, 0x020, 0, .dCnd d, .sca a, .sca b, .none⟩
  | .cne g d a b => some ⟨.S, g, 0x021, 0, .dCnd d, .sca a, .sca b, .none⟩
  | .clt g d a b => some ⟨.S, g, 0x022, 0, .dCnd d, .sca a, .sca b, .none⟩
  | .cle g d a b => some ⟨.S, g, 0x023, 0, .dCnd d, .sca a, .sca b, .none⟩
  | .cltw g d a b => some ⟨.S, g, 0x024, 0, .dCnd d, .sca a, .sca b, .none⟩
  | .clew g d a b => some ⟨.S, g, 0x025, 0, .dCnd d, .sca a, .sca b, .none⟩
  | .cand g d a b => some ⟨.S, g, 0x026, 0, .dCnd d, .cnd a, .cnd b, .none⟩
  | .cor g d a b => some ⟨.S, g, 0x027, 0, .dCnd d, .cnd a, .cnd b, .none⟩
  | .cxor g d a b => some ⟨.S, g, 0x028, 0, .dCnd d, .cnd a, .cnd b, .none⟩
  | .cany g d a => some ⟨.S, g, 0x029, 0, .dCnd d, .prd a, .none, .none⟩
  | .cevery g d a => some ⟨.S, g, 0x02A, 0, .dCnd d, .prd a, .none, .none⟩
  | .br g a => some ⟨.S, g, 0x040, 0, .none, .target a, .none, .none⟩
  | .brc g mod a b => some ⟨.S, g, 0x041, bit2 mod, .none, .cnd a, .target b, .none⟩
  | .brd g a b c => some ⟨.S, g, 0x042, 0, .none, .cnd a, .target b, .target c⟩
  | .join g => some ⟨.S, g, 0x043, 0, .none, .none, .none, .none⟩
  | .call g a => some ⟨.S, g, 0x044, 0, .none, .target a, .none, .none⟩
  | .ret g => some ⟨.S, g, 0x045, 0, .none, .none, .none, .none⟩
  | .loop g d a b => some ⟨.S, g, 0x046, 0, .dSca d, .sca a, .target b, .none⟩
  | .brx g a => some ⟨.S, g, 0x047, 0, .none, .sca a, .none, .none⟩
  | .exit g => some ⟨.S, g, 0x048, 0, .none, .none, .none, .none⟩
  | .freeze g => some ⟨.S, g, 0x049, 0, .none, .none, .none, .none⟩
  | .yield g => some ⟨.S, g, 0x04A, 0, .none, .none, .none, .none⟩
  | .sleep g a => some ⟨.S, g, 0x04B, 0, .none, .sca a, .none, .none⟩
  | .trap g a => some ⟨.S, g, 0x04C, 0, .none, .target a, .none, .none⟩
  | .rdsr g d a => some ⟨.S, g, 0x04D, 0, .dSca d, .spec a, .none, .none⟩
  | .wrsr g d a => some ⟨.S, g, 0x04E, 0, .dSpec d, .sca a, .none, .none⟩
  | .vadd g d a b => some ⟨.V, g, 0x001, 0, .dVec d, .vec a, .vec b, .none⟩
  | .vsub g d a b => some ⟨.V, g, 0x002, 0, .dVec d, .vec a, .vec b, .none⟩
  | .vmul g d a b => some ⟨.V, g, 0x003, 0, .dVec d, .vec a, .vec b, .none⟩
  | .vmulh g d a b => some ⟨.V, g, 0x004, 0, .dVec d, .vec a, .vec b, .none⟩
  | .vand g d a b => some ⟨.V, g, 0x006, 0, .dVec d, .vec a, .vec b, .none⟩
  | .vor g d a b => some ⟨.V, g, 0x007, 0, .dVec d, .vec a, .vec b, .none⟩
  | .vxor g d a b => some ⟨.V, g, 0x008, 0, .dVec d, .vec a, .vec b, .none⟩
  | .vshl g d a b => some ⟨.V, g, 0x009, 0, .dVec d, .vec a, .vec b, .none⟩
  | .vshr g d a b => some ⟨.V, g, 0x00A, 0, .dVec d, .vec a, .vec b, .none⟩
  | .vsar g d a b => some ⟨.V, g, 0x00B, 0, .dVec d, .vec a, .vec b, .none⟩
  | .vmin g d a b => some ⟨.V, g, 0x00C, 0, .dVec d, .vec a, .vec b, .none⟩
  | .vmax g d a b => some ⟨.V, g, 0x00D, 0, .dVec d, .vec a, .vec b, .none⟩
  | .vminw g d a b => some ⟨.V, g, 0x00E, 0, .dVec d, .vec a, .vec b, .none⟩
  | .vmaxw g d a b => some ⟨.V, g, 0x00F, 0, .dVec d, .vec a, .vec b, .none⟩
  | .fadd g d a b => some ⟨.V, g, 0x040, 0, .dVec d, .vec a, .vec b, .none⟩
  | .fsub g d a b => some ⟨.V, g, 0x041, 0, .dVec d, .vec a, .vec b, .none⟩
  | .fmul g d a b => some ⟨.V, g, 0x042, 0, .dVec d, .vec a, .vec b, .none⟩
  | .fmin g d a b => some ⟨.V, g, 0x046, 0, .dVec d, .vec a, .vec b, .none⟩
  | .fmax g d a b => some ⟨.V, g, 0x047, 0, .dVec d, .vec a, .vec b, .none⟩
  | .vmad g d a b c => some ⟨.V, g, 0x005, 0, .dVec d, .vec a, .vec b, .vec c⟩
  | .ffma g d a b c => some ⟨.V, g, 0x043, 0, .dVec d, .vec a, .vec b, .vec c⟩
  | .ffms g d a b c => some ⟨.V, g, 0x044, 0, .dVec d, .vec a, .vec b, .vec c⟩
  | .fnma g d a b c => some ⟨.V, g, 0x045, 0, .dVec d, .vec a, .vec b, .vec c⟩
  | .vabs g d a => some ⟨.V, g, 0x010, 0, .dVec d, .vec a, .none, .none⟩
  | .vclz g d a => some ⟨.V, g, 0x011, 0, .dVec d, .vec a, .none, .none⟩
  | .vcnt g d a => some ⟨.V, g, 0x012, 0, .dVec d, .vec a, .none, .none⟩
  | .vmov g d a => some ⟨.V, g, 0x014, 0, .dVec d, .vec a, .none, .none⟩
  | .fabs g d a => some ⟨.V, g, 0x048, 0, .dVec d, .vec a, .none, .none⟩
  | .fneg g d a => some ⟨.V, g, 0x049, 0, .dVec d, .vec a, .none, .none⟩
  | .frcp g d a => some ⟨.V, g, 0x04A, 0, .dVec d, .vec a, .none, .none⟩
  | .frsq g d a => some ⟨.V, g, 0x04B, 0, .dVec d, .vec a, .none, .none⟩
  | .fsqrt g d a => some ⟨.V, g, 0x04C, 0, .dVec d, .vec a, .none, .none⟩
  | .fexp2 g d a => some ⟨.V, g, 0x04D, 0, .dVec d, .vec a, .none, .none⟩
  | .flog2 g d a => some ⟨.V, g, 0x04E, 0, .dVec d, .vec a, .none, .none⟩
  | .vsel g d a b c => some ⟨.V, g, 0x013, 0, .dVec d, .vec a, .vec b, .prd c⟩
  | .vli g d a => some ⟨.V, g, 0x015, 0, .dVec d, .target a, .none, .none⟩
  | .vceq g d a b => some ⟨.V, g, 0x020, 0, .dPrd d, .vec a, .vec b, .none⟩
  | .vcne g d a b => some ⟨.V, g, 0x021, 0, .dPrd d, .vec a, .vec b, .none⟩
  | .vclt g d a b => some ⟨.V, g, 0x022, 0, .dPrd d, .vec a, .vec b, .none⟩
  | .vcle g d a b => some ⟨.V, g, 0x023, 0, .dPrd d, .vec a, .vec b, .none⟩
  | .vcltw g d a b => some ⟨.V, g, 0x024, 0, .dPrd d, .vec a, .vec b, .none⟩
  | .vclew g d a b => some ⟨.V, g, 0x025, 0, .dPrd d, .vec a, .vec b, .none⟩
  | .fceq g d a b => some ⟨.V, g, 0x026, 0, .dPrd d, .vec a, .vec b, .none⟩
  | .fclt g d a b => some ⟨.V, g, 0x027, 0, .dPrd d, .vec a, .vec b, .none⟩
  | .fcle g d a b => some ⟨.V, g, 0x028, 0, .dPrd d, .vec a, .vec b, .none⟩
  | .fcun g d a b => some ⟨.V, g, 0x029, 0, .dPrd d, .vec a, .vec b, .none⟩
  | .dceq g d a b => some ⟨.V, g, 0x02A, 0, .dPrd d, .pair a, .pair b, .none⟩
  | .dclt g d a b => some ⟨.V, g, 0x02B, 0, .dPrd d, .pair a, .pair b, .none⟩
  | .dcle g d a b => some ⟨.V, g, 0x02C, 0, .dPrd d, .pair a, .pair b, .none⟩
  | .pand g d a b => some ⟨.V, g, 0x030, 0, .dPrd d, .prd a, .prd b, .none⟩
  | .por g d a b => some ⟨.V, g, 0x031, 0, .dPrd d, .prd a, .prd b, .none⟩
  | .pxor g d a b => some ⟨.V, g, 0x032, 0, .dPrd d, .prd a, .prd b, .none⟩
  | .pandn g d a b => some ⟨.V, g, 0x033, 0, .dPrd d, .prd a, .prd b, .none⟩
  | .pmov g d a => some ⟨.V, g, 0x034, 0, .dPrd d, .prd a, .none, .none⟩
  | .frnd g mod d a => some ⟨.V, g, 0x04F, mod.mod, .dVec d, .vec a, .none, .none⟩
  | .dadd g d a b => some ⟨.V, g, 0x060, 0, .dPair d, .pair a, .pair b, .none⟩
  | .dsub g d a b => some ⟨.V, g, 0x061, 0, .dPair d, .pair a, .pair b, .none⟩
  | .dmul g d a b => some ⟨.V, g, 0x062, 0, .dPair d, .pair a, .pair b, .none⟩
  | .dfma g d a b c => some ⟨.V, g, 0x063, 0, .dPair d, .pair a, .pair b, .pair c⟩
  | .drcp g d a => some ⟨.V, g, 0x064, 0, .dPair d, .pair a, .none, .none⟩
  | .drsq g d a => some ⟨.V, g, 0x065, 0, .dPair d, .pair a, .none, .none⟩
  | .dsqrt g d a => some ⟨.V, g, 0x066, 0, .dPair d, .pair a, .none, .none⟩
  | .hadd2 g mod d a b => some ⟨.V, g, 0x070, bit2 mod, .dVec d, .vec a, .vec b, .none⟩
  | .hmul2 g mod d a b => some ⟨.V, g, 0x071, bit2 mod, .dVec d, .vec a, .vec b, .none⟩
  | .hfma2 g mod d a b c => some ⟨.V, g, 0x072, bit2 mod, .dVec d, .vec a, .vec b, .vec c⟩
  | .cvtif g mod d a => some ⟨.V, g, 0x080, bit2 mod, .dVec d, .vec a, .none, .none⟩
  | .cvtfi g mod d a => some ⟨.V, g, 0x081, mod.mod, .dVec d, .vec a, .none, .none⟩
  | .cvtfd g d a => some ⟨.V, g, 0x082, 0, .dPair d, .vec a, .none, .none⟩
  | .cvtdf g d a => some ⟨.V, g, 0x083, 0, .dVec d, .pair a, .none, .none⟩
  | .cvtn g d a b mode => some ⟨.V, g, 0x084, mode.mod, .dVec d, .vec a, .part b, mode.field⟩
  | .cvtw g d a b => some ⟨.V, g, 0x085, 0, .dVec d, .vec a, .part b, .none⟩
  | .vshf g d a b c => some ⟨.V, g, 0x090, 0, .dVec d, .vec a, .vec b, .vec c⟩
  | .vbcast g d a b => some ⟨.V, g, 0x091, 0, .dVec d, .vec a, .vec b, .none⟩
  | .vrot g d a b => some ⟨.V, g, 0x092, 0, .dVec d, .vec a, .vec b, .none⟩
  | .vred g mod d a => some ⟨.V, g, 0x093, mod.mod, .dVec d, .vec a, .none, .none⟩
  | .vscan g d a => some ⟨.V, g, 0x094, 0, .dVec d, .vec a, .none, .none⟩
  | .vrdx g d a => some ⟨.V, g, 0x095, 0, .dVec d, .vec a, .none, .none⟩
  | .vwrx g a b => some ⟨.V, g, 0x096, 0, .none, .vec a, .vec b, .none⟩
  | .mma g d a b c => some ⟨.M, g, 0x001, 0, .bank d, .mview a, .handle b, .fmt c⟩
  | .mmaz g d a b c => some ⟨.M, g, 0x002, 0, .bank d, .mview a, .handle b, .fmt c⟩
  | .mdrain g mod d a => some ⟨.M, g, 0x003, bit2 mod, .handle d, .bank a, .none, .none⟩
  | .mfill g d a => some ⟨.M, g, 0x004, 0, .bank d, .handle a, .none, .none⟩
  | .mzero g d => some ⟨.M, g, 0x005, 0, .bank d, .none, .none, .none⟩
  | .halloc g mod d => some ⟨.M, g, 0x010, mod.mod, .handle d, .none, .none, .none⟩
  | .hfree g a => some ⟨.M, g, 0x011, 0, .none, .handle a, .none, .none⟩
  | .hgive g a b c => some ⟨.M, g, 0x012, 0, .none, .handle a, .sca b, .inbox c⟩
  | .htake g d c => some ⟨.M, g, 0x013, 0, .handle d, .none, .none, .inbox c⟩
  | .hshare g a b c => some ⟨.M, g, 0x014, 0, .none, .handle a, .sca b, .inbox c⟩
  | .hdup g d a => some ⟨.M, g, 0x015, 0, .handle d, .handle a, .none, .none⟩
  | .hpub g a => some ⟨.M, g, 0x016, 0, .none, .handle a, .none, .none⟩
  | .hinfo g d a => some ⟨.M, g, 0x017, 0, .dSca d, .handle a, .none, .none⟩
  | .hwait g a => some ⟨.M, g, 0x018, 0, .none, .handle a, .none, .none⟩
  | .lds g mod d a b => some ⟨.C, g, 0x001, mod.mod, .dSca d, .sca a, .sca b, .none⟩
  | .ldsw g mod d a b => some ⟨.C, g, 0x002, mod.mod, .dSca d, .sca a, .sca b, .none⟩
  | .sts g mod a b c => some ⟨.C, g, 0x003, mod.mod, .none, .sca a, .sca b, .sca c⟩
  | .ldv g mod d a b => some ⟨.C, g, 0x004, mod.mod, .dVec d, .sca a, .vec b, .none⟩
  | .ldvw g mod d a b => some ⟨.C, g, 0x005, mod.mod, .dVec d, .sca a, .vec b, .none⟩
  | .stv g mod a b c => some ⟨.C, g, 0x006, mod.mod, .none, .sca a, .vec b, .vec c⟩
  | .ldvb g d a => some ⟨.C, g, 0x007, 2, .dVec d, .sca a, .none, .none⟩
  | .stvb g a c => some ⟨.C, g, 0x008, 2, .none, .sca a, .none, .vec c⟩
  | .ldl g mod d b => some ⟨.C, g, 0x009, mod.mod, .dVec d, .none, .vec b, .none⟩
  | .stl g mod b c => some ⟨.C, g, 0x00A, mod.mod, .none, .none, .vec b, .vec c⟩
  | .atadd g mod d a b c => some ⟨.C, g, 0x010, mod.mod, .dVec d, .sca a, .vec b, .vec c⟩
  | .atmin g mod d a b c => some ⟨.C, g, 0x011, mod.mod, .dVec d, .sca a, .vec b, .vec c⟩
  | .atmax g mod d a b c => some ⟨.C, g, 0x012, mod.mod, .dVec d, .sca a, .vec b, .vec c⟩
  | .atminw g mod d a b c => some ⟨.C, g, 0x013, mod.mod, .dVec d, .sca a, .vec b, .vec c⟩
  | .atmaxw g mod d a b c => some ⟨.C, g, 0x014, mod.mod, .dVec d, .sca a, .vec b, .vec c⟩
  | .atand g mod d a b c => some ⟨.C, g, 0x015, mod.mod, .dVec d, .sca a, .vec b, .vec c⟩
  | .ator g mod d a b c => some ⟨.C, g, 0x016, mod.mod, .dVec d, .sca a, .vec b, .vec c⟩
  | .atxor g mod d a b c => some ⟨.C, g, 0x017, mod.mod, .dVec d, .sca a, .vec b, .vec c⟩
  | .atxch g mod d a b c => some ⟨.C, g, 0x018, mod.mod, .dVec d, .sca a, .vec b, .vec c⟩
  | .atcas g mod d a b c => some ⟨.C, g, 0x019, mod.mod, .dVec d, .sca a, .vec b, .vec c⟩
  | .atfadd g mod d a b c => some ⟨.C, g, 0x01A, mod.mod, .dVec d, .sca a, .vec b, .vec c⟩
  | .facq g mod => some ⟨.C, g, 0x020, mod.mod, .none, .none, .none, .none⟩
  | .frel g mod => some ⟨.C, g, 0x021, mod.mod, .none, .none, .none, .none⟩
  | .far g mod => some ⟨.C, g, 0x022, mod.mod, .none, .none, .none, .none⟩
  | .tld g d a b => some ⟨.C, g, 0x028, 0, .dVec d, .view a, .sca b, .none⟩
  | .tst g a b c => some ⟨.C, g, 0x029, 0, .none, .view a, .sca b, .vec c⟩
  | .xsv g d a => some ⟨.C, g, 0x030, 0, .dVec d, .sca a, .none, .none⟩
  | .xvs g mod d a b => some ⟨.C, g, 0x031, bit2 mod, .dSca d, .vec a, .sca b, .none⟩
  | .cpy g mod d a b c => some ⟨.C, g, 0x040, bit2 mod, .handle d, .sca a, .sca b, .sca c⟩
  | .cpyb g mod d a b c => some ⟨.C, g, 0x041, bit2 mod, .handle d, .sca a, .sca b, .sca c⟩
  | .cpym g mod d a b c => some ⟨.C, g, 0x042, bit2 mod, .handle d, .sca a, .sca b, .sca c⟩
  | .cpyo g d a b c => some ⟨.C, g, 0x043, 0, .rSca d, .handle a, .sca b, .sca c⟩
  | .cpyg g d a b => some ⟨.C, g, 0x044, 0, .rSca d, .sca a, .sca b, .none⟩
  | .cpyl g d a b c => some ⟨.C, g, 0x045, 0, .handle d, .handle a, .sca b, .sca c⟩
  | .cchain g => some ⟨.C, g, 0x046, 0, .none, .none, .none, .none⟩
  | .cseal g d => some ⟨.C, g, 0x047, 0, .dSca d, .none, .none, .none⟩
  | .cwait g a => some ⟨.C, g, 0x048, 0, .none, .target a, .none, .none⟩
  | .cbind g a => some ⟨.C, g, 0x049, 0, .none, .barOff a, .none, .none⟩
  | .barinit g a b c => some ⟨.C, g, 0x050, 0, .none, .bar a, .sca b, .sca c⟩
  | .bararv g a => some ⟨.C, g, 0x051, 0, .none, .bar a, .none, .none⟩
  | .barwt g a => some ⟨.C, g, 0x052, 0, .none, .bar a, .none, .none⟩
  | .barsyn g a => some ⟨.C, g, 0x053, 0, .none, .bar a, .none, .none⟩
  | .qpush g a b => some ⟨.C, g, 0x060, 0, .none, .sca a, .vec b, .none⟩
  | .qpushn g d a b => some ⟨.C, g, 0x061, 0, .dCnd d, .sca a, .vec b, .none⟩
  | .qpop g d a => some ⟨.C, g, 0x062, 0, .dVec d, .sca a, .none, .none⟩
  | .qbind g d a => some ⟨.C, g, 0x063, 0, .latch d, .sca a, .none, .none⟩
  | .qarm g a b c => some ⟨.C, g, 0x064, 0, .none, .sca a, .sca b, .sca c⟩
  | .qstat g d a => some ⟨.C, g, 0x065, 0, .dSca d, .sca a, .none, .none⟩
  | .qdone g => some ⟨.C, g, 0x066, 0, .none, .none, .none, .none⟩
  | .launch g d a => some ⟨.C, g, 0x070, 0, .dSca d, .sca a, .none, .none⟩
  | .gstate g d a b => some ⟨.C, g, 0x078, 0, .dVec d, .sca a, .sca b, .none⟩
  | .gset g a b c => some ⟨.C, g, 0x079, 0, .none, .sca a, .vec b, .sca c⟩
  | .mbox g d a => some ⟨.C, g, 0x07A, 0, .dSca d, .sca a, .none, .none⟩
  | _ => none

/-! ## The decoder -/

/-- Why a control word or a stream reference is refused. The first nine are the reasons of R110. -/
inductive Reject where
  /-- reason 1 -/
  | unknownOpcode
  /-- reason 2 -/
  | badOperand
  /-- reason 3 -/
  | duplicateDestination
  /-- reason 4 -/
  | busTwice
  /-- reason 5 -/
  | missingImmediate
  /-- reason 6 -/
  | slotNotPermitted
  /-- reason 7 -/
  | oddPair
  /-- reason 8 -/
  | readOnlySpecial
  /-- reason 9 -/
  | entryNotValid
  /-- an escape other than PAD and STOP (R101) -/
  | badEscape
  /-- the bytes end inside a reference -/
  | tooShort
deriving DecidableEq, Repr

/-- The reason code of R110; 0 for the two that are no reason of an entry. -/
def Reject.code : Reject → Nat
  | .unknownOpcode => 1 | .badOperand => 2 | .duplicateDestination => 3 | .busTwice => 4
  | .missingImmediate => 5 | .slotNotPermitted => 6 | .oddPair => 7 | .readOnlySpecial => 8
  | .entryNotValid => 9 | .badEscape => 0 | .tooShort => 0

/-- A field that fails is reason 2. -/
def operands (x : Option Instr) : Except Reject Instr :=
  match x with
  | some i => .ok i
  | none => .error .badOperand

def SlotBits.guard (b : SlotBits) : Guard :=
  { inv := b.inv == 1, idx := ⟨b.gidx.toNat, b.gidx.isLt⟩ }

/-- An unused field holds 0x00 (R98). -/
def unused (b : Byte) : Option Unit := if b = 0 then some () else none

def readVec (c : SlotClass) (b : Byte) : Option Operand :=
  (Operand.ofByte? b).filter fun o => o.code.okVector c
def readSca (c : SlotClass) (b : Byte) : Option Operand :=
  (Operand.ofByte? b).filter fun o => o.code.okScalar c
def readPair (b : Byte) : Option Operand := (Operand.ofByte? b).filter fun o => o.code.okPair
def readFlag (b : Byte) : Option Operand := (Operand.ofByte? b).filter fun o => o.code.okFlag
def readVReg (b : Byte) : Option VReg := if h : b.toNat < 64 then some ⟨b.toNat, h⟩ else none
def readSReg (b : Byte) : Option SReg := if h : b.toNat < 32 then some ⟨b.toNat, h⟩ else none
/-- p1-p7 or c1-c7 in a D field (R47). -/
def readDFlag (b : Byte) : Option Flag :=
  if h : 0x61 ≤ b.toNat ∧ b.toNat < 0x68 then some ⟨b.toNat - 0x60, by omega⟩ else none
def readHandle (b : Byte) : Option Handle := if h : b.toNat < 64 then some ⟨b.toNat, h⟩ else none
def readBank (b : Byte) : Option Bank := if h : b.toNat < 16 then some ⟨b.toNat, h⟩ else none
def readLatch (b : Byte) : Option Latch :=
  if h : 0x48 ≤ b.toNat ∧ b.toNat < 0x4C then some ⟨b.toNat - 0x48, by omega⟩ else none
def readTarget (b : Byte) : Option ImmSlot :=
  if h : 0x50 ≤ b.toNat ∧ b.toNat < 0x54 then some ⟨b.toNat - 0x50, by omega⟩ else none
def readSpecial (b : Byte) : Option Special := if h : b.toNat < 32 then some ⟨b.toNat, h⟩ else none
def readInbox (b : Byte) : Option Inbox := if h : b.toNat < 4 then some ⟨b.toNat, h⟩ else none
def readBar (b : Byte) : Option Bar := if h : b.toNat < 8 then some ⟨b.toNat, h⟩ else none
def readBarOff (b : Byte) : Option BarOff :=
  if b.toNat < 16 then
    some { unbind := decide (8 ≤ b.toNat), b := ⟨b.toNat % 8, Nat.mod_lt _ (by decide)⟩ }
  else none
def readPart (b : Byte) : Option SlotPart :=
  if b.toNat < 32 then
    some { part := ⟨b.toNat / 8 % 4, Nat.mod_lt _ (by decide)⟩,
           slot := ⟨b.toNat % 8, Nat.mod_lt _ (by decide)⟩ }
  else none
def readFormat (b : Byte) : Option Format :=
  some { a := ⟨b.toNat / 32 % 8, Nat.mod_lt _ (by decide)⟩,
         b := ⟨b.toNat / 4 % 8, Nat.mod_lt _ (by decide)⟩, k := KCode.ofBits (b.toNat % 4) }
def readView (b : Byte) : Option View :=
  some { dir := Dir.ofBits (b.toNat / 64), h := ⟨b.toNat % 64, Nat.mod_lt _ (by decide)⟩ }
/-- MMA's A view is a row or a column view (R100). -/
def readMView (b : Byte) : Option View := if b.toNat < 128 then readView b else none

def modBit (m : BitVec 2) (k : Bool → Except Reject Instr) : Except Reject Instr :=
  match m.toNat with
  | 0 => k false | 1 => k true | _ => .error .unknownOpcode
def modRounding (m : BitVec 2) (k : Rounding → Except Reject Instr) : Except Reject Instr :=
  match m.toNat with
  | 0 => k .rne | 1 => k .rz | 2 => k .ru | _ => k .rd
def modFi (m : BitVec 2) (k : FiMode → Except Reject Instr) : Except Reject Instr :=
  match m.toNat with
  | 0 => k ⟨false, false⟩ | 1 => k ⟨true, false⟩ | 2 => k ⟨false, true⟩ | _ => k ⟨true, true⟩
def modRed (m : BitVec 2) (k : RedOp → Except Reject Instr) : Except Reject Instr :=
  match m.toNat with
  | 0 => k .fadd | 1 => k .fmin | 2 => k .fmax | _ => k .iadd
def modAlloc (m : BitVec 2) (k : AllocMode → Except Reject Instr) : Except Reject Instr :=
  match m.toNat with
  | 0 => k ⟨false, false⟩ | 1 => k ⟨false, true⟩ | 2 => k ⟨true, false⟩ | _ => k ⟨true, true⟩
def modWidth (m : BitVec 2) (k : Width → Except Reject Instr) : Except Reject Instr :=
  match m.toNat with
  | 0 => k .w1 | 1 => k .w2 | 2 => k .w4 | _ => k .w8
def modAtScope (m : BitVec 2) (k : AtScope → Except Reject Instr) : Except Reject Instr :=
  match m.toNat with
  | 0 => k .team | 1 => k .package | 2 => k .system | _ => .error .unknownOpcode
def modScope (m : BitVec 2) (k : Scope → Except Reject Instr) : Except Reject Instr :=
  match m.toNat with
  | 0 => k .group | 1 => k .team | 2 => k .package | _ => k .system
/-- CVTN's modifier as a number; its C field is read by `readCvt`. -/
def modCvt (m : BitVec 2) (k : Nat → Except Reject Instr) : Except Reject Instr := k m.toNat

/-- CVTN's C field: a vector register with its E bit for error feedback, 0x00 otherwise (R171). -/
def readCvt (m : Nat) (c : Byte) : Option CvtMode :=
  match m with
  | 0 => if c = 0 then some .rne else none
  | 1 => if c = 0 then some .rz else none
  | 2 => if h : c.toNat % 128 < 64 then some (.ef ⟨c.toNat % 128, h⟩ (decide (128 ≤ c.toNat))) else none
  | _ => if c = 0 then some .sat else none

/-- The S map of R112: an opcode and a modifier it does not define are reason 1, a field outside its role reason 2. -/
def decodeS (b : SlotBits) : Except Reject Instr :=
  let g := b.guard
  match b.op.toNat with
  | 0x001 => if b.mod = 0 then operands do
      let d' ← readSReg b.d
      let a' ← readSca .S b.a
      let b' ← readSca .S b.b
      unused b.c
      pure (.add g d' a' b') else .error .unknownOpcode
  | 0x002 => if b.mod = 0 then operands do
      let d' ← readSReg b.d
      let a' ← readSca .S b.a
      let b' ← readSca .S b.b
      unused b.c
      pure (.sub g d' a' b') else .error .unknownOpcode
  | 0x003 => if b.mod = 0 then operands do
      let d' ← readSReg b.d
      let a' ← readSca .S b.a
      let b' ← readSca .S b.b
      unused b.c
      pure (.mul g d' a' b') else .error .unknownOpcode
  | 0x004 => if b.mod = 0 then operands do
      let d' ← readSReg b.d
      let a' ← readSca .S b.a
      let b' ← readSca .S b.b
      unused b.c
      pure (.mulh g d' a' b') else .error .unknownOpcode
  | 0x005 => if b.mod = 0 then operands do
      let d' ← readSReg b.d
      let a' ← readSca .S b.a
      let b' ← readSca .S b.b
      unused b.c
      pure (.mulhw g d' a' b') else .error .unknownOpcode
  | 0x006 => if b.mod = 0 then operands do
      let d' ← readSReg b.d
      let a' ← readSca .S b.a
      let b' ← readSca .S b.b
      unused b.c
      pure (.div g d' a' b') else .error .unknownOpcode
  | 0x007 => if b.mod = 0 then operands do
      let d' ← readSReg b.d
      let a' ← readSca .S b.a
      let b' ← readSca .S b.b
      unused b.c
      pure (.divw g d' a' b') else .error .unknownOpcode
  | 0x008 => if b.mod = 0 then operands do
      let d' ← readSReg b.d
      let a' ← readSca .S b.a
      let b' ← readSca .S b.b
      unused b.c
      pure (.rem g d' a' b') else .error .unknownOpcode
  | 0x009 => if b.mod = 0 then operands do
      let d' ← readSReg b.d
      let a' ← readSca .S b.a
      let b' ← readSca .S b.b
      unused b.c
      pure (.remw g d' a' b') else .error .unknownOpcode
  | 0x00A => if b.mod = 0 then operands do
      let d' ← readSReg b.d
      let a' ← readSca .S b.a
      let b' ← readSca .S b.b
      unused b.c
      pure (.and g d' a' b') else .error .unknownOpcode
  | 0x00B => if b.mod = 0 then operands do
      let d' ← readSReg b.d
      let a' ← readSca .S b.a
      let b' ← readSca .S b.b
      unused b.c
      pure (.or g d' a' b') else .error .unknownOpcode
  | 0x00C => if b.mod = 0 then operands do
      let d' ← readSReg b.d
      let a' ← readSca .S b.a
      let b' ← readSca .S b.b
      unused b.c
      pure (.xor g d' a' b') else .error .unknownOpcode
  | 0x00D => if b.mod = 0 then operands do
      let d' ← readSReg b.d
      let a' ← readSca .S b.a
      let b' ← readSca .S b.b
      unused b.c
      pure (.andn g d' a' b') else .error .unknownOpcode
  | 0x00E => if b.mod = 0 then operands do
      let d' ← readSReg b.d
      let a' ← readSca .S b.a
      let b' ← readSca .S b.b
      unused b.c
      pure (.shl g d' a' b') else .error .unknownOpcode
  | 0x00F => if b.mod = 0 then operands do
      let d' ← readSReg b.d
      let a' ← readSca .S b.a
      let b' ← readSca .S b.b
      unused b.c
      pure (.shr g d' a' b') else .error .unknownOpcode
  | 0x010 => if b.mod = 0 then operands do
      let d' ← readSReg b.d
      let a' ← readSca .S b.a
      let b' ← readSca .S b.b
      unused b.c
      pure (.sar g d' a' b') else .error .unknownOpcode
  | 0x011 => if b.mod = 0 then operands do
      let d' ← readSReg b.d
      let a' ← readSca .S b.a
      let b' ← readSca .S b.b
      unused b.c
      pure (.rol g d' a' b') else .error .unknownOpcode
  | 0x012 => if b.mod = 0 then operands do
      let d' ← readSReg b.d
      let a' ← readSca .S b.a
      let b' ← readSca .S b.b
      unused b.c
      pure (.min g d' a' b') else .error .unknownOpcode
  | 0x013 => if b.mod = 0 then operands do
      let d' ← readSReg b.d
      let a' ← readSca .S b.a
      let b' ← readSca .S b.b
      unused b.c
      pure (.max g d' a' b') else .error .unknownOpcode
  | 0x014 => if b.mod = 0 then operands do
      let d' ← readSReg b.d
      let a' ← readSca .S b.a
      let b' ← readSca .S b.b
      unused b.c
      pure (.minw g d' a' b') else .error .unknownOpcode
  | 0x015 => if b.mod = 0 then operands do
      let d' ← readSReg b.d
      let a' ← readSca .S b.a
      let b' ← readSca .S b.b
      unused b.c
      pure (.maxw g d' a' b') else .error .unknownOpcode
  | 0x016 => if b.mod = 0 then operands do
      let d' ← readSReg b.d
      let a' ← readSca .S b.a
      unused b.b
      unused b.c
      pure (.clz g d' a') else .error .unknownOpcode
  | 0x017 => if b.mod = 0 then operands do
      let d' ← readSReg b.d
      let a' ← readSca .S b.a
      unused b.b
      unused b.c
      pure (.cnt g d' a') else .error .unknownOpcode
  | 0x019 => if b.mod = 0 then operands do
      let d' ← readSReg b.d
      let a' ← readSca .S b.a
      unused b.b
      unused b.c
      pure (.mov g d' a') else .error .unknownOpcode
  | 0x018 => if b.mod = 0 then operands do
      let d' ← readSReg b.d
      let a' ← readSca .S b.a
      let b' ← readSca .S b.b
      let c' ← readFlag b.c
      pure (.sel g d' a' b' c') else .error .unknownOpcode
  | 0x01A => if b.mod = 0 then operands do
      let d' ← readSReg b.d
      let a' ← readTarget b.a
      unused b.b
      unused b.c
      pure (.li g d' a') else .error .unknownOpcode
  | 0x01B => if b.mod = 0 then operands do
      let d' ← readSReg b.d
      let a' ← readSca .S b.a
      let b' ← readTarget b.b
      unused b.c
      pure (.lih g d' a' b') else .error .unknownOpcode
  | 0x020 => if b.mod = 0 then operands do
      let d' ← readDFlag b.d
      let a' ← readSca .S b.a
      let b' ← readSca .S b.b
      unused b.c
      pure (.ceq g d' a' b') else .error .unknownOpcode
  | 0x021 => if b.mod = 0 then operands do
      let d' ← readDFlag b.d
      let a' ← readSca .S b.a
      let b' ← readSca .S b.b
      unused b.c
      pure (.cne g d' a' b') else .error .unknownOpcode
  | 0x022 => if b.mod = 0 then operands do
      let d' ← readDFlag b.d
      let a' ← readSca .S b.a
      let b' ← readSca .S b.b
      unused b.c
      pure (.clt g d' a' b') else .error .unknownOpcode
  | 0x023 => if b.mod = 0 then operands do
      let d' ← readDFlag b.d
      let a' ← readSca .S b.a
      let b' ← readSca .S b.b
      unused b.c
      pure (.cle g d' a' b') else .error .unknownOpcode
  | 0x024 => if b.mod = 0 then operands do
      let d' ← readDFlag b.d
      let a' ← readSca .S b.a
      let b' ← readSca .S b.b
      unused b.c
      pure (.cltw g d' a' b') else .error .unknownOpcode
  | 0x025 => if b.mod = 0 then operands do
      let d' ← readDFlag b.d
      let a' ← readSca .S b.a
      let b' ← readSca .S b.b
      unused b.c
      pure (.clew g d' a' b') else .error .unknownOpcode
  | 0x026 => if b.mod = 0 then operands do
      let d' ← readDFlag b.d
      let a' ← readFlag b.a
      let b' ← readFlag b.b
      unused b.c
      pure (.cand g d' a' b') else .error .unknownOpcode
  | 0x027 => if b.mod = 0 then operands do
      let d' ← readDFlag b.d
      let a' ← readFlag b.a
      let b' ← readFlag b.b
      unused b.c
      pure (.cor g d' a' b') else .error .unknownOpcode
  | 0x028 => if b.mod = 0 then operands do
      let d' ← readDFlag b.d
      let a' ← readFlag b.a
      let b' ← readFlag b.b
      unused b.c
      pure (.cxor g d' a' b') else .error .unknownOpcode
  | 0x029 => if b.mod = 0 then operands do
      let d' ← readDFlag b.d
      let a' ← readFlag b.a
      unused b.b
      unused b.c
      pure (.cany g d' a') else .error .unknownOpcode
  | 0x02A => if b.mod = 0 then operands do
      let d' ← readDFlag b.d
      let a' ← readFlag b.a
      unused b.b
      unused b.c
      pure (.cevery g d' a') else .error .unknownOpcode
  | 0x040 => if b.mod = 0 then operands do
      let a' ← readTarget b.a
      unused b.d
      unused b.b
      unused b.c
      pure (.br g a') else .error .unknownOpcode
  | 0x041 => modBit b.mod fun mod => operands do
      let a' ← readFlag b.a
      let b' ← readTarget b.b
      unused b.d
      unused b.c
      pure (.brc g mod a' b')
  | 0x042 => if b.mod = 0 then operands do
      let a' ← readFlag b.a
      let b' ← readTarget b.b
      let c' ← readTarget b.c
      unused b.d
      pure (.brd g a' b' c') else .error .unknownOpcode
  | 0x043 => if b.mod = 0 then operands do
      unused b.d
      unused b.a
      unused b.b
      unused b.c
      pure (.join g) else .error .unknownOpcode
  | 0x044 => if b.mod = 0 then operands do
      let a' ← readTarget b.a
      unused b.d
      unused b.b
      unused b.c
      pure (.call g a') else .error .unknownOpcode
  | 0x045 => if b.mod = 0 then operands do
      unused b.d
      unused b.a
      unused b.b
      unused b.c
      pure (.ret g) else .error .unknownOpcode
  | 0x046 => if b.mod = 0 then operands do
      let d' ← readSReg b.d
      let a' ← readSca .S b.a
      let b' ← readTarget b.b
      unused b.c
      pure (.loop g d' a' b') else .error .unknownOpcode
  | 0x047 => if b.mod = 0 then operands do
      let a' ← readSca .S b.a
      unused b.d
      unused b.b
      unused b.c
      pure (.brx g a') else .error .unknownOpcode
  | 0x048 => if b.mod = 0 then operands do
      unused b.d
      unused b.a
      unused b.b
      unused b.c
      pure (.exit g) else .error .unknownOpcode
  | 0x049 => if b.mod = 0 then operands do
      unused b.d
      unused b.a
      unused b.b
      unused b.c
      pure (.freeze g) else .error .unknownOpcode
  | 0x04A => if b.mod = 0 then operands do
      unused b.d
      unused b.a
      unused b.b
      unused b.c
      pure (.yield g) else .error .unknownOpcode
  | 0x04B => if b.mod = 0 then operands do
      let a' ← readSca .S b.a
      unused b.d
      unused b.b
      unused b.c
      pure (.sleep g a') else .error .unknownOpcode
  | 0x04C => if b.mod = 0 then operands do
      let a' ← readTarget b.a
      unused b.d
      unused b.b
      unused b.c
      pure (.trap g a') else .error .unknownOpcode
  | 0x04D => if b.mod = 0 then operands do
      let d' ← readSReg b.d
      let a' ← readSpecial b.a
      unused b.b
      unused b.c
      pure (.rdsr g d' a') else .error .unknownOpcode
  | 0x04E => if b.mod = 0 then operands do
      let d' ← readSpecial b.d
      let a' ← readSca .S b.a
      unused b.b
      unused b.c
      pure (.wrsr g d' a') else .error .unknownOpcode
  | _ => .error .unknownOpcode

/-- The V map of R112: an opcode and a modifier it does not define are reason 1, a field outside its role reason 2. -/
def decodeV (b : SlotBits) : Except Reject Instr :=
  let g := b.guard
  match b.op.toNat with
  | 0x001 => if b.mod = 0 then operands do
      let d' ← readVReg b.d
      let a' ← readVec .V b.a
      let b' ← readVec .V b.b
      unused b.c
      pure (.vadd g d' a' b') else .error .unknownOpcode
  | 0x002 => if b.mod = 0 then operands do
      let d' ← readVReg b.d
      let a' ← readVec .V b.a
      let b' ← readVec .V b.b
      unused b.c
      pure (.vsub g d' a' b') else .error .unknownOpcode
  | 0x003 => if b.mod = 0 then operands do
      let d' ← readVReg b.d
      let a' ← readVec .V b.a
      let b' ← readVec .V b.b
      unused b.c
      pure (.vmul g d' a' b') else .error .unknownOpcode
  | 0x004 => if b.mod = 0 then operands do
      let d' ← readVReg b.d
      let a' ← readVec .V b.a
      let b' ← readVec .V b.b
      unused b.c
      pure (.vmulh g d' a' b') else .error .unknownOpcode
  | 0x006 => if b.mod = 0 then operands do
      let d' ← readVReg b.d
      let a' ← readVec .V b.a
      let b' ← readVec .V b.b
      unused b.c
      pure (.vand g d' a' b') else .error .unknownOpcode
  | 0x007 => if b.mod = 0 then operands do
      let d' ← readVReg b.d
      let a' ← readVec .V b.a
      let b' ← readVec .V b.b
      unused b.c
      pure (.vor g d' a' b') else .error .unknownOpcode
  | 0x008 => if b.mod = 0 then operands do
      let d' ← readVReg b.d
      let a' ← readVec .V b.a
      let b' ← readVec .V b.b
      unused b.c
      pure (.vxor g d' a' b') else .error .unknownOpcode
  | 0x009 => if b.mod = 0 then operands do
      let d' ← readVReg b.d
      let a' ← readVec .V b.a
      let b' ← readVec .V b.b
      unused b.c
      pure (.vshl g d' a' b') else .error .unknownOpcode
  | 0x00A => if b.mod = 0 then operands do
      let d' ← readVReg b.d
      let a' ← readVec .V b.a
      let b' ← readVec .V b.b
      unused b.c
      pure (.vshr g d' a' b') else .error .unknownOpcode
  | 0x00B => if b.mod = 0 then operands do
      let d' ← readVReg b.d
      let a' ← readVec .V b.a
      let b' ← readVec .V b.b
      unused b.c
      pure (.vsar g d' a' b') else .error .unknownOpcode
  | 0x00C => if b.mod = 0 then operands do
      let d' ← readVReg b.d
      let a' ← readVec .V b.a
      let b' ← readVec .V b.b
      unused b.c
      pure (.vmin g d' a' b') else .error .unknownOpcode
  | 0x00D => if b.mod = 0 then operands do
      let d' ← readVReg b.d
      let a' ← readVec .V b.a
      let b' ← readVec .V b.b
      unused b.c
      pure (.vmax g d' a' b') else .error .unknownOpcode
  | 0x00E => if b.mod = 0 then operands do
      let d' ← readVReg b.d
      let a' ← readVec .V b.a
      let b' ← readVec .V b.b
      unused b.c
      pure (.vminw g d' a' b') else .error .unknownOpcode
  | 0x00F => if b.mod = 0 then operands do
      let d' ← readVReg b.d
      let a' ← readVec .V b.a
      let b' ← readVec .V b.b
      unused b.c
      pure (.vmaxw g d' a' b') else .error .unknownOpcode
  | 0x040 => if b.mod = 0 then operands do
      let d' ← readVReg b.d
      let a' ← readVec .V b.a
      let b' ← readVec .V b.b
      unused b.c
      pure (.fadd g d' a' b') else .error .unknownOpcode
  | 0x041 => if b.mod = 0 then operands do
      let d' ← readVReg b.d
      let a' ← readVec .V b.a
      let b' ← readVec .V b.b
      unused b.c
      pure (.fsub g d' a' b') else .error .unknownOpcode
  | 0x042 => if b.mod = 0 then operands do
      let d' ← readVReg b.d
      let a' ← readVec .V b.a
      let b' ← readVec .V b.b
      unused b.c
      pure (.fmul g d' a' b') else .error .unknownOpcode
  | 0x046 => if b.mod = 0 then operands do
      let d' ← readVReg b.d
      let a' ← readVec .V b.a
      let b' ← readVec .V b.b
      unused b.c
      pure (.fmin g d' a' b') else .error .unknownOpcode
  | 0x047 => if b.mod = 0 then operands do
      let d' ← readVReg b.d
      let a' ← readVec .V b.a
      let b' ← readVec .V b.b
      unused b.c
      pure (.fmax g d' a' b') else .error .unknownOpcode
  | 0x005 => if b.mod = 0 then operands do
      let d' ← readVReg b.d
      let a' ← readVec .V b.a
      let b' ← readVec .V b.b
      let c' ← readVec .V b.c
      pure (.vmad g d' a' b' c') else .error .unknownOpcode
  | 0x043 => if b.mod = 0 then operands do
      let d' ← readVReg b.d
      let a' ← readVec .V b.a
      let b' ← readVec .V b.b
      let c' ← readVec .V b.c
      pure (.ffma g d' a' b' c') else .error .unknownOpcode
  | 0x044 => if b.mod = 0 then operands do
      let d' ← readVReg b.d
      let a' ← readVec .V b.a
      let b' ← readVec .V b.b
      let c' ← readVec .V b.c
      pure (.ffms g d' a' b' c') else .error .unknownOpcode
  | 0x045 => if b.mod = 0 then operands do
      let d' ← readVReg b.d
      let a' ← readVec .V b.a
      let b' ← readVec .V b.b
      let c' ← readVec .V b.c
      pure (.fnma g d' a' b' c') else .error .unknownOpcode
  | 0x010 => if b.mod = 0 then operands do
      let d' ← readVReg b.d
      let a' ← readVec .V b.a
      unused b.b
      unused b.c
      pure (.vabs g d' a') else .error .unknownOpcode
  | 0x011 => if b.mod = 0 then operands do
      let d' ← readVReg b.d
      let a' ← readVec .V b.a
      unused b.b
      unused b.c
      pure (.vclz g d' a') else .error .unknownOpcode
  | 0x012 => if b.mod = 0 then operands do
      let d' ← readVReg b.d
      let a' ← readVec .V b.a
      unused b.b
      unused b.c
      pure (.vcnt g d' a') else .error .unknownOpcode
  | 0x014 => if b.mod = 0 then operands do
      let d' ← readVReg b.d
      let a' ← readVec .V b.a
      unused b.b
      unused b.c
      pure (.vmov g d' a') else .error .unknownOpcode
  | 0x048 => if b.mod = 0 then operands do
      let d' ← readVReg b.d
      let a' ← readVec .V b.a
      unused b.b
      unused b.c
      pure (.fabs g d' a') else .error .unknownOpcode
  | 0x049 => if b.mod = 0 then operands do
      let d' ← readVReg b.d
      let a' ← readVec .V b.a
      unused b.b
      unused b.c
      pure (.fneg g d' a') else .error .unknownOpcode
  | 0x04A => if b.mod = 0 then operands do
      let d' ← readVReg b.d
      let a' ← readVec .V b.a
      unused b.b
      unused b.c
      pure (.frcp g d' a') else .error .unknownOpcode
  | 0x04B => if b.mod = 0 then operands do
      let d' ← readVReg b.d
      let a' ← readVec .V b.a
      unused b.b
      unused b.c
      pure (.frsq g d' a') else .error .unknownOpcode
  | 0x04C => if b.mod = 0 then operands do
      let d' ← readVReg b.d
      let a' ← readVec .V b.a
      unused b.b
      unused b.c
      pure (.fsqrt g d' a') else .error .unknownOpcode
  | 0x04D => if b.mod = 0 then operands do
      let d' ← readVReg b.d
      let a' ← readVec .V b.a
      unused b.b
      unused b.c
      pure (.fexp2 g d' a') else .error .unknownOpcode
  | 0x04E => if b.mod = 0 then operands do
      let d' ← readVReg b.d
      let a' ← readVec .V b.a
      unused b.b
      unused b.c
      pure (.flog2 g d' a') else .error .unknownOpcode
  | 0x013 => if b.mod = 0 then operands do
      let d' ← readVReg b.d
      let a' ← readVec .V b.a
      let b' ← readVec .V b.b
      let c' ← readFlag b.c
      pure (.vsel g d' a' b' c') else .error .unknownOpcode
  | 0x015 => if b.mod = 0 then operands do
      let d' ← readVReg b.d
      let a' ← readTarget b.a
      unused b.b
      unused b.c
      pure (.vli g d' a') else .error .unknownOpcode
  | 0x020 => if b.mod = 0 then operands do
      let d' ← readDFlag b.d
      let a' ← readVec .V b.a
      let b' ← readVec .V b.b
      unused b.c
      pure (.vceq g d' a' b') else .error .unknownOpcode
  | 0x021 => if b.mod = 0 then operands do
      let d' ← readDFlag b.d
      let a' ← readVec .V b.a
      let b' ← readVec .V b.b
      unused b.c
      pure (.vcne g d' a' b') else .error .unknownOpcode
  | 0x022 => if b.mod = 0 then operands do
      let d' ← readDFlag b.d
      let a' ← readVec .V b.a
      let b' ← readVec .V b.b
      unused b.c
      pure (.vclt g d' a' b') else .error .unknownOpcode
  | 0x023 => if b.mod = 0 then operands do
      let d' ← readDFlag b.d
      let a' ← readVec .V b.a
      let b' ← readVec .V b.b
      unused b.c
      pure (.vcle g d' a' b') else .error .unknownOpcode
  | 0x024 => if b.mod = 0 then operands do
      let d' ← readDFlag b.d
      let a' ← readVec .V b.a
      let b' ← readVec .V b.b
      unused b.c
      pure (.vcltw g d' a' b') else .error .unknownOpcode
  | 0x025 => if b.mod = 0 then operands do
      let d' ← readDFlag b.d
      let a' ← readVec .V b.a
      let b' ← readVec .V b.b
      unused b.c
      pure (.vclew g d' a' b') else .error .unknownOpcode
  | 0x026 => if b.mod = 0 then operands do
      let d' ← readDFlag b.d
      let a' ← readVec .V b.a
      let b' ← readVec .V b.b
      unused b.c
      pure (.fceq g d' a' b') else .error .unknownOpcode
  | 0x027 => if b.mod = 0 then operands do
      let d' ← readDFlag b.d
      let a' ← readVec .V b.a
      let b' ← readVec .V b.b
      unused b.c
      pure (.fclt g d' a' b') else .error .unknownOpcode
  | 0x028 => if b.mod = 0 then operands do
      let d' ← readDFlag b.d
      let a' ← readVec .V b.a
      let b' ← readVec .V b.b
      unused b.c
      pure (.fcle g d' a' b') else .error .unknownOpcode
  | 0x029 => if b.mod = 0 then operands do
      let d' ← readDFlag b.d
      let a' ← readVec .V b.a
      let b' ← readVec .V b.b
      unused b.c
      pure (.fcun g d' a' b') else .error .unknownOpcode
  | 0x02A => if b.mod = 0 then operands do
      let d' ← readDFlag b.d
      let a' ← readPair b.a
      let b' ← readPair b.b
      unused b.c
      pure (.dceq g d' a' b') else .error .unknownOpcode
  | 0x02B => if b.mod = 0 then operands do
      let d' ← readDFlag b.d
      let a' ← readPair b.a
      let b' ← readPair b.b
      unused b.c
      pure (.dclt g d' a' b') else .error .unknownOpcode
  | 0x02C => if b.mod = 0 then operands do
      let d' ← readDFlag b.d
      let a' ← readPair b.a
      let b' ← readPair b.b
      unused b.c
      pure (.dcle g d' a' b') else .error .unknownOpcode
  | 0x030 => if b.mod = 0 then operands do
      let d' ← readDFlag b.d
      let a' ← readFlag b.a
      let b' ← readFlag b.b
      unused b.c
      pure (.pand g d' a' b') else .error .unknownOpcode
  | 0x031 => if b.mod = 0 then operands do
      let d' ← readDFlag b.d
      let a' ← readFlag b.a
      let b' ← readFlag b.b
      unused b.c
      pure (.por g d' a' b') else .error .unknownOpcode
  | 0x032 => if b.mod = 0 then operands do
      let d' ← readDFlag b.d
      let a' ← readFlag b.a
      let b' ← readFlag b.b
      unused b.c
      pure (.pxor g d' a' b') else .error .unknownOpcode
  | 0x033 => if b.mod = 0 then operands do
      let d' ← readDFlag b.d
      let a' ← readFlag b.a
      let b' ← readFlag b.b
      unused b.c
      pure (.pandn g d' a' b') else .error .unknownOpcode
  | 0x034 => if b.mod = 0 then operands do
      let d' ← readDFlag b.d
      let a' ← readFlag b.a
      unused b.b
      unused b.c
      pure (.pmov g d' a') else .error .unknownOpcode
  | 0x04F => modRounding b.mod fun mod => operands do
      let d' ← readVReg b.d
      let a' ← readVec .V b.a
      unused b.b
      unused b.c
      pure (.frnd g mod d' a')
  | 0x060 => if b.mod = 0 then operands do
      let d' ← readVReg b.d
      let a' ← readPair b.a
      let b' ← readPair b.b
      unused b.c
      pure (.dadd g d' a' b') else .error .unknownOpcode
  | 0x061 => if b.mod = 0 then operands do
      let d' ← readVReg b.d
      let a' ← readPair b.a
      let b' ← readPair b.b
      unused b.c
      pure (.dsub g d' a' b') else .error .unknownOpcode
  | 0x062 => if b.mod = 0 then operands do
      let d' ← readVReg b.d
      let a' ← readPair b.a
      let b' ← readPair b.b
      unused b.c
      pure (.dmul g d' a' b') else .error .unknownOpcode
  | 0x063 => if b.mod = 0 then operands do
      let d' ← readVReg b.d
      let a' ← readPair b.a
      let b' ← readPair b.b
      let c' ← readPair b.c
      pure (.dfma g d' a' b' c') else .error .unknownOpcode
  | 0x064 => if b.mod = 0 then operands do
      let d' ← readVReg b.d
      let a' ← readPair b.a
      unused b.b
      unused b.c
      pure (.drcp g d' a') else .error .unknownOpcode
  | 0x065 => if b.mod = 0 then operands do
      let d' ← readVReg b.d
      let a' ← readPair b.a
      unused b.b
      unused b.c
      pure (.drsq g d' a') else .error .unknownOpcode
  | 0x066 => if b.mod = 0 then operands do
      let d' ← readVReg b.d
      let a' ← readPair b.a
      unused b.b
      unused b.c
      pure (.dsqrt g d' a') else .error .unknownOpcode
  | 0x070 => modBit b.mod fun mod => operands do
      let d' ← readVReg b.d
      let a' ← readVec .V b.a
      let b' ← readVec .V b.b
      unused b.c
      pure (.hadd2 g mod d' a' b')
  | 0x071 => modBit b.mod fun mod => operands do
      let d' ← readVReg b.d
      let a' ← readVec .V b.a
      let b' ← readVec .V b.b
      unused b.c
      pure (.hmul2 g mod d' a' b')
  | 0x072 => modBit b.mod fun mod => operands do
      let d' ← readVReg b.d
      let a' ← readVec .V b.a
      let b' ← readVec .V b.b
      let c' ← readVec .V b.c
      pure (.hfma2 g mod d' a' b' c')
  | 0x080 => modBit b.mod fun mod => operands do
      let d' ← readVReg b.d
      let a' ← readVec .V b.a
      unused b.b
      unused b.c
      pure (.cvtif g mod d' a')
  | 0x081 => modFi b.mod fun mod => operands do
      let d' ← readVReg b.d
      let a' ← readVec .V b.a
      unused b.b
      unused b.c
      pure (.cvtfi g mod d' a')
  | 0x082 => if b.mod = 0 then operands do
      let d' ← readVReg b.d
      let a' ← readVec .V b.a
      unused b.b
      unused b.c
      pure (.cvtfd g d' a') else .error .unknownOpcode
  | 0x083 => if b.mod = 0 then operands do
      let d' ← readVReg b.d
      let a' ← readPair b.a
      unused b.b
      unused b.c
      pure (.cvtdf g d' a') else .error .unknownOpcode
  | 0x084 => modCvt b.mod fun mode => operands do
      let d' ← readVReg b.d
      let a' ← readVec .V b.a
      let b' ← readPart b.b
      let mode' ← readCvt mode b.c
      pure (.cvtn g d' a' b' mode')
  | 0x085 => if b.mod = 0 then operands do
      let d' ← readVReg b.d
      let a' ← readVec .V b.a
      let b' ← readPart b.b
      unused b.c
      pure (.cvtw g d' a' b') else .error .unknownOpcode
  | 0x090 => if b.mod = 0 then operands do
      let d' ← readVReg b.d
      let a' ← readVec .V b.a
      let b' ← readVec .V b.b
      let c' ← readVec .V b.c
      pure (.vshf g d' a' b' c') else .error .unknownOpcode
  | 0x091 => if b.mod = 0 then operands do
      let d' ← readVReg b.d
      let a' ← readVec .V b.a
      let b' ← readVec .V b.b
      unused b.c
      pure (.vbcast g d' a' b') else .error .unknownOpcode
  | 0x092 => if b.mod = 0 then operands do
      let d' ← readVReg b.d
      let a' ← readVec .V b.a
      let b' ← readVec .V b.b
      unused b.c
      pure (.vrot g d' a' b') else .error .unknownOpcode
  | 0x093 => modRed b.mod fun mod => operands do
      let d' ← readVReg b.d
      let a' ← readVec .V b.a
      unused b.b
      unused b.c
      pure (.vred g mod d' a')
  | 0x094 => if b.mod = 0 then operands do
      let d' ← readVReg b.d
      let a' ← readVec .V b.a
      unused b.b
      unused b.c
      pure (.vscan g d' a') else .error .unknownOpcode
  | 0x095 => if b.mod = 0 then operands do
      let d' ← readVReg b.d
      let a' ← readVec .V b.a
      unused b.b
      unused b.c
      pure (.vrdx g d' a') else .error .unknownOpcode
  | 0x096 => if b.mod = 0 then operands do
      let a' ← readVec .V b.a
      let b' ← readVec .V b.b
      unused b.d
      unused b.c
      pure (.vwrx g a' b') else .error .unknownOpcode
  | _ => .error .unknownOpcode

/-- The M map of R112: an opcode and a modifier it does not define are reason 1, a field outside its role reason 2. -/
def decodeM (b : SlotBits) : Except Reject Instr :=
  let g := b.guard
  match b.op.toNat with
  | 0x001 => if b.mod = 0 then operands do
      let d' ← readBank b.d
      let a' ← readMView b.a
      let b' ← readHandle b.b
      let c' ← readFormat b.c
      pure (.mma g d' a' b' c') else .error .unknownOpcode
  | 0x002 => if b.mod = 0 then operands do
      let d' ← readBank b.d
      let a' ← readMView b.a
      let b' ← readHandle b.b
      let c' ← readFormat b.c
      pure (.mmaz g d' a' b' c') else .error .unknownOpcode
  | 0x003 => modBit b.mod fun mod => operands do
      let d' ← readHandle b.d
      let a' ← readBank b.a
      unused b.b
      unused b.c
      pure (.mdrain g mod d' a')
  | 0x004 => if b.mod = 0 then operands do
      let d' ← readBank b.d
      let a' ← readHandle b.a
      unused b.b
      unused b.c
      pure (.mfill g d' a') else .error .unknownOpcode
  | 0x005 => if b.mod = 0 then operands do
      let d' ← readBank b.d
      unused b.a
      unused b.b
      unused b.c
      pure (.mzero g d') else .error .unknownOpcode
  | 0x010 => modAlloc b.mod fun mod => operands do
      let d' ← readHandle b.d
      unused b.a
      unused b.b
      unused b.c
      pure (.halloc g mod d')
  | 0x011 => if b.mod = 0 then operands do
      let a' ← readHandle b.a
      unused b.d
      unused b.b
      unused b.c
      pure (.hfree g a') else .error .unknownOpcode
  | 0x012 => if b.mod = 0 then operands do
      let a' ← readHandle b.a
      let b' ← readSca .M b.b
      let c' ← readInbox b.c
      unused b.d
      pure (.hgive g a' b' c') else .error .unknownOpcode
  | 0x013 => if b.mod = 0 then operands do
      let d' ← readHandle b.d
      let c' ← readInbox b.c
      unused b.a
      unused b.b
      pure (.htake g d' c') else .error .unknownOpcode
  | 0x014 => if b.mod = 0 then operands do
      let a' ← readHandle b.a
      let b' ← readSca .M b.b
      let c' ← readInbox b.c
      unused b.d
      pure (.hshare g a' b' c') else .error .unknownOpcode
  | 0x015 => if b.mod = 0 then operands do
      let d' ← readHandle b.d
      let a' ← readHandle b.a
      unused b.b
      unused b.c
      pure (.hdup g d' a') else .error .unknownOpcode
  | 0x016 => if b.mod = 0 then operands do
      let a' ← readHandle b.a
      unused b.d
      unused b.b
      unused b.c
      pure (.hpub g a') else .error .unknownOpcode
  | 0x017 => if b.mod = 0 then operands do
      let d' ← readSReg b.d
      let a' ← readHandle b.a
      unused b.b
      unused b.c
      pure (.hinfo g d' a') else .error .unknownOpcode
  | 0x018 => if b.mod = 0 then operands do
      let a' ← readHandle b.a
      unused b.d
      unused b.b
      unused b.c
      pure (.hwait g a') else .error .unknownOpcode
  | _ => .error .unknownOpcode

/-- The C map of R112: an opcode and a modifier it does not define are reason 1, a field outside its role reason 2. -/
def decodeC (b : SlotBits) : Except Reject Instr :=
  let g := b.guard
  match b.op.toNat with
  | 0x001 => modWidth b.mod fun mod => operands do
      let d' ← readSReg b.d
      let a' ← readSca .C b.a
      let b' ← readSca .C b.b
      unused b.c
      pure (.lds g mod d' a' b')
  | 0x002 => modWidth b.mod fun mod => operands do
      let d' ← readSReg b.d
      let a' ← readSca .C b.a
      let b' ← readSca .C b.b
      unused b.c
      pure (.ldsw g mod d' a' b')
  | 0x003 => modWidth b.mod fun mod => operands do
      let a' ← readSca .C b.a
      let b' ← readSca .C b.b
      let c' ← readSca .C b.c
      unused b.d
      pure (.sts g mod a' b' c')
  | 0x004 => modWidth b.mod fun mod => operands do
      let d' ← readVReg b.d
      let a' ← readSca .C b.a
      let b' ← readVec .C b.b
      unused b.c
      pure (.ldv g mod d' a' b')
  | 0x005 => modWidth b.mod fun mod => operands do
      let d' ← readVReg b.d
      let a' ← readSca .C b.a
      let b' ← readVec .C b.b
      unused b.c
      pure (.ldvw g mod d' a' b')
  | 0x006 => modWidth b.mod fun mod => operands do
      let a' ← readSca .C b.a
      let b' ← readVec .C b.b
      let c' ← readVec .C b.c
      unused b.d
      pure (.stv g mod a' b' c')
  | 0x007 => if b.mod = 2 then operands do
      let d' ← readVReg b.d
      let a' ← readSca .C b.a
      unused b.b
      unused b.c
      pure (.ldvb g d' a') else .error .unknownOpcode
  | 0x008 => if b.mod = 2 then operands do
      let a' ← readSca .C b.a
      let c' ← readVec .C b.c
      unused b.d
      unused b.b
      pure (.stvb g a' c') else .error .unknownOpcode
  | 0x009 => modWidth b.mod fun mod => operands do
      let d' ← readVReg b.d
      let b' ← readVec .C b.b
      unused b.a
      unused b.c
      pure (.ldl g mod d' b')
  | 0x00A => modWidth b.mod fun mod => operands do
      let b' ← readVec .C b.b
      let c' ← readVec .C b.c
      unused b.d
      unused b.a
      pure (.stl g mod b' c')
  | 0x010 => modAtScope b.mod fun mod => operands do
      let d' ← readVReg b.d
      let a' ← readSca .C b.a
      let b' ← readVec .C b.b
      let c' ← readVec .C b.c
      pure (.atadd g mod d' a' b' c')
  | 0x011 => modAtScope b.mod fun mod => operands do
      let d' ← readVReg b.d
      let a' ← readSca .C b.a
      let b' ← readVec .C b.b
      let c' ← readVec .C b.c
      pure (.atmin g mod d' a' b' c')
  | 0x012 => modAtScope b.mod fun mod => operands do
      let d' ← readVReg b.d
      let a' ← readSca .C b.a
      let b' ← readVec .C b.b
      let c' ← readVec .C b.c
      pure (.atmax g mod d' a' b' c')
  | 0x013 => modAtScope b.mod fun mod => operands do
      let d' ← readVReg b.d
      let a' ← readSca .C b.a
      let b' ← readVec .C b.b
      let c' ← readVec .C b.c
      pure (.atminw g mod d' a' b' c')
  | 0x014 => modAtScope b.mod fun mod => operands do
      let d' ← readVReg b.d
      let a' ← readSca .C b.a
      let b' ← readVec .C b.b
      let c' ← readVec .C b.c
      pure (.atmaxw g mod d' a' b' c')
  | 0x015 => modAtScope b.mod fun mod => operands do
      let d' ← readVReg b.d
      let a' ← readSca .C b.a
      let b' ← readVec .C b.b
      let c' ← readVec .C b.c
      pure (.atand g mod d' a' b' c')
  | 0x016 => modAtScope b.mod fun mod => operands do
      let d' ← readVReg b.d
      let a' ← readSca .C b.a
      let b' ← readVec .C b.b
      let c' ← readVec .C b.c
      pure (.ator g mod d' a' b' c')
  | 0x017 => modAtScope b.mod fun mod => operands do
      let d' ← readVReg b.d
      let a' ← readSca .C b.a
      let b' ← readVec .C b.b
      let c' ← readVec .C b.c
      pure (.atxor g mod d' a' b' c')
  | 0x018 => modAtScope b.mod fun mod => operands do
      let d' ← readVReg b.d
      let a' ← readSca .C b.a
      let b' ← readVec .C b.b
      let c' ← readVec .C b.c
      pure (.atxch g mod d' a' b' c')
  | 0x019 => modAtScope b.mod fun mod => operands do
      let d' ← readVReg b.d
      let a' ← readSca .C b.a
      let b' ← readVec .C b.b
      let c' ← readVec .C b.c
      pure (.atcas g mod d' a' b' c')
  | 0x01A => modAtScope b.mod fun mod => operands do
      let d' ← readVReg b.d
      let a' ← readSca .C b.a
      let b' ← readVec .C b.b
      let c' ← readVec .C b.c
      pure (.atfadd g mod d' a' b' c')
  | 0x020 => modScope b.mod fun mod => operands do
      unused b.d
      unused b.a
      unused b.b
      unused b.c
      pure (.facq g mod)
  | 0x021 => modScope b.mod fun mod => operands do
      unused b.d
      unused b.a
      unused b.b
      unused b.c
      pure (.frel g mod)
  | 0x022 => modScope b.mod fun mod => operands do
      unused b.d
      unused b.a
      unused b.b
      unused b.c
      pure (.far g mod)
  | 0x028 => if b.mod = 0 then operands do
      let d' ← readVReg b.d
      let a' ← readView b.a
      let b' ← readSca .C b.b
      unused b.c
      pure (.tld g d' a' b') else .error .unknownOpcode
  | 0x029 => if b.mod = 0 then operands do
      let a' ← readView b.a
      let b' ← readSca .C b.b
      let c' ← readVec .C b.c
      unused b.d
      pure (.tst g a' b' c') else .error .unknownOpcode
  | 0x030 => if b.mod = 0 then operands do
      let d' ← readVReg b.d
      let a' ← readSca .C b.a
      unused b.b
      unused b.c
      pure (.xsv g d' a') else .error .unknownOpcode
  | 0x031 => modBit b.mod fun mod => operands do
      let d' ← readSReg b.d
      let a' ← readVec .C b.a
      let b' ← readSca .C b.b
      unused b.c
      pure (.xvs g mod d' a' b')
  | 0x040 => modBit b.mod fun mod => operands do
      let d' ← readHandle b.d
      let a' ← readSca .C b.a
      let b' ← readSca .C b.b
      let c' ← readSca .C b.c
      pure (.cpy g mod d' a' b' c')
  | 0x041 => modBit b.mod fun mod => operands do
      let d' ← readHandle b.d
      let a' ← readSca .C b.a
      let b' ← readSca .C b.b
      let c' ← readSca .C b.c
      pure (.cpyb g mod d' a' b' c')
  | 0x042 => modBit b.mod fun mod => operands do
      let d' ← readHandle b.d
      let a' ← readSca .C b.a
      let b' ← readSca .C b.b
      let c' ← readSca .C b.c
      pure (.cpym g mod d' a' b' c')
  | 0x043 => if b.mod = 0 then operands do
      let d' ← readSReg b.d
      let a' ← readHandle b.a
      let b' ← readSca .C b.b
      let c' ← readSca .C b.c
      pure (.cpyo g d' a' b' c') else .error .unknownOpcode
  | 0x044 => if b.mod = 0 then operands do
      let d' ← readSReg b.d
      let a' ← readSca .C b.a
      let b' ← readSca .C b.b
      unused b.c
      pure (.cpyg g d' a' b') else .error .unknownOpcode
  | 0x045 => if b.mod = 0 then operands do
      let d' ← readHandle b.d
      let a' ← readHandle b.a
      let b' ← readSca .C b.b
      let c' ← readSca .C b.c
      pure (.cpyl g d' a' b' c') else .error .unknownOpcode
  | 0x046 => if b.mod = 0 then operands do
      unused b.d
      unused b.a
      unused b.b
      unused b.c
      pure (.cchain g) else .error .unknownOpcode
  | 0x047 => if b.mod = 0 then operands do
      let d' ← readSReg b.d
      unused b.a
      unused b.b
      unused b.c
      pure (.cseal g d') else .error .unknownOpcode
  | 0x048 => if b.mod = 0 then operands do
      let a' ← readTarget b.a
      unused b.d
      unused b.b
      unused b.c
      pure (.cwait g a') else .error .unknownOpcode
  | 0x049 => if b.mod = 0 then operands do
      let a' ← readBarOff b.a
      unused b.d
      unused b.b
      unused b.c
      pure (.cbind g a') else .error .unknownOpcode
  | 0x050 => if b.mod = 0 then operands do
      let a' ← readBar b.a
      let b' ← readSca .C b.b
      let c' ← readSca .C b.c
      unused b.d
      pure (.barinit g a' b' c') else .error .unknownOpcode
  | 0x051 => if b.mod = 0 then operands do
      let a' ← readBar b.a
      unused b.d
      unused b.b
      unused b.c
      pure (.bararv g a') else .error .unknownOpcode
  | 0x052 => if b.mod = 0 then operands do
      let a' ← readBar b.a
      unused b.d
      unused b.b
      unused b.c
      pure (.barwt g a') else .error .unknownOpcode
  | 0x053 => if b.mod = 0 then operands do
      let a' ← readBar b.a
      unused b.d
      unused b.b
      unused b.c
      pure (.barsyn g a') else .error .unknownOpcode
  | 0x060 => if b.mod = 0 then operands do
      let a' ← readSca .C b.a
      let b' ← readVec .C b.b
      unused b.d
      unused b.c
      pure (.qpush g a' b') else .error .unknownOpcode
  | 0x061 => if b.mod = 0 then operands do
      let d' ← readDFlag b.d
      let a' ← readSca .C b.a
      let b' ← readVec .C b.b
      unused b.c
      pure (.qpushn g d' a' b') else .error .unknownOpcode
  | 0x062 => if b.mod = 0 then operands do
      let d' ← readVReg b.d
      let a' ← readSca .C b.a
      unused b.b
      unused b.c
      pure (.qpop g d' a') else .error .unknownOpcode
  | 0x063 => if b.mod = 0 then operands do
      let d' ← readLatch b.d
      let a' ← readSca .C b.a
      unused b.b
      unused b.c
      pure (.qbind g d' a') else .error .unknownOpcode
  | 0x064 => if b.mod = 0 then operands do
      let a' ← readSca .C b.a
      let b' ← readSca .C b.b
      let c' ← readSca .C b.c
      unused b.d
      pure (.qarm g a' b' c') else .error .unknownOpcode
  | 0x065 => if b.mod = 0 then operands do
      let d' ← readSReg b.d
      let a' ← readSca .C b.a
      unused b.b
      unused b.c
      pure (.qstat g d' a') else .error .unknownOpcode
  | 0x066 => if b.mod = 0 then operands do
      unused b.d
      unused b.a
      unused b.b
      unused b.c
      pure (.qdone g) else .error .unknownOpcode
  | 0x070 => if b.mod = 0 then operands do
      let d' ← readSReg b.d
      let a' ← readSca .C b.a
      unused b.b
      unused b.c
      pure (.launch g d' a') else .error .unknownOpcode
  | 0x078 => if b.mod = 0 then operands do
      let d' ← readVReg b.d
      let a' ← readSca .C b.a
      let b' ← readSca .C b.b
      unused b.c
      pure (.gstate g d' a' b') else .error .unknownOpcode
  | 0x079 => if b.mod = 0 then operands do
      let a' ← readSca .C b.a
      let b' ← readVec .C b.b
      let c' ← readSca .C b.c
      unused b.d
      pure (.gset g a' b' c') else .error .unknownOpcode
  | 0x07A => if b.mod = 0 then operands do
      let d' ← readSReg b.d
      let a' ← readSca .C b.a
      unused b.b
      unused b.c
      pure (.mbox g d' a') else .error .unknownOpcode
  | _ => .error .unknownOpcode

/-- Decodes the 48 bits of one valid slot. OP 0x000 is in no map (reason 1). DEDUCED, log 102. -/
def decodeSlot (c : SlotClass) (b : SlotBits) : Except Reject Instr :=
  match c with
  | .S => decodeS b
  | .V => decodeV b
  | .M => decodeM b
  | .C => decodeC b

/-! ## The hazard filter -/

/-- A place that reason 3 of R110 lets only one slot write. -/
inductive Dest where
  | v (n : Nat) | s (n : Nat) | p (n : Nat) | c (n : Nat) | special (n : Nat) | latch (n : Nat)
deriving DecidableEq, Repr

/-- The places one field writes (R110): an FP64 pair counts as both registers. -/
def Field.dests (wide : Bool) : Field → List Dest
  | .dVec r => if wide then [.v r.val, .v (r.val + 1)] else [.v r.val]
  | .dPair r => [.v r.val, .v (r.val + 1)]
  | .companion r _ => [.v r.val]
  | .dSca r => [.s r.val]
  | .dPrd f => [.p f.val]
  | .dCnd f => [.c f.val]
  | .dSpec n => [.special n.val]
  | .latch n => [.latch n.val]
  | _ => []

/-- The buses of reason 4 (R110). -/
inductive Bus where
  | xsv | xvs | queue | fp64 | tile | none
deriving DecidableEq, Repr

/-- The bus an operation takes (R110). -/
def Shape.bus (s : Shape) : Bus :=
  let n := s.op.toNat
  match s.cls with
  | .C =>
    if n = 0x30 then .xsv else if n = 0x31 then .xvs
    else if 0x60 ≤ n ∧ n ≤ 0x63 then .queue
    else if n = 0x28 ∨ n = 0x29 then .tile else .none
  | .V =>
    if (0x2A ≤ n ∧ n ≤ 0x2C) ∨ (0x60 ≤ n ∧ n ≤ 0x66) ∨ n = 0x82 ∨ n = 0x83 then .fp64 else .none
  | .M => if n = 3 ∨ n = 4 then .tile else .none
  | .S => .none

/-- LDV, LDVW and LDL with an 8-byte width write a pair (R112). -/
def Shape.wideLoad (s : Shape) : Bool :=
  s.cls == .C && s.mod == 3 && (s.op == 4 || s.op == 5 || s.op == 9)

/-- STV and STL with an 8-byte width read a pair through C (R112). -/
def Shape.wideStore (s : Shape) : Bool :=
  s.cls == .C && s.mod == 3 && (s.op == 6 || s.op == 0xA)

/-- The places an operation writes, for reason 3 (R110). VWRX has no D and takes no part. -/
def Shape.dests (s : Shape) : List Dest := s.d.dests s.wideLoad ++ s.c.dests false

/-- The immediates a field names. -/
def Field.imms : Field → List Nat
  | .vec o | .sca o | .pair o => match o.code with | .imm k => [k.val] | _ => []
  | .target k => [k.val]
  | .fmt f => if f.k = .imm then [0] else []
  | _ => []

/-- Every immediate an operation names (R110 reason 5; a K code of 11 reads I0, R236). -/
def Shape.imms (s : Shape) : List Nat := s.d.imms ++ s.a.imms ++ s.b.imms ++ s.c.imms

/-- An odd register where an even pair is named. -/
def Field.odd : Field → Bool
  | .dPair r => r.val % 2 == 1
  | .pair o => match o.code with | .reg n => n.val % 2 == 1 | _ => false
  | _ => false

/-- The data register of an 8-byte store is odd. -/
def Field.oddData : Field → Bool
  | .vec o => match o.code with | .reg n => n.val % 2 == 1 | _ => false
  | .dVec r => r.val % 2 == 1
  | _ => false

/-- The reasons of R110 that one slot's operation meets beyond 1 and 2, for an entry with `nimm`
immediates: 5, 6, 7 and 8. DEDUCED, log 101. -/
def Shape.reasons (s : Shape) (slot : Slot) (handler : Bool) (nimm : Nat) : List Reject :=
  (if s.imms.any (fun k => nimm ≤ k) then [.missingImmediate] else []) ++
  (if s.cls == .C && (s.op == 0x70 || s.op == 0x78 || s.op == 0x79 || s.op == 0x7A) && slot == .c1
    then [.slotNotPermitted] else []) ++
  (if s.cls == .C && (s.op == 0x78 || s.op == 0x79) && !handler then [.slotNotPermitted] else []) ++
  (if s.d.odd || s.a.odd || s.b.odd || s.c.odd || (s.wideLoad && s.d.oddData)
      || (s.wideStore && s.c.oddData) then [.oddPair] else []) ++
  (match s.d with
   | .dSpec n => if n.val = 2 ∨ n.val = 3 ∨ n.val = 4 then [] else [.readOnlySpecial]
   | _ => [])

/-- The header of a control word (R95). -/
structure Header where
  valid : Bool
  nimm : Nat
  /-- width in bytes of each immediate in use -/
  widths : List Nat
  pop : BitVec 4
  sync : Bool
  nofold : Bool
deriving DecidableEq, Repr

/-- An entry that passed the filter: its header fields and its slots' operations in field order. -/
structure Entry where
  widths : List Nat
  pop : BitVec 4
  sync : Bool
  nofold : Bool
  ops : List (Slot × Instr)
deriving DecidableEq, Repr

/-- The width in bytes of immediate k: IMMW bits [2k+1:2k] (R95). -/
def immWidth (immw : BitVec 8) (k : Nat) : Nat := 2 ^ (immw.extractLsb' (2 * k) 2).toNat

/-- Reads the header (R95). -/
def Header.of (h : BitVec 32) : Header where
  valid := h.extractLsb' 31 1 == 1
  nimm := (h.extractLsb' 28 3).toNat
  widths := (List.range (h.extractLsb' 28 3).toNat).map (immWidth (h.extractLsb' 20 8))
  pop := h.extractLsb' 16 4
  sync := h.extractLsb' 15 1 == 1
  nofold := h.extractLsb' 14 1 == 1

/-- The header faults of R95: NIMM 5-7, a width of an absent immediate, a reserved bit. -/
def headerFault (h : BitVec 32) : Bool :=
  let nimm := (h.extractLsb' 28 3).toNat
  5 ≤ nimm || (h.extractLsb' 0 14) != 0 ||
  (List.range 4).any fun k => nimm ≤ k && (h.extractLsb' (20 + 2 * k) 2) != 0

/-- The slots in field order. -/
def Slot.all : List Slot := [.s, .v0, .v1, .m, .c0, .c1]

/-- The 48 bits of a slot of a control word (R96). -/
def slotWord (w : BitVec 320) (sl : Slot) : BitVec 48 := w.extractLsb' sl.low 48

/-- A slot's operation: nothing when idle, reason 2 when idle with a bit set (R96). -/
def readSlot (w : BitVec 320) (sl : Slot) : Except Reject (Option Instr) :=
  let b := SlotBits.of (slotWord w sl)
  if b.valid = 0 then
    if slotWord w sl = 0 then .ok none else .error .badOperand
  else (decodeSlot sl.cls b).map some

/-- Whether a list of places names one twice. -/
def repeated : List Dest → Bool
  | [] => false
  | x :: xs => xs.contains x || repeated xs

/-- How many shapes take a bus. -/
def busCount (b : Bus) (l : List Shape) : Nat := l.countP fun sh => sh.bus == b

/-- Reasons 3 and 4 of R110, over all the slots of an entry. -/
def conflictReasons (l : List Shape) : List Reject :=
  (if repeated (l.flatMap Shape.dests) then [.duplicateDestination] else []) ++
  (if 1 < busCount .xsv l || 1 < busCount .xvs l || 1 < busCount .queue l || 1 < busCount .fp64 l
      || 2 < busCount .tile l then [.busTwice] else [])

/-- The operations that read, in field order. -/
def readOps (w : BitVec 320) : List (Slot × Instr) :=
  Slot.all.filterMap fun sl =>
    match readSlot w sl with
    | .ok (some i) => some (sl, i)
    | _ => none

/-- Every reason of R110 the hazard filter finds in a control word. -/
def filterReasons (handler inRange : Bool) (w : BitVec 320) : List Reject :=
  let h := w.extractLsb' 288 32
  let hd := Header.of h
  let ops := readOps w
  let shapes := ops.filterMap fun (_, i) => i.shape
  (if hd.valid && inRange then [] else [.entryNotValid]) ++
  (if headerFault h then [.badOperand] else []) ++
  (Slot.all.filterMap fun sl => match readSlot w sl with | .error r => some r | .ok _ => none) ++
  conflictReasons shapes ++
  (ops.flatMap fun (sl, i) =>
    match i.shape with
    | some sh => sh.reasons sl handler hd.nimm
    | none => [])

/-- The reason recorded: the lowest code (R110). -/
def lowestReason : List Reject → Option Reject
  | [] => none
  | r :: rs =>
    match lowestReason rs with
    | none => some r
    | some r' => if r.code ≤ r'.code then some r else some r'

/-- Reads a control word: an entry, or the reason the filter refuses it with (R110, R111). DEDUCED, log 101. -/
def decodeEntry (handler inRange : Bool) (w : BitVec 320) : Except Reject Entry :=
  match lowestReason (filterReasons handler inRange w) with
  | some r => .error r
  | none =>
    let hd := Header.of (w.extractLsb' 288 32)
    .ok { widths := hd.widths, pop := hd.pop, sync := hd.sync, nofold := hd.nofold, ops := readOps w }

/-- The control word of forty bytes: byte n holds bits [8n+7:8n] (R95). -/
def wordOfBytes : List Byte → Nat
  | [] => 0
  | b :: bs => b.toNat + 256 * wordOfBytes bs

/-- The n low bytes of a number, least significant first. -/
def bytesOfNat : Nat → Nat → List Byte
  | 0, _ => []
  | n + 1, x => BitVec.ofNat 8 x :: bytesOfNat n (x / 256)

/-- Decodes forty bytes of a dictionary. -/
def decodeEntryBytes (handler inRange : Bool) (bs : List Byte) : Except Reject Entry :=
  if bs.length < 40 then .error .tooShort
  else decodeEntry handler inRange (BitVec.ofNat 320 (wordOfBytes (bs.take 40)))

/-! ## The stream -/

/-- A stream reference by its first bytes (R101). -/
inductive Ref where
  /-- entry index and the length of the index form -/
  | index (i : Nat) (len : Nat)
  | pad
  | stop
deriving DecidableEq, Repr

/-- Reads a reference's index form or escape (R101). -/
def readRef : List Byte → Except Reject Ref
  | [] => .error .tooShort
  | b0 :: rest =>
    if b0.toNat < 0x80 then .ok (.index b0.toNat 1)
    else match rest with
      | [] => .error .tooShort
      | b1 :: _ =>
        if b0.toNat < 0xFF then .ok (.index (b0.toNat % 128 * 256 + b1.toNat) 2)
        else if b1.toNat = 0 then .ok .pad
        else if b1.toNat = 1 then .ok .stop
        else .error .badEscape

/-- Sign-extends the low 8·n bits of x to 64 bits (R99, R113). -/
def sext64 (n : Nat) (x : Nat) : Word64 := (BitVec.ofNat (8 * n) x).signExtend 64

/-- Reads the immediates that follow an index, I0 first (R102), or nothing when the bytes end. -/
def readImms : List Nat → List Byte → Option (List Word64)
  | [], _ => some []
  | n :: ns, bs =>
    if bs.length < n then none
    else (readImms ns (bs.drop n)).map fun l => sext64 n (wordOfBytes (bs.take n)) :: l

/-! ## The encoder -/

/-- The guard's bits (R96). -/
def Guard.invBit (g : Guard) : BitVec 1 := if g.inv then 1 else 0

/-- The slot bits of an operation's fields (R96, R112). -/
def Shape.bits (s : Shape) : SlotBits where
  valid := 1
  inv := s.g.invBit
  gidx := BitVec.ofNat 3 s.g.idx.val
  op := s.op
  mod := s.mod
  d := s.d.byte
  a := s.a.byte
  b := s.b.byte
  c := s.c.byte

/-- The 48 bits of a slot operation; an event has none. -/
def encode (i : Instr) : Option (BitVec 48) := i.shape.map fun sh => sh.bits.word

/-- The opcode map of a slot operation. -/
def Instr.cls? (i : Instr) : Option SlotClass := i.shape.map Shape.cls

/-- A control word with one valid slot and `nimm` immediates of one byte each: the least control word
that holds the operation. -/
def encodeWord (slot : Slot) (nimm : Nat) (w : BitVec 48) : BitVec 320 :=
  BitVec.ofNat 320 (2 ^ 319 + nimm * 2 ^ 316 + w.toNat * 2 ^ slot.low)

/-- The single operation of an entry. -/
def Entry.single? (e : Entry) : Option (Slot × Instr) :=
  match e.ops with
  | [x] => some x
  | _ => none

/-- What the decoder reads from an instruction whose bits are `w`, numbered as the table numbers them.
A control word is 320 bits and stands for its one operation (R95); sixteen bits or fewer are the bytes of
a stream escape (R101). GSTATE and GSET are taken as words of a handler image (R110). -/
def decodeTableWord (nbits w : Nat) : Option Instr :=
  if nbits ≤ 16 then
    match readRef (bytesOfNat 2 w) with
    | .ok .stop => some .stop
    | _ => none
  else
    match decodeEntry true true (BitVec.ofNat 320 w) with
    | .ok e => e.single?.map Prod.snd
    | .error _ => none

end Sys2Proof
end

