-- ==== Sys2Proof/Machine/Data.lean ====
section
/-! DEFINITION. Sparse words and tables: the plain-data shapes in which the state holds registers,
memory bytes and records. Every operation here is structural, so that the kernel can evaluate it. -/

namespace Sys2Proof

/-! ## Sparse words -/

/-- The word at address `a`; an unlisted address reads as zero. -/
def Cells.get {w : Nat} : Cells w → Nat → BitVec w
  | [], _ => 0
  | (k, x) :: cs, a => if a = k then x else if a < k then 0 else Cells.get cs a

/-- Puts an entry in its place, keeping addresses rising; writing zero removes the entry. -/
def Cells.set {w : Nat} : Cells w → Nat → BitVec w → Cells w
  | [], a, x => if x = 0 then [] else [(a, x)]
  | (k, y) :: cs, a, x =>
    if a < k then (if x = 0 then (k, y) :: cs else (a, x) :: (k, y) :: cs)
    else if a = k then (if x = 0 then cs else (k, x) :: cs)
    else (k, y) :: Cells.set cs a x

/-- Writes a list of address and word pairs in order. -/
def Cells.setAll {w : Nat} (c : Cells w) (l : List (Nat × BitVec w)) : Cells w :=
  l.foldl (fun c p => c.set p.1 p.2) c

/-- Writes consecutive words from address `a`. -/
def Cells.setRun {w : Nat} (c : Cells w) (a : Nat) : List (BitVec w) → Cells w
  | [] => c
  | x :: xs => Cells.setRun (c.set a x) (a + 1) xs

/-- Reads `n` consecutive words from address `a`. -/
def Cells.getRun {w : Nat} (c : Cells w) (a : Nat) : Nat → List (BitVec w)
  | 0 => []
  | n + 1 => c.get a :: Cells.getRun c (a + 1) n

/-- Forgets every word at the addresses from `a` up to but not including `b`. -/
def Cells.clear {w : Nat} (c : Cells w) (a b : Nat) : Cells w :=
  c.filter fun p => decide (p.1 < a ∨ b ≤ p.1)

/-- The canonical form: addresses rising and no zero word listed. -/
def Cells.wf {w : Nat} : Cells w → Bool
  | [] => true
  | [(_, x)] => x != 0
  | (k, x) :: (k', x') :: cs => x != 0 && decide (k < k') && Cells.wf ((k', x') :: cs)

/-- The bytes of physical memory by key, in canonical form (R259, R260). -/
abbrev Machine.Memory := Cells 8

/-- The memory is in canonical form: keys rising and no zero byte listed. -/
abbrev Machine.Memory.wf (m : Machine.Memory) : Bool := Cells.wf m

/-! ## Tables -/

/-- The record with key `k`, where there is one. -/
def Tbl.find {α : Type} : Tbl α → Nat → Option α
  | [], _ => none
  | (k, x) :: t, a => if a = k then some x else if a < k then none else Tbl.find t a

/-- Puts a record under a key, in its place. -/
def Tbl.put {α : Type} : Tbl α → Nat → α → Tbl α
  | [], a, x => [(a, x)]
  | (k, y) :: t, a, x =>
    if a < k then (a, x) :: (k, y) :: t
    else if a = k then (k, x) :: t
    else (k, y) :: Tbl.put t a x

/-- Removes the record with a key. -/
def Tbl.del {α : Type} : Tbl α → Nat → Tbl α
  | [], _ => []
  | (k, y) :: t, a => if a < k then (k, y) :: t else if a = k then t else (k, y) :: Tbl.del t a

/-- Changes the record with a key, where there is one. -/
def Tbl.upd {α : Type} : Tbl α → Nat → (α → α) → Tbl α
  | [], _, _ => []
  | (k, y) :: t, a, f =>
    if a < k then (k, y) :: t else if a = k then (k, f y) :: t else (k, y) :: Tbl.upd t a f

/-- Changes every record. -/
def Tbl.mapAll {α : Type} (t : Tbl α) (f : α → α) : Tbl α := t.map fun p => (p.1, f p.2)

/-- The keys, rising. -/
def Tbl.keys {α : Type} (t : Tbl α) : List Nat := t.map Prod.fst

/-- The records, in the order of their keys. -/
def Tbl.vals {α : Type} (t : Tbl α) : List α := t.map Prod.snd

/-- Keys rising. -/
def Tbl.wf {α : Type} : Tbl α → Bool
  | [] => true
  | [_] => true
  | (k, _) :: (k', y) :: t => decide (k < k') && Tbl.wf ((k', y) :: t)

/-- The record with a key, or the one given. -/
def Tbl.getD {α : Type} (t : Tbl α) (a : Nat) (x : α) : α := (t.find a).getD x

/-- The first record that meets a test. -/
def Tbl.pick {α : Type} (t : Tbl α) (p : α → Bool) : Option (Nat × α) := t.find? fun x => p x.2

/-! ## Bytes -/

/-- Little-endian bytes joined to a number (R7). -/
def natOfBytes : List Byte → Nat
  | [] => 0
  | b :: bs => b.toNat + 256 * natOfBytes bs

/-- The `n` low bytes of a number, lowest first (R7). -/
def bytesLE : Nat → Nat → List Byte
  | 0, _ => []
  | n + 1, x => BitVec.ofNat 8 x :: bytesLE n (x / 256)

/-- Splits a list into pieces of `n` elements; `fuel` bounds the number of pieces. -/
def chunks {α : Type} (n : Nat) : Nat → List α → List (List α)
  | 0, _ => []
  | _, [] => []
  | fuel + 1, l => l.take n :: chunks n fuel (l.drop n)

/-- The bits `hi` down to `lo` of a number. -/
def bitsOf (x hi lo : Nat) : Nat := x / 2 ^ lo % 2 ^ (hi + 1 - lo)

/-- Bit `i` of a number. -/
def natBit (x i : Nat) : Bool := x / 2 ^ i % 2 == 1

/-- The mask of the bits below `n` that a test selects. -/
def maskOf (n : Nat) (p : Nat → Bool) : Nat :=
  (List.range n).foldl (fun m i => if p i then m + 2 ^ i else m) 0

/-- A bit mask of width `w` from a test. -/
def bvMask (w : Nat) (p : Nat → Bool) : BitVec w := BitVec.ofNat w (maskOf w p)

/-- Sets or clears bit `i`. -/
def putBit {w : Nat} (x : BitVec w) (i : Nat) (b : Bool) : BitVec w :=
  if b then x ||| BitVec.ofNat w (2 ^ i) else x &&& ~~~ BitVec.ofNat w (2 ^ i)

/-- The number of set bits. -/
def popCount {w : Nat} (x : BitVec w) : Nat := (List.range w).countP fun i => x.getLsbD i

/-- The indices of the set bits, rising. -/
def setBits {w : Nat} (x : BitVec w) : List Nat := (List.range w).filter fun i => x.getLsbD i

/-- Inserts into a list ordered by key, after the entries of equal key. -/
def insertByKey {α : Type} (k : Nat) (x : α) : List (Nat × α) → List (Nat × α)
  | [] => [(k, x)]
  | (k', y) :: l => if k < k' then (k, x) :: (k', y) :: l else (k', y) :: insertByKey k x l

/-- The least element under a key, the first among equals. -/
def minBy {α : Type} (f : α → Nat) : List α → Option α
  | [] => none
  | x :: xs =>
    match minBy f xs with
    | none => some x
    | some y => if f x ≤ f y then some x else some y

/-- Puts `x` into a list ordered by a key, after its equals. -/
def insertSorted {α : Type} (f : α → Nat) (x : α) : List α → List α
  | [] => [x]
  | y :: l => if f x < f y then x :: y :: l else y :: insertSorted f x l

/-- Sorts by a key, keeping the order of equals. -/
def sortBy {α : Type} (f : α → Nat) (l : List α) : List α :=
  l.foldl (fun acc x => insertSorted f x acc) []

/-- Sum of a list of numbers. -/
def sumNat (l : List Nat) : Nat := l.foldl (· + ·) 0

/-- Removes the first entry that meets a test. -/
def eraseFirst {α : Type} (p : α → Bool) : List α → List α
  | [] => []
  | x :: xs => if p x then xs else x :: eraseFirst p xs

end Sys2Proof
end

