-- ==== Sys2Proof/Machine/Float.lean ====
section
/-! DEFINITION. Number formats and arithmetic (R74 to R93, R160 to R169): every operation computes an exact
value and rounds once. -/

namespace Sys2Proof.Machine

/-! ## Formats and values -/

/-- A binary floating-point format (R74, R75): precision with the hidden bit, exponent of the lowest bit of a
subnormal, the codes of the largest finite value, of infinity and of the canonical NaN (R80), the place of
the sign, and whether its NaNs can signal. -/
structure FloatFormat where
  prec : Nat
  qmin : Int
  maxMag : Nat
  infMag : Option Nat
  nan : Nat
  sign : Nat
  signals : Bool
deriving DecidableEq, Repr

def fp64 : FloatFormat := ⟨53, -1074, 0x7FEFFFFFFFFFFFFF, some 0x7FF0000000000000, 0x7FF8000000000000, 63, true⟩
def fp32 : FloatFormat := ⟨24, -149, 0x7F7FFFFF, some 0x7F800000, 0x7FC00000, 31, true⟩
def fp16 : FloatFormat := ⟨11, -24, 0x7BFF, some 0x7C00, 0x7E00, 15, true⟩
def bf16 : FloatFormat := ⟨8, -133, 0x7F7F, some 0x7F80, 0x7FC0, 15, true⟩
def e4m3 : FloatFormat := ⟨4, -9, 0x7E, none, 0x7F, 7, false⟩
def e5m2 : FloatFormat := ⟨3, -16, 0x7B, some 0x7C, 0x7E, 7, false⟩

/-- A value: NaN, an infinity, or (-1)^neg · m · 2^e. -/
inductive FVal where
  | nan (signalling : Bool)
  | inf (neg : Bool)
  | fin (neg : Bool) (m : Nat) (e : Int)
deriving DecidableEq, Repr

/-- FPFLAGS bits: NV, DZ, OF, UF, NX at [4:0] (R51). -/
abbrev FFlags := BitVec 5
def flagNV : FFlags := 16
def flagDZ : FFlags := 8
def flagOF : FFlags := 4
def flagUF : FFlags := 2
def flagNX : FFlags := 1

/-- A result with the flags it raises. -/
abbrev FResult := Nat × FFlags

/-- Reads a code of a format (R74, R75). -/
def FloatFormat.value (f : FloatFormat) (bits : Nat) : FVal :=
  let neg := natBit bits f.sign
  let mag := bits % 2 ^ f.sign
  let h := 2 ^ (f.prec - 1)
  if f.maxMag < mag then
    if f.infMag = some mag then .inf neg
    else .nan (f.signals && !natBit mag (f.prec - 2))
  else if mag < h then .fin neg mag f.qmin
  else .fin neg (mag % h + h) (f.qmin + (mag / h : Nat) - 1)

/-- The code with a sign. -/
def FloatFormat.signed (f : FloatFormat) (neg : Bool) (mag : Nat) : Nat :=
  if neg then mag + 2 ^ f.sign else mag

def FVal.isNaN : FVal → Bool
  | .nan _ => true
  | _ => false

def FVal.signalling : FVal → Bool
  | .nan s => s
  | _ => false

/-- NV for a signalling operand. -/
def nvOf (l : List FVal) : FFlags := if l.any FVal.signalling then flagNV else 0

def FVal.neg : FVal → FVal
  | .nan s => .nan s
  | .inf n => .inf !n
  | .fin n m e => .fin (!n) m e

/-! ## Rounding -/

/-- The number of bits of a number. -/
def bitLength (n : Nat) : Nat := if n = 0 then 0 else Nat.log2 n + 1

/-- Whether a rounding mode takes the next magnitude: `low` is the kept part's lowest bit, `cmp` compares the
discarded part with half a unit. -/
def roundUp (rm : Rounding) (neg low : Bool) (cmp : Ordering) (inexact : Bool) : Bool :=
  match rm with
  | .rne => cmp == .gt || (cmp == .eq && low)
  | .rz => false
  | .ru => inexact && !neg
  | .rd => inexact && neg

/-- Rounds m·2^e, with `sticky` standing for a positive part below the last bit of m, to a multiple of 2^q:
the multiple and whether it is inexact. -/
def roundAt (rm : Rounding) (neg : Bool) (m : Nat) (e : Int) (sticky : Bool) (q : Int) : Nat × Bool :=
  if q ≤ e then (m * 2 ^ (e - q).toNat, sticky)
  else
    let d := (q - e).toNat
    let r := m / 2 ^ d
    let rem := m % 2 ^ d
    let half := 2 ^ (d - 1)
    let cmp : Ordering :=
      if rem < half then .lt else if half < rem then .gt else if sticky then .gt else .eq
    let inexact := rem != 0 || sticky
    (if roundUp rm neg (r % 2 == 1) cmp inexact then r + 1 else r, inexact)

/-- The rounded magnitude of a nonzero value as if the exponent range had no top, whether it is inexact,
and whether it is tiny after rounding (R82). -/
def FloatFormat.roundMag (f : FloatFormat) (rm : Rounding) (neg : Bool) (m : Nat) (e : Int) (sticky : Bool) :
    Nat × Bool × Bool :=
  let qu := e + bitLength m - f.prec
  let q := if qu < f.qmin then f.qmin else qu
  let (r, inexact) := roundAt rm neg m e sticky q
  let (ru, _) := roundAt rm neg m e sticky qu
  let tiny := decide (qu < f.qmin) && !(decide (qu = f.qmin - 1) && ru == 2 ^ f.prec)
  ((q - f.qmin).toNat * 2 ^ (f.prec - 1) + r, inexact, tiny)

/-- The IEEE 754-2019 overflow result of a rounding mode. -/
def FloatFormat.overflow (f : FloatFormat) (rm : Rounding) (neg : Bool) : Nat :=
  let toInf := match rm with
    | .rne => true
    | .rz => false
    | .ru => !neg
    | .rd => neg
  f.signed neg (if toInf then f.infMag.getD f.nan else f.maxMag)

/-- Rounds a finite nonzero value into a format, with the flags of R82. -/
def FloatFormat.roundSticky (f : FloatFormat) (rm : Rounding) (neg : Bool) (m : Nat) (e : Int) (sticky : Bool) :
    FResult :=
  let (mag, inexact, tiny) := f.roundMag rm neg m e sticky
  if f.maxMag < mag then (f.overflow rm neg, flagOF ||| flagNX)
  else (f.signed neg mag, (if inexact then flagNX else 0) ||| (if tiny && inexact then flagUF else 0))

/-- Rounds a value into a format once; a NaN gives the canonical NaN (R80). -/
def FloatFormat.round (f : FloatFormat) (rm : Rounding) : FVal → FResult
  | .nan s => (f.nan, if s then flagNV else 0)
  | .inf n => (f.signed n (f.infMag.getD f.nan), 0)
  | .fin n m e => if m = 0 then (f.signed n 0, 0) else f.roundSticky rm n m e false

/-! ## Exact arithmetic -/

/-- The signed integer of a sign and magnitude. -/
def signedInt (neg : Bool) (m : Nat) : Int := if neg then -(m : Int) else m

/-- The exact sum of two finite values; the sign of a zero sum follows IEEE 754-2019 under `rm`. -/
def finAdd (rm : Rounding) (n1 : Bool) (m1 : Nat) (e1 : Int) (n2 : Bool) (m2 : Nat) (e2 : Int) : FVal :=
  let e := if e1 ≤ e2 then e1 else e2
  let s := signedInt n1 (m1 * 2 ^ (e1 - e).toNat) + signedInt n2 (m2 * 2 ^ (e2 - e).toNat)
  if s = 0 then .fin (if n1 == n2 && m1 == 0 then n1 else rm == .rd) 0 e
  else .fin (decide (s < 0)) s.natAbs e

/-- The exact sum, and whether the operands are infinities of different signs. -/
def FVal.add (rm : Rounding) : FVal → FVal → FVal × Bool
  | .nan s, .nan s' => (.nan (s || s'), false)
  | .nan s, _ => (.nan s, false)
  | _, .nan s => (.nan s, false)
  | .inf a, .inf b => if a = b then (.inf a, false) else (.nan false, true)
  | .inf a, .fin _ _ _ => (.inf a, false)
  | .fin _ _ _, .inf b => (.inf b, false)
  | .fin n1 m1 e1, .fin n2 m2 e2 => (finAdd rm n1 m1 e1 n2 m2 e2, false)

/-- The exact product, and whether it is of a zero and an infinity. -/
def FVal.mul : FVal → FVal → FVal × Bool
  | .nan s, .nan s' => (.nan (s || s'), false)
  | .nan s, _ => (.nan s, false)
  | _, .nan s => (.nan s, false)
  | .inf a, .inf b => (.inf (a != b), false)
  | .inf a, .fin b m _ => if m = 0 then (.nan false, true) else (.inf (a != b), false)
  | .fin a m _, .inf b => if m = 0 then (.nan false, true) else (.inf (a != b), false)
  | .fin n1 m1 e1, .fin n2 m2 e2 => (.fin (n1 != n2) (m1 * m2) (e1 + e2), false)

def nvIf (b : Bool) : FFlags := if b then flagNV else 0

/-- a + b rounded once (R162). -/
def fAdd (f : FloatFormat) (rm : Rounding) (a b : Nat) : FResult :=
  let x := f.value a
  let y := f.value b
  let (v, bad) := x.add rm y
  let r := f.round rm v
  (r.1, r.2 ||| nvIf bad ||| nvOf [x, y])

/-- The code with its sign inverted. -/
def FloatFormat.negate (f : FloatFormat) (a : Nat) : Nat :=
  if natBit a f.sign then a - 2 ^ f.sign else a % 2 ^ f.sign + 2 ^ f.sign

/-- a - b rounded once (R162). -/
def fSub (f : FloatFormat) (rm : Rounding) (a b : Nat) : FResult := fAdd f rm a (f.negate b)

/-- a · b rounded once (R162). -/
def fMul (f : FloatFormat) (rm : Rounding) (a b : Nat) : FResult :=
  let x := f.value a
  let y := f.value b
  let (v, bad) := x.mul y
  let r := f.round rm v
  (r.1, r.2 ||| nvIf bad ||| nvOf [x, y])

/-- a · b + c rounded once; NV for zero times infinity whatever c is (R162). -/
def fFma (f : FloatFormat) (rm : Rounding) (a b c : Nat) : FResult :=
  let x := f.value a
  let y := f.value b
  let z := f.value c
  let (p, bad) := x.mul y
  let (v, bad') := p.add rm z
  let r := f.round rm v
  (r.1, r.2 ||| nvIf (bad || bad') ||| nvOf [x, y, z])

/-- a · b - c (R162). -/
def fFms (f : FloatFormat) (rm : Rounding) (a b c : Nat) : FResult := fFma f rm a b (f.negate c)

/-- -(a · b) + c, as fusedMultiplyAdd(-a, b, c) (R162). -/
def fFnma (f : FloatFormat) (rm : Rounding) (a b c : Nat) : FResult := fFma f rm (f.negate a) b c

/-! ## Comparison, minimum and maximum -/

/-- a < b on two values that are not NaN; zeros are equal. -/
def FVal.lt : FVal → FVal → Bool
  | .inf a, .inf b => a && !b
  | .inf a, .fin _ _ _ => a
  | .fin _ _ _, .inf b => !b
  | .fin n1 m1 e1, .fin n2 m2 e2 =>
    let e := if e1 ≤ e2 then e1 else e2
    decide (signedInt n1 (m1 * 2 ^ (e1 - e).toNat) < signedInt n2 (m2 * 2 ^ (e2 - e).toNat))
  | _, _ => false

/-- a = b; false when either is NaN (R160). -/
def FVal.eqv (a b : FVal) : Bool := !a.isNaN && !b.isNaN && !a.lt b && !b.lt a

/-- The compare operations of R160. -/
inductive FCompare where
  | eq | lt | le | un
deriving DecidableEq, Repr

/-- A floating-point compare and its flags (R160). -/
def fCompare (f : FloatFormat) (c : FCompare) (a b : Nat) : Bool × FFlags :=
  let x := f.value a
  let y := f.value b
  let nan := x.isNaN || y.isNaN
  match c with
  | .eq => (x.eqv y, nvOf [x, y])
  | .lt => (!nan && x.lt y, nvIf nan)
  | .le => (!nan && (x.lt y || x.eqv y), nvIf nan)
  | .un => (nan, nvOf [x, y])

/-- FMIN or FMAX (R81, R163): the other operand for one NaN, the canonical NaN for two, -0 below +0. -/
def fMinMax (f : FloatFormat) (max : Bool) (a b : Nat) : FResult :=
  let x := f.value a
  let y := f.value b
  let fl := nvOf [x, y]
  if x.isNaN && y.isNaN then (f.nan, fl)
  else if x.isNaN then (b, fl)
  else if y.isNaN then (a, fl)
  else
    let aLess := x.lt y || (x.eqv y && natBit a f.sign)
    (if aLess != max then a else b, fl)

/-- FABS or FNEG (R163). -/
def fSignOp (f : FloatFormat) (negate : Bool) (a : Nat) : FResult :=
  match f.value a with
  | .nan s => (f.nan, nvIf s)
  | _ => (if negate then f.negate a else a % 2 ^ f.sign, 0)

/-- FRND: rounds to an integral value, keeping the sign of a zero result (R163). -/
def fRound (f : FloatFormat) (rm : Rounding) (a : Nat) : FResult :=
  match f.value a with
  | .nan s => (f.nan, nvIf s)
  | .inf _ => (a, 0)
  | .fin n m e =>
    if m = 0 then (a, 0)
    else
      let (r, _) := roundAt rm n m e false 0
      if r = 0 then (f.signed n 0, 0)
      else (((if 0 ≤ e then f.round rm (.fin n m e) else f.round rm (.fin n r 0)).1), 0)

/-! ## Reciprocal and square root -/

/-- The integer square root, found bit by bit from bit `i - 1` down. -/
def isqrtFrom (n : Nat) : Nat → Nat → Nat
  | 0, r => r
  | i + 1, r => isqrtFrom n i (if (r + 2 ^ i) * (r + 2 ^ i) ≤ n then r + 2 ^ i else r)

/-- The integer square root. -/
def isqrt (n : Nat) : Nat := isqrtFrom n (bitLength n / 2 + 1) 0

/-- Rounds num / den · 2^e. -/
def FloatFormat.roundQuotient (f : FloatFormat) (rm : Rounding) (neg : Bool) (num den : Nat) (e : Int) : FResult :=
  let k := f.prec + 4 + bitLength den
  let n := num * 2 ^ k
  f.roundSticky rm neg (n / den) (e - k) (n % den != 0)

/-- Rounds the square root of num / den · 2^e, for positive num and den. -/
def FloatFormat.roundRoot (f : FloatFormat) (rm : Rounding) (num den : Nat) (e : Int) : FResult :=
  let odd := e.emod 2 == 1
  let n := if odd then 2 * num else num
  let e' := if odd then e - 1 else e
  let k := f.prec + 4 + bitLength den
  let q := n * 2 ^ (2 * k) / den
  let exact := n * 2 ^ (2 * k) % den == 0
  let r := isqrt q
  f.roundSticky rm false r (e' / 2 - k) (!(exact && r * r == q))

/-- FRCP and DRCP: 1/a under RNE (R164). -/
def fRcp (f : FloatFormat) (a : Nat) : FResult :=
  match f.value a with
  | .nan s => (f.nan, nvIf s)
  | .inf n => (f.signed n 0, 0)
  | .fin n m e =>
    if m = 0 then (f.signed n (f.infMag.getD f.nan), flagDZ)
    else f.roundQuotient .rne n 1 m (-e)

/-- FRSQ and DRSQ: 1/√a under RNE (R164). -/
def fRsq (f : FloatFormat) (a : Nat) : FResult :=
  match f.value a with
  | .nan s => (f.nan, nvIf s)
  | .inf n => if n then (f.nan, flagNV) else (0, 0)
  | .fin n m e =>
    if m = 0 then (f.signed n (f.infMag.getD f.nan), flagDZ)
    else if n then (f.nan, flagNV)
    else f.roundRoot .rne 1 m (-e)

/-- FSQRT and DSQRT: √a under FPMODE.RM (R164). -/
def fSqrt (f : FloatFormat) (rm : Rounding) (a : Nat) : FResult :=
  match f.value a with
  | .nan s => (f.nan, nvIf s)
  | .inf n => if n then (f.nan, flagNV) else (a, 0)
  | .fin n m e =>
    if m = 0 then (a, 0)
    else if n then (f.nan, flagNV)
    else f.roundRoot rm m 1 e

/-! ## Exponential and logarithm -/

/-- The fraction bits of the fixed-point evaluation of FEXP2 and FLOG2. -/
def fixBits : Nat := 256

/-- The bits dropped as possibly wrong after a fixed-point evaluation. -/
def fixGuard : Nat := 24

/-- Sum of z^(2k+1)/(2k+1) in fixed point: `t` is the current power of z, `z2` its square. -/
def atanhSum (z2 : Nat) : Nat → Nat → Nat → Nat
  | 0, _, _ => 0
  | n + 1, t, k => t / (2 * k + 1) + atanhSum z2 n (t * z2 / 2 ^ fixBits) (k + 1)

/-- Natural logarithm of (1 + z)/(1 - z) in fixed point. -/
def lnFix (z : Nat) : Nat := 2 * atanhSum (z * z / 2 ^ fixBits) 90 z 0

/-- The natural logarithm of 2 in fixed point: z = 1/3. -/
def ln2Fix : Nat := lnFix (2 ^ fixBits / 3)

/-- Sum of y^k/k! in fixed point from term `k` on, `t` being the term before. -/
def expSum (y : Nat) : Nat → Nat → Nat → Nat
  | 0, t, _ => t
  | n + 1, t, k => t + expSum y n (t * y / 2 ^ fixBits / k) (k + 1)

/-- 2^x for a fixed-point x below 1. DEDUCED, log 71. -/
def exp2Fix (x : Nat) : Nat := expSum (x * ln2Fix / 2 ^ fixBits) 70 (2 ^ fixBits) 1

/-- Logarithm to base 2 of m/2^k, for 2^k ≤ m < 2^(k+1), in fixed point. DEDUCED, log 71. -/
def log2Fix (m k : Nat) : Nat :=
  let one := 2 ^ k
  lnFix ((m - one) * 2 ^ fixBits / (m + one)) * 2 ^ fixBits / ln2Fix

/-- FEXP2 (R165). DEDUCED, log 71. -/
def fExp2 (a : Nat) : FResult :=
  match fp32.value a with
  | .nan s => (fp32.nan, nvIf s)
  | .inf n => if n then (0, 0) else (fp32.signed false 0x7F800000, 0)
  | .fin n m e =>
    if m = 0 then fp32.round .rne (.fin false 1 0)
    else
      let (ip, inexact) := roundAt .rd n m e false 0
      let whole : Int := signedInt n ip
      if !n && 128 ≤ ip then (0x7F800000, flagOF ||| flagNX)
      else if n && 150 < ip then (0, flagUF ||| flagNX)
      else if !inexact then fp32.roundSticky .rne false 1 whole false
      else
        -- the part above the integer below, as a fixed-point number
        let d := (-e).toNat
        let frac := (signedInt n m - whole * 2 ^ d).toNat * 2 ^ fixBits / 2 ^ d
        let v := exp2Fix frac / 2 ^ fixGuard
        fp32.roundSticky .rne false v (whole - (fixBits - fixGuard : Nat)) true

/-- FLOG2 (R165). DEDUCED, log 71. -/
def fLog2 (a : Nat) : FResult :=
  match fp32.value a with
  | .nan s => (fp32.nan, nvIf s)
  | .inf n => if n then (fp32.nan, flagNV) else (a, 0)
  | .fin n m e =>
    if m = 0 then (fp32.signed true 0x7F800000, flagDZ)
    else if n then (fp32.nan, flagNV)
    else
      let k := bitLength m - 1
      let whole : Int := e + k
      if m = 2 ^ k then fp32.round .rne (.fin (decide (whole < 0)) whole.natAbs 0)
      else
        let x : Int := whole * 2 ^ fixBits + log2Fix m k
        let v := x.natAbs / 2 ^ fixGuard
        fp32.roundSticky .rne (decide (x < 0)) v (-((fixBits - fixGuard : Nat) : Int)) true

/-! ## Integer conversions -/

/-- CVTIF (R168). -/
def cvtIF (rm : Rounding) (uns : Bool) (a : Word32) : FResult :=
  let i : Int := if uns then a.toNat else a.toInt
  fp32.round rm (.fin (decide (i < 0)) i.natAbs 0)

/-- CVTFI (R168). -/
def cvtFI (rm : Rounding) (uns : Bool) (a : Nat) : FResult :=
  let lo : Int := if uns then 0 else -(2 ^ 31)
  let hi : Int := if uns then 2 ^ 32 - 1 else 2 ^ 31 - 1
  let high := if uns then 0xFFFFFFFF else 0x7FFFFFFF
  let low := if uns then 0 else 0x80000000
  match fp32.value a with
  | .nan _ => (0, flagNV)
  | .inf n => (if n then low else high, flagNV)
  | .fin n m e =>
    let (r, inexact) := roundAt rm n m e false 0
    let i := signedInt n r
    if hi < i then (high, flagNV)
    else if i < lo then (low, flagNV)
    else (((BitVec.ofInt 32 i).toNat), if inexact then flagNX else 0)

/-- CVTFD: FP32 to FP64, exact (R169). -/
def cvtFD (a : Nat) : FResult := fp64.round .rne (fp32.value a)

/-- CVTDF: FP64 to FP32 (R169). -/
def cvtDF (rm : Rounding) (a : Nat) : FResult := fp32.round rm (fp64.value a)

/-! ## Packed 16-bit operations -/

/-- The format of a packed operation (R167). -/
def packedFormat (bf : Bool) : FloatFormat := if bf then bf16 else fp16

/-- Applies an operation to both halves of a word; the flags of both are raised together (R167). -/
def packed2 (op : Nat → Nat → Nat → FResult) (a b c : Nat) : FResult :=
  let lo := op (a % 2 ^ 16) (b % 2 ^ 16) (c % 2 ^ 16)
  let hi := op (a / 2 ^ 16 % 2 ^ 16) (b / 2 ^ 16 % 2 ^ 16) (c / 2 ^ 16 % 2 ^ 16)
  (lo.1 + 2 ^ 16 * hi.1, lo.2 ||| hi.2)

/-! ## Format slots -/

/-- The element formats of a format slot (R83). -/
inductive ElemFormat where
  | fp32 | fp16 | bf16 | e4m3 | e5m2 | ds8 | int8 | fp64
deriving DecidableEq, Repr

/-- The element format of an FMT code (R83). -/
def ElemFormat.ofCode : Nat → Option ElemFormat
  | 1 => some .fp32 | 2 => some .fp16 | 3 => some .bf16 | 4 => some .e4m3
  | 5 => some .e5m2 | 6 => some .ds8 | 7 => some .int8 | 8 => some .fp64
  | _ => none

/-- The width in bits of an element. -/
def ElemFormat.bits : ElemFormat → Nat
  | .fp64 => 64 | .fp32 => 32 | .fp16 | .bf16 => 16 | _ => 8

/-- The floating-point format of an element, where it is one. -/
def ElemFormat.float? : ElemFormat → Option FloatFormat
  | .fp64 => some Machine.fp64 | .fp32 => some Machine.fp32 | .fp16 => some Machine.fp16
  | .bf16 => some Machine.bf16 | .e4m3 => some Machine.e4m3 | .e5m2 => some Machine.e5m2
  | .ds8 | .int8 => none

/-- The fields of a format slot (R83). -/
def slotFormat (w : Word32) : Option ElemFormat := ElemFormat.ofCode (w.toNat % 256)
def slotSat (w : Word32) : Bool := natBit w.toNat 11
def slotScaled (w : Word32) : Bool := natBit w.toNat 12
def slotRounding (w : Word32) : Rounding :=
  match w.toNat / 256 % 8 with
  | 0 => .rne | 1 => .rz | 2 => .ru | _ => .rd
/-- The scale exponent: E - 127, or 0 when SCALED = 0 (R85). -/
def slotScale (w : Word32) : Int := if slotScaled w then (w.toNat / 2 ^ 16 % 256 : Nat) - 127 else 0

/-- A format slot that R84 rejects. -/
def slotRejected (w : Word32) : Bool :=
  let n := w.toNat
  (slotFormat w).isNone || 4 ≤ n / 256 % 8 || n / 2 ^ 13 % 8 != 0 || n / 2 ^ 24 != 0
    || (slotScaled w && n / 2 ^ 16 % 256 == 255)

/-- A DS8 term in units of 2^-6 (R77). -/
def ds8Term (neg : Bool) (k : Nat) : Int := if k = 7 then 0 else signedInt neg (2 ^ (6 - k))

/-- The value of a DS8 code in units of 2^-6 (R77). -/
def ds8Value (c : Nat) : Int :=
  ds8Term (natBit c 7) (c / 16 % 8) + ds8Term (natBit c 3) (c % 8)

/-- The canonical codes of positive values, in the order R78 prefers them: single terms, same-signed
pairs, opposite-signed pairs. -/
def ds8Positive : List Nat :=
  ((List.range 7).map fun k => k * 16 + 7) ++
  ((List.range 7).flatMap fun ka => (List.range 7).filterMap fun kb =>
    if ka ≤ kb then some (ka * 16 + kb) else none) ++
  ((List.range 7).flatMap fun ka => (List.range 7).filterMap fun kb =>
    if ka < kb then some (ka * 16 + 8 + kb) else none)

/-- The canonical code of a DS8 value in units of 2^-6 (R78); zero's code where it has none. -/
def ds8Canonical (v : Int) : Nat :=
  if v = 0 then 0x77
  else
    match ds8Positive.find? fun c => ds8Value c == (v.natAbs : Int) with
    | some c =>
      if v < 0 then
        -- both terms change sign; an absent second term keeps sb = 0
        if c % 8 = 7 then c + 0x80 else (if c / 8 % 2 = 1 then c + 0x80 - 8 else c + 0x88)
      else c
    | none => 0x77

/-- The magnitudes DS8 represents, in units of 2^-6. -/
def ds8Magnitudes : List Nat := 0 :: ds8Positive.map fun c => (ds8Value c).natAbs

/-- The representable magnitude nearest to m·2^e, the smaller on a tie (R79). -/
def ds8Nearest (m : Nat) (e : Int) : Nat × Bool :=
  -- compare m·2^(e+6) with v on a common scale
  let s := e + 6
  let up := if 0 ≤ s then 2 ^ s.toNat else 1
  let down := if 0 ≤ s then 1 else 2 ^ (-s).toNat
  let x := m * up
  let dist := fun v : Nat => if x ≤ v * down then v * down - x else x - v * down
  match minBy (fun v => dist v * 512 + v) ds8Magnitudes with
  | some v => (v, dist v != 0)
  | none => (0, true)

/-- Conversion of a value to DS8 (R79). -/
def toDs8 : FVal → FResult
  | .nan _ => (0x77, flagNV)
  | .inf n => (if n then 0x88 else 0x00, flagNX)
  | .fin n m e =>
    let tooBig := if 0 ≤ e then decide (2 < m * 2 ^ e.toNat) else decide (2 * 2 ^ (-e).toNat < m)
    if tooBig then (if n then 0x88 else 0x00, flagOF ||| flagNX)
    else
      let (v, inexact) := ds8Nearest m e
      (ds8Canonical (signedInt n v), if inexact then flagNX else 0)

/-- The value of a code of an element format (R74 to R77). The zero of DS8 and INT8, which have one zero, counts as +0 in a
product. DEDUCED, log 120. -/
def ElemFormat.value (f : ElemFormat) (bits : Nat) : FVal :=
  match f with
  | .ds8 => let v := ds8Value bits; .fin (decide (v < 0)) v.natAbs (-6)
  | .int8 => let v := (BitVec.ofNat 8 bits).toInt; .fin (decide (v < 0)) v.natAbs 0
  | .fp64 => Machine.fp64.value bits
  | .fp32 => Machine.fp32.value bits
  | .fp16 => Machine.fp16.value bits
  | .bf16 => Machine.bf16.value bits
  | .e4m3 => Machine.e4m3.value bits
  | .e5m2 => Machine.e5m2.value bits

/-- A value times 2^k, exactly (R85). -/
def FVal.scale (k : Int) : FVal → FVal
  | .fin n m e => .fin n m (e + k)
  | v => v

/-- Conversion to INT8: clamp with NV alone, else NX when inexact (R86). -/
def toInt8 (rm : Rounding) : FVal → FResult
  | .nan _ => (0, flagNV)
  | .inf n => (if n then 0x80 else 0x7F, flagNV)
  | .fin n m e =>
    let (r, inexact) := roundAt rm n m e false 0
    let i := signedInt n r
    if 127 < i then (0x7F, flagNV)
    else if i < -128 then (0x80, flagNV)
    else ((BitVec.ofInt 8 i).toNat, if inexact then flagNX else 0)

/-- The result of a finite overflow that does not saturate (R86). -/
def ElemFormat.overflowResult (f : ElemFormat) (ff : FloatFormat) (rm : Rounding) (neg : Bool) : Nat :=
  match f with
  | .e4m3 => 0x7F
  | .e5m2 => ff.signed neg 0x7C
  | _ => ff.overflow rm neg

/-- The conversion of R86 into an element format. -/
def quantise (f : ElemFormat) (x : FVal) (rm : Rounding) (sat : Bool) : FResult :=
  match f.float? with
  | none => if f = .ds8 then toDs8 x else toInt8 rm x
  | some ff =>
    match x with
    | .nan s => (ff.nan, nvIf s)
    | .inf n =>
      if sat then (ff.signed n ff.maxMag, flagNX)
      else if f = .e4m3 then (0x7F, flagNV)
      else (ff.signed n (ff.infMag.getD ff.nan), 0)
    | .fin n m e =>
      if m = 0 then (ff.signed n 0, 0)
      else
        let (mag, inexact, tiny) := ff.roundMag rm n m e false
        if ff.maxMag < mag then
          (if sat then ff.signed n ff.maxMag else f.overflowResult ff rm n, flagOF ||| flagNX)
        else (ff.signed n mag,
          (if inexact then flagNX else 0) ||| (if tiny && inexact then flagUF else 0))

/-- A narrowing conversion into a slot (R86). -/
def narrow (slot : Word32) (f : ElemFormat) (rm : Rounding) (sat : Bool) (a : Nat) : FResult :=
  quantise f ((fp32.value a).scale (-(slotScale slot))) rm sat

/-- A widening conversion from a slot (R87). -/
def widen (slot : Word32) (f : ElemFormat) (bits : Nat) : FResult :=
  fp32.round .rne ((f.value bits).scale (slotScale slot))

/-- The error-feedback step (R88): the stored code, the new companion and the flags of the three steps. -/
def feedback (slot : Word32) (f : ElemFormat) (a e : Nat) : Nat × Nat × FFlags :=
  let s1 := fAdd fp32 .rne a e
  let v := fp32.value s1.1
  let rm := slotRounding slot
  let sat := slotSat slot
  match v with
  | .fin n m ex =>
    let q := quantise f ((FVal.fin n m ex).scale (-(slotScale slot))) rm sat
    match f.value q.1 with
    | .fin n' m' e' =>
      let (d, _) := (FVal.fin n m ex).add .rne ((FVal.fin n' m' e').scale (slotScale slot)).neg
      let r := fp32.round .rne d
      (q.1, r.1, s1.2 ||| q.2 ||| r.2)
    | _ => (q.1, 0, s1.2 ||| q.2)
  | _ =>
    let q := quantise f v rm sat
    (q.1, 0, s1.2 ||| q.2)

/-! ## Matrix accumulation -/

/-- The sum of the products of one chunk, exact (R92, R93). A sum that is exactly zero is -0 only where every product is -0:
the spec gives the sign of acc + s alone. DEDUCED, log 120. -/
def chunkSum : List (FVal × FVal) → FVal
  | [] => .fin true 0 0
  | (a, b) :: l => (((a.mul b).1).add .rne (chunkSum l)).1

/-- One accumulation: acc + s rounded once by RNE; the zero sum of R92. -/
def accumulate (f : FloatFormat) (acc : Nat) (s : FVal) : Nat :=
  (f.round .rne ((f.value acc).add .rne s).1).1

end Sys2Proof.Machine
end

