-- ==== Sys2Proof/Machine/State.lean ====
section
/-! DEFINITION. The state of the package as plain data: gangs, teams, cores, memory, caches, queues, host
interface and platform, with the state right after reset. -/

namespace Sys2Proof.Machine

/-! ## Traps and waits -/

/-- A trap as its record describes it (R326, R328, R329). -/
structure Trap where
  /-- code of R326 -/
  code : Nat
  /-- 0 to 5, or 0xFF at fetch -/
  slot : Nat := 0xFF
  /-- refusal reason (R110) -/
  reason : Nat := 0
  /-- group positions that raised it -/
  gmask : Nat := 0
  /-- offending lanes -/
  lmask : Nat := 0
  detail0 : Nat := 0
  detail1 : Nat := 0
  /-- LOG field, 32 bytes or nothing -/
  log : List Byte := []
deriving DecidableEq, Repr

/-- Why a bundle is not ready (R17). Copy deadlock (R40) tells some of these apart. -/
inductive Wait where
  /-- a source operand is empty (R26) -/
  | operand
  /-- a condition named as guard or source is pending, or a latch that the pop mask names is bound and empty
  (R25, R231) -/
  | pending
  /-- SYNC with a fixed-latency result in flight (R17) -/
  | sync
  /-- the matrix queue, divider, index port, copy unit or operand log is full -/
  | unitFull
  /-- the gang needs `n` registers that neither reserve nor pool holds (R39) -/
  | registers (n : Nat)
  /-- BARWT, or the wait of BARSYN, on a barrier (R214) -/
  | barrier (b : Nat)
  /-- HTAKE on an empty inbox slot (R253) -/
  | inboxEmpty (slot : Nat)
  /-- HGIVE or HSHARE on a full inbox slot of a gang (R252) -/
  | inboxFull (gid slot : Nat)
  /-- a fence, release or acquire in progress (R196, R281) -/
  | fence
  /-- anything else an instruction waits for -/
  | other
deriving DecidableEq, Repr

/-! ## Results in flight -/

/-- Where a fixed-latency result lands. -/
inductive RDest where
  | v (r : Nat)
  /-- FP64 pair: the value's low word to r, its high word to r + 1 (R48) -/
  | pair (r : Nat)
  /-- CVTN: bits lo to lo + width - 1 of each lane word (R172) -/
  | field (r lo width : Nat)
  | s (r : Nat)
  | p (r : Nat)
  | c (r : Nat)
  /-- WRSR (R135) -/
  | special (r : Nat)
  /-- TST: lane and first tile byte of its word (R198) -/
  | tile (words : List (Nat × Nat))
  /-- TLD into a register: lane and first tile byte, read at the landing (R198) -/
  | tileLoad (r : Nat) (words : List (Nat × Nat))
deriving DecidableEq, Repr

/-- A fixed-latency result in flight (R20, R22). -/
structure Flight where
  /-- bundle number times 8 plus the slot's place in field order -/
  seq : Nat
  unit : Slot
  /-- the beat it lands in -/
  land : Nat
  dest : RDest
  /-- lane or group position, and value -/
  vals : List (Nat × Nat)
  /-- group position and flags set at the landing (R156) -/
  flags : List (Nat × FFlags)
  /-- whether the unit's latch takes the value (R24) -/
  latch : Bool
  /-- group positions whose COLLIDE the landing sets (R182) -/
  collide : Nat
  /-- the write of an index job, which is no fixed-latency result (R179) -/
  indexed : Bool
deriving DecidableEq, Repr

/-- The destination of a long-latency operation (R25). -/
inductive LDest where
  | v (r : Nat)
  /-- an even pair, 8-byte loads (R188) -/
  | pair (r : Nat)
  | s (r : Nat)
  | c (r : Nat)
  /-- nothing is written: an access that only counts its elements -/
  | none
deriving DecidableEq, Repr

/-- A long-latency write pending (R25, R27). -/
structure Long where
  seq : Nat
  dest : LDest
  /-- values received so far: lane or group position, value -/
  vals : List (Nat × Nat)
  /-- elements still to arrive -/
  want : Nat
  /-- the cycle of the write, once everything has arrived -/
  due : Nat
  /-- the groups whose destination waits, for scalar and condition destinations -/
  groups : Nat
  /-- whether the write is an acquire at package scope (R281) -/
  acquire : Bool
  /-- the access of an operand-log entry, whose values for an ended group are discarded (R145) -/
  logged : Bool := false
deriving DecidableEq, Repr

/-! ## The operand log -/

/-- What an operand-log entry does when it is performed (R70, R188, R194). -/
inductive Access where
  | load (signed : Bool)
  | store
  | atomic (op : Nat) (scope : AtScope)
deriving DecidableEq, Repr

/-- One element of an access: lane or group position, address, data, compare's new value, and whether it has
been performed. -/
structure Elem where
  at_ : Nat
  addr : Nat
  data : Nat
  data2 : Nat
  performed : Bool
  /-- waiting on a recoverable fault (R264) -/
  faulted : Bool
deriving DecidableEq, Repr

/-- An entry of the operand log (R70, R190). -/
structure LogEntry where
  seq : Nat
  /-- entry number 0 to 7 -/
  num : Nat
  pos : Nat
  slot : Slot
  opcode : Nat
  width : Nat
  access : Access
  elems : List Elem
  /-- elements stand at group positions, not at lanes (R187) -/
  byGroup : Bool
  /-- the pending long write it feeds -/
  long : Option Nat
  /-- performed only after every entry of a lower sequence number than this (an ordering fence, R265) -/
  mark : Option Nat
  /-- performed only after these publications, which a release that only orders awaits (R289) -/
  pubs : List Nat
deriving DecidableEq, Repr

/-! ## Groups and gangs -/

/-- A queue-head latch of one group (R69, R220). -/
structure QLatch where
  queue : Option Nat
  /-- the held record, eight words -/
  held : Option (List Word32)
  next : Option (List Word32)
  /-- record numbers of the held and the prefetched record -/
  heldSeq : Nat
  nextSeq : Nat
  /-- claims on their way -/
  asked : Nat
deriving DecidableEq, Repr

/-- The first guard touch of a group (R68). -/
structure GuardTouch where
  lane : Nat
  position : Nat
  bank : Nat
deriving DecidableEq, Repr

/-- A sealed batch of copies (R206, R207). -/
structure Batch where
  number : Nat
  copies : List Nat
  /-- the cycle it retires in, once that is known -/
  retireAt : Option Nat
  /-- the release action of its retirement has begun (R281) -/
  releasing : Bool
  /-- its place among the gang's batches, in the order of their sealing (R289) -/
  order : Nat := 0
deriving DecidableEq, Repr

/-- The state of one group (R46). -/
structure Group where
  /-- number within the team -/
  number : Nat
  s : Cells 64
  /-- scalar registers that are empty, with the sequence number of the write awaited (R25, R27) -/
  sAwait : Tbl Nat
  /-- c1 to c7; bit 0 is not used, c0 reads true -/
  c : BitVec 8
  cAwait : Tbl Nat
  fpflags : BitVec 5
  fpmode : BitVec 2
  trapcode : BitVec 8
  guardPend : Bool
  collide : Bool
  visible : Bool
  /-- number of the last sealed batch (R56) -/
  batch : BitVec 16
  touch : Option GuardTouch
  /-- copies of the open batch -/
  openBatch : List Nat
  sealed : List Batch
  /-- CCHAIN waits for the next copy (R209) -/
  chain : Bool
  /-- the last copy issued, for CCHAIN -/
  lastCopy : Option Nat
  /-- CBIND's barrier (R210) -/
  bind : Option Nat
  /-- barrier tokens (R212) -/
  tokens : Tbl Nat
  qh : Tbl QLatch
deriving DecidableEq, Repr

/-- Handle states (R60). -/
inductive HState where
  | free | live | template | aliasRO | shadowPending
deriving DecidableEq, Repr

/-- What a handle entry names. -/
inductive HRef where
  | none
  /-- a tile-name record of the team -/
  | record (id : Nat)
  /-- tile number `tile` of the gang's template, in B-space or not (R35, R37) -/
  | template (bspace : Bool) (tile : Nat)
deriving DecidableEq, Repr

/-- A handle table entry (R60, R62). -/
structure HEntry where
  state : HState
  ref : HRef
  gen : BitVec 16
  /-- slots released through the entry: core, space, slot, record (R256) -/
  released : List (Nat × Bool × Nat × Nat)
deriving DecidableEq, Repr

/-- An entry of the reconvergence stack (R32). `resolve` says the position stands for the one after the
reference at the tag. -/
structure Reconv where
  mask : BitVec 4
  pos : Nat
  tag : Nat
  resolve : Bool
deriving DecidableEq, Repr

/-- A decoded entry as the decode table holds it: refused with its reason, or usable (R111). -/
inductive Decoded where
  /-- with the widths of the immediates its header declares -/
  | refused (reason : Nat) (widths : List Nat)
  | usable (e : Entry)
deriving DecidableEq, Repr

/-- A fetched next bundle (R102). -/
structure Fetched where
  index : Nat
  /-- position after the reference -/
  next : Nat
  entry : Decoded
  imms : List Word64
  /-- the entry was replaced in the decode table while the gang was not ready (R109) -/
  lost : Bool
deriving DecidableEq, Repr

/-- What fetch has for the gang's next position. -/
inductive Fetch where
  /-- fetch is due -/
  | idle
  /-- waiting for stream bytes -/
  | stream
  /-- waiting for the decode entry of an index -/
  | entry (index : Nat)
  /-- waiting for a translation of the stream, with the position after the reference where its length is known -/
  | walk (next : Nat)
  | bundle (b : Fetched)
  /-- the STOP escape (R101) -/
  | stop
  /-- a trap that fetch found at the position, with the position after the reference where its length is known (R345) -/
  | trap (t : Trap) (next : Nat)
deriving DecidableEq, Repr

/-- A release or acquire action in progress (R196, R274, R281). -/
structure SyncOp where
  releases : Bool
  drops : Bool
  /-- log entries with a lower sequence number are to be performed first -/
  logMark : Nat
  /-- 0 waits for the log and for earlier write-backs, 1 waits for HORIZON, 2 drops -/
  stage : Nat
  /-- write-backs that had left the core before the release began (R274 step 1) -/
  waitFor : List Nat
  /-- publications the gang had asked for before it (R289) -/
  pubs : List Nat
  /-- the cycle the drop ends -/
  dropAt : Nat
  /-- what waits for the release, as identifiers in the pending table, each with the publications it awaits (R289) -/
  after : List (Nat × List Nat)
deriving DecidableEq, Repr

/-- What a group waits to do once a release is complete. -/
inductive AfterRelease where
  /-- a queue push leaves the core -/
  | push (id : Nat)
  /-- a LAUNCH is submitted -/
  | launch (id : Nat)
  /-- a barrier arrival leaves -/
  | arrival (id : Nat)
  /-- a publication's eight cycles begin -/
  | publish (gid team record pub : Nat)
  /-- a batch retires -/
  | retire (gid group number : Nat)
  /-- an MBOX exchange begins -/
  | mbox (gid group : Nat)
deriving DecidableEq, Repr

/-- A template: the launch's grid template, or a team's (R38). -/
structure TemplateKey where
  launch : Nat
  team : Option Nat
deriving DecidableEq, Repr

/-- An inbox delivery: record and the state delivered (R252). -/
structure Delivered where
  ref : HRef
  state : HState
deriving DecidableEq, Repr

/-- What keeps a gang from issuing between bundles. -/
inductive Park where
  | none
  /-- a trap was taken; the gang waits for its handler run (R327) -/
  | trapped
  /-- a push of the gang is held at the Hive (R218) -/
  | push
  /-- FREEZE issued; the gang waits to take its snapshot (R34) -/
  | freezing
  /-- the groups have ended; the gang leaves when its work has drained (R145) -/
  | ending
  /-- stopped by a hard pre-emption (R338) -/
  | stopped
  /-- stopped as its team is killed or restarted, while what R335 lets complete completes -/
  | killed
  /-- waits for its template, for its team's prologue group or for its restore (R37, R38, R342) -/
  | install
  /-- FREEZE has taken its snapshot, and its time runs (R34) -/
  | frozen
  /-- the gang has left its seat; its record stands until its team completes (R145, R324) -/
  | ended
deriving DecidableEq, Repr

/-- The state of one gang (R22, R45). -/
structure Gang where
  team : Nat
  launch : Nat
  context : Nat
  core : Nat
  /-- 0 to 15, or 16 for the handler seat -/
  seat : Nat
  /-- the gang holds its seat; a saved gang holds none -/
  seated : Bool
  handler : Bool
  /-- dispatched as the grid prologue, or alone as group 0 of a team prologue (R34, R38) -/
  prologue : Bool
  teamPrologue : Bool
  /-- lanes of a group -/
  width : Nat
  /-- groups by group position -/
  groups : Tbl Group
  active : BitVec 4
  /-- position of the next reference -/
  pos : Nat
  /-- the position is a tag whose reference is to be passed over first (R32) -/
  resolving : Bool
  fetch : Fetch
  /-- bundles folded since the last issue (R29) -/
  folded : Nat
  v : Cells 32
  vAwait : Tbl Nat
  /-- MODEL: the beat in which a long write last filled a vector register (R180) -/
  vFilled : Tbl Nat
  /-- vector registers still inherited from the template (R39) -/
  inherited : BitVec 64
  /-- private registers held, and the reserve not yet drawn (R39) -/
  privates : Nat
  reserve : Nat
  template : Option TemplateKey
  /-- p1 to p7 by number -/
  p : Cells 64
  lS : Cells 64
  lV0 : Cells 32
  lV1 : Cells 32
  lC0 : Cells 32
  lC1 : Cells 32
  /-- scalar results held in L.C0 and L.C1 by group position, with the groups that hold one (R99) -/
  lC0s : Cells 64
  lC1s : Cells 64
  lC0tag : BitVec 4
  lC1tag : BitVec 4
  handles : Tbl HEntry
  inbox : Tbl Delivered
  log : List LogEntry
  /-- number the next entry takes, if that is free -/
  logNext : Nat
  flights : List Flight
  longs : Tbl Long
  reconv : List Reconv
  returns : List Nat
  horizon : Nat
  dictmiss : Nat
  cls : Nat
  /-- cycle of the last issue, nothing before the first since dispatch, restore or resume (R18, R19) -/
  lastIssue : Option Nat
  /-- the cycle from which aging is counted (R19) -/
  agedFrom : Nat
  aged : Bool
  /-- the gang issues no earlier than this cycle (R30 empty beats) -/
  emptyUntil : Nat
  wake : Nat
  /-- YIELD: seats still to issue and the cycle it ends at the latest (R147) -/
  yieldTo : List Nat
  yieldUntil : Option Nat
  sync : Option SyncOp
  park : Park
  /-- why the next bundle is not ready, as last judged -/
  wait : Option Wait
  /-- barrier whose flip BARSYN's next bundle awaits, with the groups that wait (R214) -/
  syncBar : List (Nat × Nat)
  /-- the trap that parks the gang -/
  trap : Option Trap
  trapPos : Nat
  trapNext : Nat
  /-- PAGE found, to be raised at the next bundle boundary (R266): owner position and trap -/
  page : List (Nat × Trap)
  /-- bank numbers allotted on the core (R65) -/
  banks : List Nat
  /-- pushes of the gang held at the Hive -/
  heldPushes : Nat
  /-- an ordering fence stands before later accesses (R196), and a release among them awaits these publications (R289) -/
  orderMark : Option Nat
  orderPubs : List Nat
  /-- STL writes on their way (R216, R347) -/
  stls : List Nat
  /-- publications issued and not yet made (R289) -/
  pubs : List Nat
  /-- single-step or breakpoint already reported for this bundle (R326, R394) -/
  breakDone : Bool
  /-- BREAK is due before the following bundle (R326) -/
  breakNext : Bool
deriving DecidableEq, Repr

/-! ## Teams, launches and contexts -/

/-- A publication asked for (R255): its identifier, the gang that asked, the copies it waits for, the publications the gang
asked for before it (R289), whether its release action is complete, the earliest cycle from which its eight cycles count,
and its cycle once known. -/
structure Publish where
  id : Nat
  gid : Nat
  released : Bool
  waits : List Nat
  pubs : List Nat
  since : Nat
  due : Option Nat
deriving DecidableEq, Repr

/-- A tile-name record (R60, R246, R247). -/
structure TileRecord where
  bspace : Bool
  /-- generation: the GEN of the entry it was made through (R60, R250) -/
  gen : BitVec 16
  /-- current slot by core -/
  slots : Tbl Nat
  /-- shadow slot by core -/
  shadows : Tbl Nat
  /-- publications asked for and not made (R255) -/
  publishing : List Publish
deriving DecidableEq, Repr

/-- A barrier of a team (R212). -/
structure Barrier where
  expectG : Nat
  expectN : Nat
  leftG : Nat
  leftN : Nat
  phase : Nat
  overrun : Bool
  arrived : BitVec 64
  /-- the cycle of the last flip, and the phase as that cycle found it: waits end in the cycle after a flip (R216) -/
  flipAt : Nat
  phaseWas : Nat
deriving DecidableEq, Repr

/-- Where a team stands in its life (R316 to R325, R336 to R342). -/
inductive TeamPhase where
  | pending | placed | stopping | saved | restoring | killed | done
deriving DecidableEq, Repr

/-- What FREEZE has recorded of a template (R34): its position, and its tiles in each space. -/
structure Frozen where
  pos : Nat
  tilesA : Nat
  tilesB : Nat
deriving DecidableEq, Repr

/-- The launch record's fields (R314) with the state of the launch (R316). -/
structure Launch where
  context : Nat
  stream : Nat
  dict : Nat
  entry : Nat
  args : Nat
  /-- grid extents -/
  nx : Nat
  ny : Nat
  nz : Nat
  /-- groups of a team -/
  groups : Nat
  width : Nat
  pair : Bool
  guardMode : Bool
  idempotent : Bool
  cls : Nat
  lease : Nat
  fired : Bool
  teamPro : Bool
  /-- first-fit placement with a blocking head (R304, R314) -/
  strict : Bool
  decodeQuota : Nat
  quotaA : Nat
  quotaB : Nat
  banks : Nat
  reserve : Nat
  pad : Nat
  /-- the eight format slots (R83) -/
  formats : List Word32
  handlerImage : Nat
  segBase : Nat
  segSize : Nat
  /-- the template segment is sealed (R42) -/
  segSealed : Bool
  completion : Nat
  /-- soft pre-emption deadline in microseconds (R314, R336) -/
  softLimit : Nat
  /-- the dictionary's pin list (R105), and that of the handler image's dictionary -/
  pins : List Nat
  handlerPins : List Nat
  count : Nat
  /-- span of the context's template area (R35) -/
  span : Option (Nat × Nat)
  /-- the grid template, once FREEZE has recorded it -/
  frozenAt : Option Frozen
  /-- 0 prologue pending, 1 prologue running, 2 dispatching, 3 all teams handed over, 4 completed while a handler run goes on -/
  stage : Nat
  /-- next team to be handed over -/
  cursor : Nat
  /-- teams completed -/
  done : Nat
  status : Nat
  /-- QBATCH of a fired launch -/
  qbatch : Nat
  /-- a PREEMPT of the launch is in force (R336) -/
  preempted : Bool
  /-- firing queue of a consumer grid (R301) -/
  queue : Option Nat
  /-- addresses of the record and of the handler image's stream and dictionary with its entry (R331) -/
  record : Nat
  handler : Option (Nat × Nat × Nat)
deriving DecidableEq, Repr

/-- A context (R376): its partition, page table, areas and privilege. -/
structure Context where
  partition : Nat
  root : Nat
  trapArea : Nat
  saveArea : Nat
  templateBase : Nat
  templateSize : Nat
  privileged : Bool
  /-- spans of the template area in use: base and size (R35) -/
  spans : List (Nat × Nat)
  /-- spans of the save area in use: offset and size (R340) -/
  saves : List (Nat × Nat)
  /-- dictionaries already checked: address and digest (R106) -/
  checked : List (Nat × Nat)
deriving DecidableEq, Repr

/-! ## Memory units -/

/-- What an access asks of a page (R261). -/
inductive Need where
  | read | write | fetch | atomic (op : Nat)
deriving DecidableEq, Repr

/-- An entry of a TLB (R262): a page of a context. -/
structure TlbEntry where
  context : Nat
  base : Nat
  size : Nat
  /-- 0 device, 1 CXL, 2 host, 3 peer -/
  kind : Nat
  frame : Nat
  sys : Bool
  exec : Bool
  write : Bool
deriving DecidableEq, Repr

/-- Who waits for a translation. -/
inductive Client where
  /-- an operand-log entry of a gang -/
  | log (gid seq : Nat)
  | copy (id : Nat)
  | fetch (gid : Nat)
  | refill (core id : Nat)
  | queue (q : Nat)
  /-- a launch record's submission (R315) -/
  | submit (id : Nat)
  /-- a team whose save meets a fault (R338) -/
  | save (team : Nat)
  /-- a ring command whose own bytes meet a fault -/
  | command (hsn : Nat)
deriving DecidableEq, Repr

/-- A walk running or waiting on a die's walker (R262). -/
structure Walk where
  core : Nat
  context : Nat
  /-- an address of the page -/
  addr : Nat
  /-- the cycle it ends, once it has started -/
  due : Option Nat
  clients : List Client
deriving DecidableEq, Repr

/-- A recoverable fault reported to the supervisor (R264). -/
structure FaultRec where
  core : Nat
  context : Nat
  addr : Nat
  /-- size of the page it concerns -/
  size : Nat := 2 ^ 16
  clients : List Client
deriving DecidableEq, Repr

/-- A line of an L1 (R268). -/
structure Line where
  bytes : Cells 8
  valid : BitVec 128
  dirty : BitVec 128
  /-- expiry of the clean bytes; nothing for a sealed template segment (R42, R271) -/
  expiry : Option Nat
  /-- when it last turned from clean to dirty (R273) -/
  since : Nat
deriving DecidableEq, Repr

/-- A load or L1 atomic waiting for a line: its gang, pending write and element (R268, R290). -/
structure Waiter where
  gid : Nat
  long : Nat
  at_ : Nat
  offset : Nat
  width : Nat
  signed : Bool
  /-- an atomic's operation with its operands -/
  atomic : Option (Nat × Nat × Nat)
  /-- a store's bytes, when it follows an access that waits (R191) -/
  store : Option (List Byte)
  /-- bytes of the access that were dirty in the line when it joined, by offset (R191) -/
  have_ : List (Nat × Byte)
deriving DecidableEq, Repr

/-- A fetch of a line from its home slice in flight (R290). -/
structure LineFetch where
  /-- line number: memory key divided by 128 -/
  line : Nat
  due : Nat
  /-- the line is not kept (R270) -/
  bypass : Bool
  lease : Nat
  /-- the line belongs to a sealed template segment (R271) -/
  sealedLine : Bool
  waiters : List Waiter
deriving DecidableEq, Repr

/-- Why a write-back was made (R273, R270, R276). -/
inductive WbCause where
  /-- a release of a gang -/
  | gang (gid : Nat)
  /-- a store of a gang to a SYS page -/
  | sys (gid : Nat)
  /-- eviction, time-out, or the word of an atomic that leaves for its home -/
  | core
deriving DecidableEq, Repr

/-- A write on its way to its home slice (R273). -/
structure WriteBack where
  core : Nat
  line : Nat
  bytes : List (Nat × Byte)
  cause : WbCause
  due : Nat
deriving DecidableEq, Repr

/-- Atomics on their way to the unit that performs them (R276). -/
structure HomeAtomic where
  core : Nat
  gid : Nat
  long : Nat
  op : Nat
  /-- lane, memory key, operand, new value of ATCAS -/
  elems : List (Nat × Nat × Nat × Nat)
  due : Nat
deriving DecidableEq, Repr

/-- The leases a home slice remembers for a line (R272). -/
structure HomeLine where
  latest : Nat
  core : Nat
  other : Nat
deriving DecidableEq, Repr

/-! ## Units of a core -/

/-- A division accepted by the divider (R130). -/
structure DivJob where
  gid : Nat
  long : Nat
  due : Nat
  accept : Nat
deriving DecidableEq, Repr

/-- A register-index job (R180). -/
structure IndexJob where
  gid : Nat
  seq : Nat
  /-- VRDX's destination; nothing for VWRX -/
  dest : Option Nat
  /-- registers by lane, for every active lane -/
  names : List (Nat × Nat)
  effective : BitVec 64
  /-- VWRX's data by lane; VRDX's values as they are read -/
  vals : List (Nat × Nat)
  /-- registers VWRX does not write because a later slot of its bundle does (R182) -/
  skip : List Nat
  /-- D as VRDX found it, for lanes that name it (R181) -/
  old : List (Nat × Nat)
  collide : Nat
  /-- banks still to read, and the beat the job lands once they are read -/
  banks : List Nat
  started : Bool
  /-- the beat of its issue, and what its first bank's registers held as its bundle found them: nothing while one that an
  effective lane names was empty (R180) -/
  issued : Nat
  first : Option (List (Nat × Nat))
  /-- the port found a register of its next bank empty at that bank's beat (R180) -/
  blocked : Bool
deriving DecidableEq, Repr

/-- A matrix operation (R243). -/
inductive MatKind where
  | mma (zeroFirst transposed : Bool) (k : Nat) (a b : ElemFormat) (sa sb : Int)
  | drain (add : Bool)
  | fill
  | zero
deriving DecidableEq, Repr

structure MatOp where
  gid : Nat
  team : Nat
  kind : MatKind
  /-- the bank on the core, and the other bank of its pair in the gang's allotment (R239) -/
  phys : Nat
  other : Nat
  /-- the gang names the odd bank of the pair -/
  odd : Bool
  /-- tiles bound at issue: space, slot, record (R245) -/
  src : Option (Bool × Nat × Option Nat)
  srcB : Option (Nat × Option Nat)
  dst : Option (Bool × Nat × Option Nat)
  /-- the slots that the destination's record held at issue on other cores (R248) -/
  partners : List (Nat × Nat) := []
  /-- the slot a copy-on-write of the destination copies from (R41) -/
  cowFrom : Option Nat
  /-- cycles it runs -/
  dur : Nat
  /-- it starts no earlier than this cycle -/
  notBefore : Nat
  /-- number of its issuing slot -/
  seq : Nat
deriving DecidableEq, Repr

/-- The owner of an operand-store slot. -/
inductive SlotOwner where
  | record (team id : Nat)
  | template (index : Nat)
  | pad (team : Nat)
deriving DecidableEq, Repr

/-- A template held in a core's bank (R37). -/
structure BankTemplate where
  key : TemplateKey
  /-- vector registers by register * 64 + lane -/
  v : Cells 32
  s : Cells 64
  p : Cells 64
  c : BitVec 8
  fpmode : BitVec 2
  /-- handle entries: number, in B-space, tile -/
  handles : List (Nat × Bool × Nat)
  /-- slot of each tile -/
  tiles : List (Bool × Nat)
  used : Nat
  /-- installed, or the cycle it will be -/
  due : Option Nat
deriving DecidableEq, Repr

/-- A decode-table entry (R107, R109). -/
structure DecodeEntry where
  launch : Nat
  dict : Nat
  index : Nat
  entry : Decoded
deriving DecidableEq, Repr

/-- A refill running or waiting (R108). -/
structure Refill where
  launch : Nat
  context : Nat
  dict : Nat
  index : Nat
  handler : Bool
  /-- started: its cycle of install, once translated -/
  running : Bool
  due : Option Nat
  /-- installing waits for an unpinned place (R109) -/
  stalled : Bool
  prewarm : Bool
  /-- the teams whose restore waits for it (R355) -/
  teams : List Nat
  decoded : Option Decoded
deriving DecidableEq, Repr

/-- A line of the stream cache (R103). -/
structure StreamLine where
  context : Nat
  line : Nat
  bytes : List Byte
deriving DecidableEq, Repr

/-- A stream-cache fill in flight. -/
structure StreamFill where
  context : Nat
  line : Nat
  key : Nat
  due : Nat
deriving DecidableEq, Repr

/-- Power states of a core (R389). -/
inductive Power where
  | a0 | a1 | a2
deriving DecidableEq, Repr

/-- The mailbox and debug registers of a core (R394). -/
structure Debug where
  outw : Word64
  inw : Word64
  outFull : Bool
  inFull : Bool
  bp : Tbl Nat
  step : Word64
  pmsel : Tbl Nat
  pmcnt : Tbl Nat
  /-- counter values the host has written in this cycle (R395) -/
  pmwritten : Tbl Nat
deriving DecidableEq, Repr

/-- The Cicada monitor's exchange with the host (R396): the sequence number and words of its last answer, and
a WRITE whose value is still to come: sequence number, item, selector, lane. -/
structure Monitor where
  seq : Option Nat
  reply : List Word64
  pending : Option (Nat × Nat × Nat × Nat)
  /-- reply words still to be written to OUTW -/
  out : List Word64
  /-- the value of a WRITE waits in INW for a register that the run is parked for (R224) -/
  waits : Bool
deriving DecidableEq, Repr

/-- A handler run in seat 16 (R331): its gang and the gang it serves. -/
structure HandlerRun where
  gid : Nat
  served : Option Nat
  /-- the stream position was written with item 0x43 (R225) -/
  moved : Bool
deriving DecidableEq, Repr

/-- A gang parked for registers (R39, R44), or a handler run parked for a register of the gang it serves (R224): the gang
whose inherited registers its bundle writes, and these registers. -/
structure Parked where
  gid : Nat
  owner : Nat
  regs : BitVec 64
deriving DecidableEq, Repr

/-- The state of one core. -/
structure Core where
  /-- seats 0 to 16 and the gangs in them -/
  seats : Tbl Nat
  decode : List DecodeEntry
  handlerTable : List DecodeEntry
  /-- quota of each launch on the core, oldest placement first (R107, R353) -/
  quotas : List (Nat × Nat)
  refills : Tbl Refill
  streamCache : List StreamLine
  streamFills : Tbl StreamFill
  tlb : List TlbEntry
  l1 : Tbl Line
  fetches : Tbl LineFetch
  /-- eviction horizon (R274) -/
  evictHorizon : Nat
  /-- free registers of the pool (R56) -/
  pool : Nat
  /-- gangs parked for registers, oldest first, and the registers held for the first of them (R44) -/
  parked : List Parked
  held : Nat
  /-- owned operand-store slots by space * 512 + slot (R57, R58) -/
  slots : Tbl SlotOwner
  /-- the context whose tile each slot last held (R250) -/
  slotContext : Tbl Nat
  /-- accumulator kinds by bank: F32 0, I32 1, F64 2 (R239) -/
  kinds : Tbl Nat
  bankOwner : Tbl Nat
  matQueue : List MatOp
  matRun : Option (MatOp × Nat)
  divider : List DivJob
  index : List IndexJob
  /-- the first beat in which the index port reads its next bank (R180) -/
  indexAt : Nat
  /-- index jobs withdrawn by HALT until RESUME, in queue order (R393) -/
  setAside : List IndexJob
  templates : Tbl BankTemplate
  /-- trapped gangs, oldest first (R332) -/
  trapped : List Nat
  run : Option HandlerRun
  /-- MBOX exchanges waiting: gang, group, long, value sent -/
  mbox : List (Nat × Nat × Nat × Option Word64)
  power : Power
  /-- no bundle of the core issues before this cycle, after an exit from A1 (R390) -/
  wakeAt : Nat
  /-- last cycle with work, for A1 -/
  idleFrom : Nat
  /-- MODEL: the last cycle in which a gang of the core was ready or was to trap (R395) -/
  readyAt : Option Nat
  /-- the Cicada monitor's exchange, while a run serves the host with it (R396) -/
  monitor : Option Monitor
  dbg : Debug
  /-- decode-table event counts 0x20 to 0x25 (R356) -/
  counts : Tbl Nat
deriving DecidableEq, Repr

/-- A core that holds nothing. DESIGN CHOICE, log 6, 8, 9, 10. -/
def Core.reset : Core where
  seats := []
  decode := []
  handlerTable := []
  quotas := []
  refills := []
  streamCache := []
  streamFills := []
  tlb := []
  l1 := []
  fetches := []
  evictHorizon := 0
  pool := 1024
  parked := []
  held := 0
  slots := []
  slotContext := []
  kinds := []
  bankOwner := []
  matQueue := []
  matRun := none
  divider := []
  index := []
  indexAt := 0
  setAside := []
  templates := []
  trapped := []
  run := none
  mbox := []
  power := .a0
  wakeAt := 0
  idleFrom := 0
  readyAt := none
  monitor := none
  dbg := { outw := 0, inw := 0, outFull := false, inFull := false, bp := [], step := 0,
             pmsel := [], pmcnt := [], pmwritten := [] }
  counts := []

/-! ## Copies, pushes and deliveries -/

/-- What a copy moves (R202). -/
inductive CopyKind where
  /-- CPY, CPYB, CPYM: global rows to a tile shadow -/
  | toTile
  /-- CPYO: a tile slot to global rows -/
  | fromTile
  /-- CPYG and the host's COPY -/
  | global
  /-- CPYL: tile to tile -/
  | tileTile
deriving DecidableEq, Repr

/-- A copy in flight (R200 to R211). -/
structure Copy where
  core : Nat
  gid : Nat
  group : Nat
  context : Nat
  team : Nat
  /-- sequence number of the issuing slot -/
  seq : Nat
  pos : Nat
  slot : Slot
  kind : CopyKind
  /-- global addresses; a tile copy uses the one its kind needs -/
  src : Nat
  dst : Nat
  bytes : Nat
  stride : Int
  rows : Nat
  rowBytes : Nat
  /-- first row and byte offset on the source and on the destination tile -/
  srcRow : Nat
  srcOfs : Nat
  dstRow : Nat
  dstOfs : Nat
  /-- source tile slot bound at issue: space, slot, record -/
  srcTile : Option (Bool × Nat × Option Nat)
  /-- destination record, its space, and the shadow slots written, by core -/
  record : Option Nat
  bspace : Bool
  shadows : Tbl Nat
  /-- the copy made the shadow; it made a copy-on-write first (R203) -/
  fresh : Bool
  cow : Bool
  /-- auto-publish (R207) -/
  publish : Bool
  bind : Option Nat
  /-- starts only after this copy (R209) -/
  after : Option Nat
  /-- 0 waiting to start or to translate, 1 moving, 2 on the way to its destination's home, 3 waiting for its
  completion times, 4 complete, 5 its batch has retired and its publication is due, 6 a ring command's copy that a
  fault ended, at the address in `due`, 7 its batch has retired and its shadow is still to be published (R338) -/
  stage : Nat
  due : Nat
  gct : Nat
  /-- what has been read, row after row -/
  data : List Byte
  /-- its bytes have landed (R204), and how many of them its barrier counted (R341) -/
  landed : Bool
  counted : Nat := 0
  /-- the ring command that issued it -/
  hsn : Option Nat
  /-- number of its batch, once that has retired -/
  batchNo : Nat
  /-- pages translated so far, and how many 64 KiB granules they cover in order (R205) -/
  pages : List TlbEntry
  checked : Nat
  /-- the opcode, for a save (R340) -/
  opcode : Nat
deriving DecidableEq, Repr

/-- A record pushed to a queue (R218, R298). -/
structure Push where
  queue : Nat
  words : List Word32
  /-- gang, group position, and QPUSHN's condition destination -/
  gid : Option Nat
  group : Nat
  long : Option Nat
  /-- QPUSH is held when refused; QPUSHN and the host are not -/
  holds : Bool
  core : Option Nat
  arrival : Nat
  left : Nat
  hsn : Option Nat
  /-- its refusal has reached the gang's core, which is parked for it (R218) -/
  refused : Bool
deriving DecidableEq, Repr

/-- A barrier arrival on its way (R216). -/
structure Arrival where
  team : Nat
  bar : Nat
  group : Nat
  gid : Nat
  core : Nat
  /-- STLs and publications before it (R289, R347) -/
  stls : List Nat
  pubs : List Nat
  /-- the release action is complete -/
  released : Bool
  /-- it reached the unit while its group's bit was set, and waits for the flip (R214) -/
  stuck : Bool
  due : Option Nat
deriving DecidableEq, Repr

/-- A record on its way to an inbox (R249). -/
structure InboxMsg where
  gid : Nat
  slot : Nat
  what : Delivered
deriving DecidableEq, Repr

/-- A tile fill or write over the pair bridge, and the cycle it is made in (R247, R248). -/
structure BridgeJob where
  team : Nat
  record : Nat
  core : Nat
  /-- destination slot -/
  bspace : Bool
  slot : Nat
  /-- bytes written, by offset; nothing copies the source slot whole -/
  bytes : Option (List (Nat × Byte))
  from_ : Nat × Nat
  due : Nat
deriving DecidableEq, Repr

/-- A slot being cleared for HALLOC (R250). -/
structure ClearJob where
  team : Nat
  record : Nat
  core : Nat
deriving DecidableEq, Repr

/-- A write to the pad on its way (R193). -/
structure PadWrite where
  gid : Nat
  team : Nat
  bytes : List (Nat × Byte)
deriving DecidableEq, Repr

/-! ## Events -/

/-- The events that stand in the agenda and among the inputs, named as the instructions of the same names. -/
inductive Event where
  /-- STREAM_FETCH (R103) -/
  | streamFetch (gid : Nat)
  /-- STREAM_CACHE_FILL (R103) -/
  | streamCacheFill (core : Nat) (fill : Nat)
  /-- REFILL_INSTALL (R108) -/
  | refillInstall (core : Nat) (refill : Nat)
  /-- STARVATION_BOUND (R19) -/
  | starvationBound (gid : Nat)
  /-- RESULT_LANDING (R20) -/
  | resultLanding (core : Nat)
  /-- LONG_WRITE_FILL (R71) -/
  | longWriteFill (gid : Nat) (write : Nat)
  /-- DIVIDER_RESULT (R130) -/
  | dividerResult (core : Nat)
  /-- INDEX_JOB_LAND (R180) -/
  | indexJobLand (core : Nat)
  /-- MATRIX_OP_START (R243) -/
  | matrixOpStart (core : Nat)
  /-- MATRIX_OP_COMPLETE (R243) -/
  | matrixOpComplete (core : Nat)
  /-- TEMPLATE_INSTALL (R37) -/
  | templateInstall (core : Nat) (install : Nat)
  /-- FREEZE_SNAPSHOT (R34) -/
  | freezeSnapshot (gid : Nat)
  /-- GANG_END (R145) -/
  | gangEnd (gid : Nat)
  /-- COPY_DEADLOCK (R40) -/
  | copyDeadlock (core : Nat)
  /-- SLEEP_WAKE (R148) -/
  | sleepWake (gid : Nat)
  /-- YIELD_EXPIRY (R147) -/
  | yieldExpiry (gid : Nat)
  /-- STL_LAND (R193) -/
  | stlLand (gid : Nat) (write : Nat)
  /-- TLB_WALK_DONE (R262) -/
  | tlbWalkDone (die : Nat) (walk : Nat)
  /-- FAULT_RESOLUTION (R264) -/
  | faultResolution (fault : Nat) (success : Bool)
  /-- PAGE (R266) -/
  | page (gid : Nat)
  /-- L1_FILL (R268) -/
  | l1Fill (core : Nat) (fetch : Nat)
  /-- LEASE_EXPIRY (R271) -/
  | leaseExpiry (core : Nat) (line : Nat)
  /-- DIRTY_TIMEOUT (R273) -/
  | dirtyTimeout (core : Nat) (line : Nat)
  /-- WRITEBACK_ARRIVAL (R273) -/
  | writebackArrival (writeback : Nat)
  /-- ATOMIC_AT_HOME (R276) -/
  | atomicAtHome (atomic : Nat)
  /-- RELEASE_WAIT_END (R274) -/
  | releaseWaitEnd (gid : Nat)
  /-- ACQUIRE_DROP (R275) -/
  | acquireDrop (core : Nat) (gid : Nat)
  /-- COPY_COMPLETION (R211) -/
  | copyCompletion (copyId : Nat)
  /-- BATCH_RETIREMENT (R207) -/
  | batchRetirement (gid : Nat) (group : Nat)
  /-- AUTO_PUBLISH (R207) -/
  | autoPublish (copyId : Nat)
  /-- PUBLISH_SWAP (R255) -/
  | publishSwap (team : Nat) (record : Nat)
  /-- INBOX_DELIVERY (R249) -/
  | inboxDelivery (delivery : Nat)
  /-- BARRIER_ARRIVAL (R216) -/
  | barrierArrival (arrival : Nat)
  /-- PUSH_ARRIVAL (R298) -/
  | pushArrival (push : Nat)
  /-- PUSH_REFUSAL (R218) -/
  | pushRefusal (push : Nat)
  /-- HELD_PUSH_ACCEPT (R298) -/
  | heldPushAccept (queue : Nat)
  /-- QARM_UPDATE (R221) -/
  | qarmUpdate (update : Nat)
  /-- LATCH_DELIVERY (R220) -/
  | latchDelivery (delivery : Nat)
  /-- REFILL_BURST_START (R297) -/
  | refillBurstStart (queue : Nat)
  /-- REFILL_BURST_LANDING (R312) -/
  | refillBurstLanding (queue : Nat)
  /-- AGE_TRIGGER (R299) -/
  | ageTrigger (queue : Nat)
  /-- FIRING (R300) -/
  | firing (die : Nat)
  /-- PROLOGUE_DISPATCH (R317) -/
  | prologueDispatch (launch : Nat)
  /-- TEAM_PLACEMENT (R320) -/
  | teamPlacement (die : Nat) (team : Nat)
  /-- TEAM_COMPLETION (R324) -/
  | teamCompletion (team : Nat)
  /-- HANDLER_RUN_START (R332) -/
  | handlerRunStart (core : Nat)
  /-- SOFT_DEADLINE (R336) -/
  | softDeadline (team : Nat)
  /-- SAVE_COMPLETE (R338) -/
  | saveComplete (team : Nat)
  /-- SAVE_TIMEOUT (R343) -/
  | saveTimeout (team : Nat)
  /-- RESTORE (R342) -/
  | restore (team : Nat)
  /-- DOORBELL (R375) -/
  | doorbell (value : Word64)
  /-- RESYNC (R377) -/
  | resync (value : Word64)
  /-- ACK_SEQ (R380) -/
  | ackSeq (value : Word64)
  /-- RINGCFG (R378) -/
  | ringcfg (value : Word64)
  /-- CARVE_LOCK (R383) -/
  | carveLock (value : Word64)
  /-- DEBUGLVL (R391) -/
  | debuglvl (value : Word64)
  /-- INW (R394) -/
  | inw (core : Nat) (value : Word64)
  /-- OUTW (R394) -/
  | outw (core : Nat)
  /-- REGISTER_WRITE (R373) -/
  | registerWrite (offset : Nat) (value : Word64)
  /-- HOST_LAUNCH (R376) -/
  | hostLaunch (hsn : Nat)
  /-- COPY (R376) -/
  | copy (hsn : Nat)
  /-- QUEUE_CFG (R295) -/
  | queueCfg (hsn : Nat)
  /-- QUEUE_PUSH (R376) -/
  | queuePush (hsn : Nat)
  /-- SIGNAL (R376) -/
  | signal (hsn : Nat)
  /-- FENCE (R376) -/
  | fence (hsn : Nat)
  /-- PREEMPT_SOFT (R336) -/
  | preemptSoft (hsn : Nat)
  /-- PREEMPT_HARD (R338) -/
  | preemptHard (hsn : Nat)
  /-- INVAL (R263) -/
  | inval (hsn : Nat)
  /-- CONTEXT_CREATE (R376) -/
  | contextCreate (hsn : Nat)
  /-- CONTEXT_DESTROY (R376) -/
  | contextDestroy (hsn : Nat)
  /-- PARTITION (R379) -/
  | partition (hsn : Nat)
  /-- RESUME (R376) -/
  | resume (hsn : Nat)
  /-- QUEEN_CLAIM (R384) -/
  | queenClaim (die : Nat)
  /-- QUEEN_RENEW (R384) -/
  | queenRenew (die : Nat)
  /-- QUEEN_EXPIRY (R384) -/
  | queenExpiry
  /-- PACKAGE_RESET (R387) -/
  | packageReset
  /-- LIFECYCLE_FUSE (R391) -/
  | lifecycleFuse
  /-- SCARAB_LINK_DOWN (R382) -/
  | scarabLinkDown (port : Nat)
  /-- A1_ENTRY (R389) -/
  | a1Entry (core : Nat)
  /-- A2_ENTRY (R390) -/
  | a2Entry (die : Nat)
  /-- A2_EXIT (R390) -/
  | a2Exit (die : Nat)
  /-- D3HOT_REQUEST (R390) -/
  | d3hotRequest
  /-- D0_EXIT (R390) -/
  | d0Exit
  /-- HALT (R393) -/
  | halt
  /-- SCAN (R393) -/
  | scan (write : Bool) (gid : Nat) (item : Nat) (sel : Nat) (lane : Nat) (value : Nat)
  /-- SCAN_RESUME (R393) -/
  | scanResume
  /-- WEAR_SAMPLE (R398) -/
  | wearSample (die : Nat)
  /-- READ (R396) -/
  | read (core : Nat)
  /-- WRITE (R396) -/
  | write (core : Nat)
  /-- PEEK (R396) -/
  | peek (core : Nat)
  /-- MONITOR_RESUME (R396) -/
  | monitorResume (core : Nat)
  /-- MONITOR_UNKNOWN (R396) -/
  | monitorUnknown (core : Nat)
  /-- PARTNER_SLOT_FILL (R247) -/
  | partnerSlotFill (fill : Nat)
  /-- PARTNER_SLOT_WRITE (R248) -/
  | partnerSlotWrite (write : Nat)
  /-- HALLOC_CLEAR_DONE (R250) -/
  | hallocClearDone (gid : Nat) (write : Nat)
  /-- EVCFG (R378) -/
  | evcfg (value : Word64)
  /-- CXL_PORT_DOWN (R381) -/
  | cxlPortDown (port : Nat)
  /-- HOST_BAR2_ACCESS (R383) -/
  | hostBar2Access (store : Bool) (offset : Nat) (bytes : Nat) (value : Nat)
  /-- PEER_ACCESS_ARRIVAL (R280) -/
  | peerAccessArrival (arrival : Nat)
  /-- MODEL: the boot goes on from a stage the machine leaves by itself (R387) -/
  | bootStep
  /-- MODEL: a host read of eight bytes of BAR0 (R373) -/
  | registerRead (offset : Nat)
  /-- MODEL: the host sets the enable and the function mask of MSI-X (R373) -/
  | msixControl (enable hold : Bool)
  /-- MODEL: the host masks or unmasks an MSI-X vector (R373) -/
  | msixVector (vector : Nat) (masked : Bool)
deriving DecidableEq, Repr

/-! ## The issuing bundle -/

/-- How `exec` runs a slot operation: whole checks it and then makes its effect; probe only judges it; commit
only makes its effect. A bundle of several slots is probed in every slot before any commits, so that it issues
whole or not at all (R17, R327). -/
inductive Mode where
  | whole | probe | commit
deriving DecidableEq, Repr

/-- What an operation's check answers. -/
inductive Verdict where
  | go
  | hold (w : Wait)
  | trap (t : Trap)
deriving DecidableEq, Repr

/-- A claim of a record by a QPOP or a latch (R219, R220). -/
structure Claim where
  gid : Nat
  group : Nat
  core : Nat
  queue : Nat
  /-- the claim is served from the reservation of this team, else from the queue's head -/
  team : Option Nat
  /-- a QSTAT, which claims nothing -/
  stat : Bool
  /-- QPOP's or QSTAT's pending write, or the latch -/
  pop : Option Nat
  latch : Nat
  /-- the record claimed -/
  seq : Option Nat
  /-- the cycle of its delivery, once known -/
  due : Option Nat
deriving DecidableEq, Repr

/-- The bundle that is issuing: gang, slot, stream positions, immediates, the gang as it stood at issue, and
all the bundle's operations. -/
structure Cur where
  gid : Nat
  slot : Slot
  pos : Nat
  next : Nat
  imms : List Word64
  mode : Mode
  verdict : Verdict
  snap : Option Gang
  bundle : Nat
  /-- the bundle's operations in field order (R182, R180) -/
  ops : List (Slot × Instr)
  /-- seats of the phase that were ready beside it, for YIELD (R147) -/
  ready : List Nat
  /-- claims of its QPOPs, made at the bundle's end in ascending group position (R219) -/
  claims : List Claim
deriving DecidableEq, Repr

/-! ## Stops -/

/-- Why a run stops. -/
inductive Fault where
  /-- A slot operation was run with no bundle at issue, or the bundle's gang is not there: raised by `runOp`,
  never by `step`. Safe: the hardware runs an operation only as part of a bundle. -/
  | noIssuingBundle
deriving DecidableEq, Repr

/-- Why a step has no meaning. -/
inductive Refusal where
  /-- The instruction has no meaning yet: raised by the arms of `exec` that name it. Safe. -/
  | notModelled (mnemonic : String)
deriving DecidableEq, Repr

/-! ## The package -/

/-- A partition (R285, R379): its pairs by global core pair, its queues and its device memory ranges. -/
structure Partition where
  /-- first pair and count -/
  pairs : List Nat
  queueBase : Nat
  queueCount : Nat
  /-- base and size -/
  ranges : List (Nat × Nat)
  /-- cycles within which a save is to be complete: 200 µs where firmware sets no other limit (R343) -/
  saveLimit : Nat := 200000
deriving DecidableEq, Repr

/-- Where a record of a queue stands (R292, R296, R312). -/
inductive RecPlace where
  | chip
  /-- ring place -/
  | ring (place : Nat)
  /-- in a refill burst, with its ring place -/
  | burst (place : Nat)
  /-- returned by a restart after its place had been freed (R344) -/
  | returned
deriving DecidableEq, Repr

/-- A record's part in firings and claims (R293). -/
inductive RecStatus where
  | unreserved
  /-- reserved by a firing, for its team -/
  | reserved (team : Nat)
  /-- claimed: held, prefetched or on its way; from the queue's head, and then no firing has reserved it -/
  | claimed (head : Bool)
  /-- consumed or discarded, its place not yet free -/
  | gone
deriving DecidableEq, Repr

/-- A record of a queue: its number in the order of acceptance, its arrival time, and its words while on chip. -/
structure QRec where
  seq : Nat
  arrival : Nat
  words : List Word32
  place : RecPlace
  status : RecStatus
deriving DecidableEq, Repr

/-- A queue's configuration (R294). -/
structure QueueCfg where
  context : Nat
  ring : Nat
  consumer : Nat
  statusBlock : Nat
  age : Nat
  threshold : Nat
  batchMax : Nat
  hw : Nat
  lw : Nat
  ringLog : Nat
  firings : Nat
  cls : Nat
  strict : Bool
deriving DecidableEq, Repr

/-- A hardware queue (R291 to R308). -/
structure HiveQueue where
  /-- nothing while no configuration has been accepted -/
  cfg : Option QueueCfg
  /-- occupied places, oldest first -/
  recs : List QRec
  /-- number of the next record accepted -/
  nextSeq : Nat
  /-- ring place of the next append (R309) -/
  nextPlace : Nat
  /-- a refill burst in flight: the cycle it lands -/
  burst : Option Nat
  /-- the cycle in which a burst last landed: it is in flight in that cycle still (R312) -/
  landedAt : Option Nat
  /-- a burst may start no earlier than this cycle (R312) -/
  burstFrom : Nat
  firing : Nat
  inProgress : Nat
  pressure : Bool
  /-- 0, or the fault code of R306 -/
  fcode : Nat
  fplace : Nat
  faultTime : Nat
  /-- pushes held, oldest first (R298) -/
  held : List Nat
  /-- claims that wait for a record at the head, oldest first -/
  waiting : List Nat
  pushed : Nat
  claimedCount : Nat
  discarded : Nat
  spilled : Nat
  refills : Nat
  ageFired : Nat
  pressures : Nat
  done : Nat
  /-- status block writes that wait for a page: context, address, bytes (R308) -/
  statusWaits : List (Nat × Nat × List Byte)
  /-- launch of the consumer grid, once fired -/
  launch : Option Nat
  /-- the page of a code 1 fault of a burst has been resolved: the queue leaves FAULTED as the burst lands (R307) -/
  recovering : Bool
deriving DecidableEq, Repr

/-- A QARM on its way to the Hive (R221). -/
structure QarmWrite where
  queue : Nat
  threshold : Nat
  age : Nat
deriving DecidableEq, Repr

/-- An event for the host (R380). -/
structure HostEvent where
  type : Nat
  context : Nat
  hsn : Nat
  detail : List Byte
deriving DecidableEq, Repr


/-- Who submitted a launch record (R315). -/
inductive Submitter where
  /-- a LAUNCH of a group, with its pending write (R223) -/
  | group (gid group long : Nat)
  /-- the host's command, with the address of its result word (R376) -/
  | host (hsn result : Nat)
  /-- a queue's first firing (R301) -/
  | queue (q : Nat)
deriving DecidableEq, Repr

/-- A launch record submitted and not yet judged. -/
structure Submit where
  context : Nat
  addr : Nat
  from_ : Submitter
  /-- the check that fails if the fault it waits for is not resolved -/
  code : Nat
  /-- it waits for a supervisor to lead: to be judged, or to be rejected (R385) -/
  due : Option Bool := none
deriving DecidableEq, Repr

/-- A command taken from the ring and not complete (R375, R376, R385). -/
structure Command where
  opcode : Nat
  context : Nat
  /-- the 64 bytes of the command -/
  bytes : List Byte
  started : Bool
  complete : Bool
  /-- commands, teams or pushes that its completion waits for -/
  waits : List Nat
deriving DecidableEq, Repr

/-- An entry of the Scarab route table (R382). DESIGN CHOICE, log 89. -/
structure Route where
  peer : Nat
  ports : Nat
  base : Nat
  size : Nat
deriving DecidableEq, Repr

/-- An access of a peer on its way to a home slice (R280, R382): a store's bytes, or an atomic. -/
structure PeerAccess where
  key : Nat
  bytes : List Byte
  /-- an atomic's operation, operand and new value -/
  atomic : Option (Nat × Nat × Nat)
deriving DecidableEq, Repr

/-- A die's wear monitors (R397, R398): samples by hours of A0 and A1 time with drift, bond resistance, remaps of
both stacks, and the block last published. -/
structure Wear where
  samples : List (Nat × List Nat)
  published : List Byte
deriving DecidableEq, Repr

/-- What a team's save holds beside its gangs' own records, which stand in the state as they were stopped (R340,
R341). A side is 0 for the even or only core, 1 for the odd one. DESIGN CHOICE, log 19. -/
structure Saved where
  /-- its last byte has been written -/
  formed : Bool
  /-- the cycle of its last byte, or of the last byte read back -/
  due : Nat
  /-- a restore has read it back -/
  loaded : Bool
  /-- its span in the save area -/
  offset : Nat
  size : Nat
  /-- record, side and bytes of each private slot -/
  tiles : List (Nat × Nat × Cells 8)
  /-- gang, bank of its allotment, words and kind -/
  banks : List (Nat × Nat × Cells 32 × Nat)
  /-- copies to issue again, in order -/
  copies : List (Nat × Copy)
  /-- withdrawn index jobs, in queue order (R183) -/
  jobs : List IndexJob
  /-- claims withdrawn, to be made again (R339) -/
  claims : List Claim
  /-- mailbox exchanges withdrawn (R339) -/
  mbox : List (Nat × Nat × Nat × Option Word64)
  /-- side and index of each resident entry, least recently used first (R354) -/
  residency : List (Nat × Nat)
  /-- what parked each gang -/
  parks : List (Nat × Park)
  /-- saved private registers by side, and the registers required beyond them (R40, R342) -/
  privates : List Nat
  extra : Nat
deriving DecidableEq, Repr

/-- A team (R13, R320). -/
structure Team where
  launch : Nat
  number : Nat
  phase : TeamPhase
  die : Nat
  /-- the cores that hold it: one, or both of a pair -/
  cores : List Nat
  gangs : List Nat
  cls : Nat
  records : Tbl TileRecord
  bars : Tbl Barrier
  pad : Cells 8
  /-- core that holds the pad, and the pad's slots -/
  padCore : Nat
  freeA : Nat
  freeB : Nat
  qbatch : Nat
  /-- firing not yet ended by QDONE (R222) -/
  firing : Bool
  /-- claims that wait for a record of the reservation, oldest first (R219) -/
  claimWaits : List Nat
  /-- order of dispatch (R40) -/
  order : Nat
  /-- soft pre-emption's deadline (R336) -/
  deadline : Option Nat
  status : Nat
  /-- saved by a copy deadlock: its first restore needs 64 registers more (R40) -/
  deadlocked : Bool
  /-- group 0 runs alone first (R38); 0 not asked, 1 running, 2 done -/
  proStage : Nat
  span : Option (Nat × Nat)
  frozenAt : Option Frozen
  /-- the launch's prologue group (R317) -/
  prologue : Bool
  /-- the last trap code any of its groups took (R325) -/
  lastTrap : Nat
  /-- times passed over (R303) -/
  passed : Nat
  /-- place in the die's pending order -/
  place : Nat
  /-- what its save holds beside the gangs' own records (R340, R341) -/
  saved : Option Saved
  /-- the cycle its hard pre-emption began (R343) -/
  stopAt : Nat
  /-- records it has consumed from its reservation, oldest first (R344) -/
  taken : List QRec
  /-- killed in order to be restarted: it becomes pending again (R344) -/
  again : Bool
deriving DecidableEq, Repr

/-- The state of the package. -/
structure State where
  /-- package time in cycles (R3): one count for all dies, which may differ by two cycles. DESIGN CHOICE, log 1. -/
  time : Nat
  /-- MODEL: cores that have issued in this cycle are those below this number -/
  phase : Nat
  /-- MODEL: internal events by key 2 * cycle, plus 1 when they come after the issues of the cycle -/
  agenda : List (Nat × Event)
  /-- MODEL: outside events by cycle: host writes, resolutions, link events -/
  inputs : List (Nat × Event)
  /-- MODEL: the bundle that is issuing -/
  cur : Option Cur
  /-- MODEL: bundles issued so far, which orders them -/
  bundles : Nat
  /-- MODEL: free values drawn so far -/
  draws : Nat
  /-- MODEL: the next identifier of a new record -/
  nextId : Nat
  /-- memory by kind * 2^56 + physical address: device 0, CXL 1, host 2, peer 3 (R260) -/
  mem : Memory
  /-- lines held in L2 (R269) -/
  l2 : List Nat
  homes : Tbl HomeLine
  /-- floor of each slice by die * 16 + slice (R272) -/
  floors : Tbl Nat
  cores : Tbl Core
  gangs : Tbl Gang
  teams : Tbl Team
  launches : Tbl Launch
  /-- last launch number given (R316) -/
  launchSeq : Nat
  contexts : Tbl Context
  /-- operand-store bytes by ((core * 2 + space) * 512 + slot) * 16384 + offset (R57, R58) -/
  tiles : Cells 8
  /-- accumulator words by (core * 16 + bank) * 4096 + 64 i + j (R65) -/
  acc : Cells 32
  walks : Tbl Walk
  faults : Tbl FaultRec
  copies : Tbl Copy
  pushes : Tbl Push
  arrivals : Tbl Arrival
  messages : Tbl InboxMsg
  bridges : Tbl BridgeJob
  padWrites : Tbl PadWrite
  clears : Tbl ClearJob
  writebacks : Tbl WriteBack
  atomics : Tbl HomeAtomic
  afters : Tbl AfterRelease
  /-- Scarab route table: the valid entries (R382) -/
  routes : Tbl Route
  /-- Scarab and CXL ports that are up, as masks (R381, R382) -/
  scarabUp : Nat
  cxlUp : Nat
  /-- CXL ports found populated at boot, across which their memory is interleaved (R381) -/
  cxlPorts : Nat
  submits : Tbl Submit
  partitions : Tbl Partition
  queues : Tbl HiveQueue
  claims : Tbl Claim
  qarms : Tbl QarmWrite
  /-- last firing of each die's firing unit (R300) -/
  firingUnits : Tbl Nat
  /-- host interface (R373, R378): sequence numbers, ring and event ring configuration -/
  doorbell : Nat
  consumedSeq : Nat
  completedSeq : Nat
  ackSeq : Nat
  eventSeq : Nat
  ringCfg : Nat
  evCfg : Nat
  statusAddr : Nat
  /-- RINGSTATE: 0 running, 1 halted, 2 not configured; and the halt cause -/
  ringState : Nat
  haltCause : Nat
  /-- last device sequence number given, and the events not yet acknowledged (R380) -/
  dsn : Nat
  events : List (Nat × HostEvent)
  /-- events dropped and not yet reported by a type 5 event -/
  eventsLost : Nat
  /-- events already written that a RESYNC has still to write again (R380) -/
  rewrites : List Nat
  /-- signals of each MSI-X vector (R373) -/
  vectors : Tbl Nat
  /-- MSI-X capability: enabled, function mask, and each vector's mask and pending bit (R373) -/
  msixEnable : Bool
  msixHold : Bool
  msixMask : BitVec 64
  msixPending : BitVec 64
  /-- commands taken from the ring and not complete, by HSN, as the journal holds them (R375, R385) -/
  commands : Tbl Command
  /-- slot table (R286): entry by entry -/
  slotTable : List Nat
  /-- carve-out and its lock, BAR2BASE (R373, R383) -/
  carveBase : Nat
  carveSize : Nat
  carveLocked : Bool
  bar2base : Nat
  /-- BOOTSTAT: stage and failed step (R387) -/
  bootStage : Nat
  bootFail : Nat
  /-- bytes of the capability table (R386) -/
  capSize : Nat
  /-- MEAS0 to MEAS7 (R383) -/
  meas : Cells 256
  /-- QUEEN (R384): leader and expiry; whether the leader leads -/
  leader : Nat
  queenExpiry : Nat
  leading : Bool
  /-- features withdrawn by errata (R352, R386) -/
  withdrawn : Nat
  /-- LIFECYCLE and DEBUGLVL (R391) -/
  lifecycle : Nat
  debugLvl : Nat
  /-- package sleep, the cycle it began, and a D3hot request that is held (R390) -/
  sleeping : Bool
  sleepFrom : Nat
  d3hotHeld : Bool
  /-- no bundle issues before this cycle after D0 (R389, R390) -/
  awakeAt : Nat
  /-- dies in A2, and since when (R389, R390) -/
  parkedDies : Tbl Nat
  /-- stopped by the 1149.1 port's HALT (R393) -/
  halted : Bool
  wear : Tbl Wear
  /-- cycles each die has spent in A2 or S3 (R398) -/
  outTime : Tbl Nat
  peerAccesses : Tbl PeerAccess
  /-- the value the last host read of a register, a mailbox or BAR2 delivered -/
  hostRead : Nat
deriving DecidableEq, Repr

/-- The package right after reset: nothing listed, no gang, team, launch or context (R387).
DESIGN CHOICE, log 1, 2, 3, 4, 5, 6, 7, 8, 9, 11; PRESUMED, log 118. -/
def State.reset : State where
  time := 0
  phase := 0
  agenda := []
  inputs := []
  cur := none
  bundles := 0
  draws := 0
  nextId := 1
  mem := []
  l2 := []
  homes := []
  floors := []
  cores := []
  gangs := []
  teams := []
  launches := []
  launchSeq := 0
  contexts := []
  tiles := []
  acc := []
  walks := []
  faults := []
  copies := []
  pushes := []
  arrivals := []
  messages := []
  bridges := []
  padWrites := []
  clears := []
  writebacks := []
  atomics := []
  afters := []
  routes := []
  scarabUp := 0
  cxlUp := 0
  cxlPorts := 0
  submits := []
  partitions := []
  queues := []
  claims := []
  qarms := []
  firingUnits := []
  doorbell := 0
  consumedSeq := 0
  completedSeq := 0
  ackSeq := 0
  eventSeq := 0
  ringCfg := 0
  evCfg := 0
  statusAddr := 0
  ringState := 2
  haltCause := 0
  dsn := 0
  events := []
  eventsLost := 0
  rewrites := []
  vectors := []
  msixEnable := false
  msixHold := false
  msixMask := BitVec.allOnes 64
  msixPending := 0
  commands := []
  slotTable := List.replicate 64 0xF
  carveBase := 0
  carveSize := 0
  carveLocked := false
  bar2base := 0
  bootStage := 1
  bootFail := 0
  capSize := 0
  meas := []
  leader := 0
  queenExpiry := 0
  leading := false
  withdrawn := 0
  lifecycle := 1
  debugLvl := 0
  sleeping := false
  sleepFrom := 0
  d3hotHeld := false
  awakeAt := 0
  parkedDies := []
  halted := false
  wear := []
  outTime := []
  peerAccesses := []
  hostRead := 0

end Sys2Proof.Machine
end

