-- ==== Sys2Proof/Machine/Phys.lean ====
section
/-! DEFINITION. Physical memory, page tables and home slices (R259 to R261, R269, R272): the bytes of the four
kinds of memory, the walk of a context's page table, and the leases a home slice remembers. -/

namespace Sys2Proof.Machine

/-! ## Bytes -/

/-- Memory kinds as page-table entries code them (R260). -/
def kindDevice : Nat := 0
def kindCxl : Nat := 1
def kindHost : Nat := 2
def kindPeer : Nat := 3

/-- The key of a byte of physical memory. -/
def memKey (kind pa : Nat) : Nat := kind * 2 ^ 56 + pa % 2 ^ 56

/-- The kind a key belongs to. -/
def keyKind (key : Nat) : Nat := key / 2 ^ 56

/-- One byte of memory. DESIGN CHOICE, log 2. -/
def State.byte (s : State) (key : Nat) : Byte := s.mem.get key

/-- `n` bytes of memory from a key on. -/
def State.bytesAt (s : State) (key n : Nat) : List Byte := s.mem.getRun key n

/-- `n` bytes of memory as a little-endian number (R7). -/
def State.natAt (s : State) (key n : Nat) : Nat := natOfBytes (s.bytesAt key n)

/-- Writes bytes of memory from a key on. -/
def State.writeMem (s : State) (key : Nat) (bs : List Byte) : State := { s with mem := s.mem.setRun key bs }

/-- Writes single bytes of memory. -/
def State.writeCells (s : State) (l : List (Nat × Byte)) : State := { s with mem := s.mem.setAll l }

/-! ## Page tables -/

/-- What a translation answers (R261). -/
inductive Trans where
  | page (e : TlbEntry) (levels : List Nat)
  /-- recoverable, with the tables read -/
  | absent (levels : List Nat)
  | bad (levels : List Nat)
deriving DecidableEq, Repr

/-- The size of a leaf at each level: 4 GiB, 16 MiB, 64 KiB (R259). -/
def leafBits : Nat → Nat
  | 2 => 32 | 3 => 24 | _ => 16

/-- A table entry with a bit set that must be zero (R260, R261). -/
def pteReserved (leaf : Bool) (lvl pte : Nat) : Bool :=
  bitsOf pte 63 56 != 0 || bitsOf pte 10 8 != 0 || bitsOf pte 5 5 != 0 ||
  (if leaf then bitsOf pte 15 11 != 0 || bitsOf pte (leafBits lvl - 1) 16 != 0 && 16 < leafBits lvl
   else bitsOf pte 7 6 != 0)

/-! ## What can be reached -/

/-- The ports that the route entry of a peer address names (R382). DEDUCED, log 38. -/
def State.peerPorts (s : State) (pa : Nat) : List Nat :=
  match s.routes.find (pa / 2 ^ 48 % 256) with
  | some r => (List.range 18).filter fun p => natBit r.ports p
  | none => []

/-- The Scarab port of a peer line: one of the route entry's ports, chosen by address bits [11:7], the same one whichever of
them are up (R269, R382). DEDUCED, log 38. -/
def State.peerPort (s : State) (pa : Nat) : Nat :=
  let ports := s.peerPorts pa
  (ports[(pa / 2 ^ 7 % 32) % ports.length]?).getD 0

/-- The CXL port of an address: the populated ports take turns by 4 KiB (R381). -/
def State.cxlPort (s : State) (pa : Nat) : Option Nat :=
  let ports := (List.range 8).filter fun p => natBit s.cxlPorts p
  ports[(pa / 2 ^ 12) % ports.length]?

/-- A physical address that can be reached: no address of the locked carve-out, no CXL port that is down and no address beyond
the window, no peer address outside its window or with every port down (R381 to R383). DESIGN CHOICE, log 39. -/
def State.reachable (s : State) (kind pa : Nat) : Bool :=
  match kind with
  | 0 => !(s.carveLocked && decide (s.carveBase ≤ pa ∧ pa < s.carveBase + s.carveSize))
  | 1 => decide (pa < Nat.min Config.cxlCapacity Config.cxlWindow) &&
      match s.cxlPort pa with | some p => natBit s.cxlUp p | none => false
  | 2 => true
  | _ =>
    match s.routes.find (pa / 2 ^ 48 % 256) with
    | some r => (s.peerPorts pa).any (natBit s.scarabUp) && decide (r.base ≤ pa % 2 ^ 48 ∧ pa % 2 ^ 48 < r.base + r.size)
    | none => false

/-! ## Walks -/

/-- Walks the tables from `lvl` with the table at `base`; `fuel` is the number of levels left. A frame is judged
by its kind: a device frame lies below 576 GiB (R261). A table in the locked carve-out is not reached (R383). -/
def State.walkFrom (s : State) (ctx va : Nat) : Nat → Nat → Nat → List Nat → Trans
  | 0, _, _, ls => .bad ls
  | fuel + 1, lvl, base, ls =>
    let idx := va / 2 ^ (48 - 8 * lvl) % 256
    let key := memKey kindDevice (base + 8 * idx)
    let ls := ls ++ [key]
    let pte := s.natAt key 8
    let leaf := natBit pte 1
    if !s.reachable kindDevice (base + 8 * idx) then .bad ls
    else if !natBit pte 0 then .absent ls
    else if pteReserved leaf lvl pte then .bad ls
    else if leaf then
      if lvl = 1 then .bad ls
      else
        let kind := bitsOf pte 7 6
        let frame := bitsOf pte 55 16 * 2 ^ 16
        if kind = 0 ∧ Config.deviceSize < frame + 2 ^ leafBits lvl then .bad ls
        else .page { context := ctx, base := va / 2 ^ leafBits lvl * 2 ^ leafBits lvl,
                     size := 2 ^ leafBits lvl, kind := kind, frame := frame, sys := natBit pte 4,
                     exec := natBit pte 3, write := natBit pte 2 } ls
    else if lvl = 4 then .bad ls
    else s.walkFrom ctx va fuel (lvl + 1) (bitsOf pte 55 11 * 2 ^ 11) ls

/-- The translation of a virtual address of a context by its page table (R259). -/
def State.walkTable (s : State) (ctx va : Nat) : Trans :=
  if 2 ^ 48 ≤ va then .bad []
  else
    match s.contexts.find ctx with
    | none => .bad []
    | some c => s.walkFrom ctx va 4 1 c.root []

/-- A translation with the host's answer for a host page: an ATS translation that is absent or denied is a recoverable
fault where PRI is permitted, and else an unrecoverable one (R261). DESIGN CHOICE, log 39. -/
def State.walkHost (s : State) (ctx va : Nat) : Trans :=
  match s.walkTable ctx va with
  | .page e ls =>
    if e.kind = kindHost ∧ !Config.atsGrants s.draws ((e.frame + (va - e.base)) / 2 ^ 12) then
      if Config.priPermitted ctx then .absent ls else .bad ls
    else .page e ls
  | t => t

/-- The physical key of a virtual address under a page. -/
def TlbEntry.key (e : TlbEntry) (va : Nat) : Nat := memKey e.kind (e.frame + (va - e.base))

/-- The key of a virtual address by the page table alone, where it maps one that can be reached: the units of the device
reach a context's memory this way (R381 to R383). -/
def State.keyOf (s : State) (ctx va : Nat) : Option Nat :=
  match s.walkTable ctx va with
  | .page e _ => if s.reachable e.kind (e.frame + (va - e.base)) then some (e.key va) else none
  | _ => none

/-- Reads `n` bytes of a context's memory by its page table; nothing where a page does not map. -/
def State.readVirt (s : State) (ctx va : Nat) : Nat → Option (List Byte)
  | 0 => some []
  | n + 1 =>
    match s.keyOf ctx va, State.readVirt s ctx (va + 1) n with
    | some k, some bs => some (s.byte k :: bs)
    | _, _ => none

/-- Writes bytes of a context's memory by its page table; bytes of pages that do not map, or cannot be
reached, are lost. -/
def State.writeVirt (s : State) (ctx va : Nat) : List Byte → State
  | [] => s
  | b :: bs =>
    let s' := match s.keyOf ctx va with
      | some k => s.writeMem k [b]
      | none => s
    State.writeVirt s' ctx (va + 1) bs

/-! ## Homes -/

/-- The line of a memory key. -/
def lineOf (key : Nat) : Nat := key / Config.lineBytes

/-- The die a Scarab port stands on: three to a die (R382). -/
def portDie (port : Nat) : Nat := port / 3 % Config.dieCount

/-- A read of the line at a physical address returns poison (R381). DESIGN CHOICE, log 39. -/
def State.poisons (s : State) (kind pa : Nat) : Bool := kind == kindCxl && Config.poisoned s.draws (lineOf pa)

/-- The capability table's place and its extent (R386). -/
def capTable : Nat := 0x100000
def State.inCapTable (s : State) (kind pa : Nat) : Bool :=
  kind == kindDevice && decide (capTable ≤ pa ∧ pa < capTable + s.capSize)

/-- The home die of a line (R269). DEDUCED, log 38. -/
def State.homeDie (s : State) (line : Nat) : Nat :=
  let key := line * Config.lineBytes
  let pa := key % 2 ^ 56
  match keyKind key with
  | 0 => pa / 2 ^ 12 % 12 / 2
  | 1 => pa / 2 ^ 12 % 8 % 6
  | 2 => 0
  | _ => portDie (s.peerPort pa)

/-- The home slice of a line, by die * 16 + slice (R269). -/
def State.homeSlice (s : State) (line : Nat) : Nat := s.homeDie line * 16 + line % 16

/-- Whether L2 holds a line; host and peer lines are never kept (R269). -/
def State.inL2 (s : State) (line : Nat) : Bool := s.l2.contains line

/-- A slice's floor: the latest expiry of any record it has dropped (R272). -/
def State.floor (s : State) (slice : Nat) : Nat := (s.floors.find slice).getD 0

/-- A line leaves its slice, and with it the slice's tracking: its expiries fold into the floor (R272). DESIGN CHOICE,
log 8. -/
def State.dropFromL2 (s : State) (line : Nat) : State :=
  let s := { s with l2 := s.l2.filter fun l => l != line }
  match s.homes.find line with
  | none => s
  | some h =>
    let k := s.homeSlice line
    { s with homes := s.homes.del line, floors := s.floors.put k (Nat.max (s.floor k) (Nat.max h.latest h.other)) }

/-- Makes room for a line in its L2 slice; which line of a full slice goes is free (R2, R269). DESIGN CHOICE, log 8. -/
def State.roomInL2 (s : State) (line : Nat) : State :=
  let held := s.l2.filter fun l => s.homeSlice l == s.homeSlice line
  if held.length < Config.sliceLines then s
  else
    let n := Config.freeL2Line s.draws
    let s := { s with draws := s.draws + 1 }
    match held[n % held.length]? with
    | some l => s.dropFromL2 l
    | none => s

/-- L2 keeps a device or CXL line once it has been read or written there (R269). DESIGN CHOICE, log 8. -/
def State.keepInL2 (s : State) (line : Nat) : State :=
  if keyKind (line * Config.lineBytes) < 2 && !s.inL2 line then
    let s := s.roomInL2 line
    { s with l2 := line :: s.l2 }
  else s

/-- The unloaded path from a die to a line's home (R288). DESIGN CHOICE, log 16. -/
def State.pathTo (s : State) (die line : Nat) : Nat :=
  Config.pathCycles (keyKind (line * Config.lineBytes)) (s.inL2 line) +
    (if s.homeDie line = die then 0 else Config.otherDieCycles)

/-- The path of a write or release to a line's home: the L2 figure for device and CXL, the full one for host
and peer memory (R211, R288). DESIGN CHOICE, log 16. -/
def State.writePathTo (s : State) (die line : Nat) : Nat :=
  Config.pathCycles (keyKind (line * Config.lineBytes)) (decide (keyKind (line * Config.lineBytes) < 2)) +
    (if s.homeDie line = die then 0 else Config.otherDieCycles)

/-- Records a lease granted for a line (R272). DESIGN CHOICE, log 8. -/
def State.grantLease (s : State) (line core expiry : Nat) : State :=
  let floor := s.floor (s.homeSlice line)
  let h := s.homes.getD line { latest := floor, core := core, other := floor }
  let h' : HomeLine :=
    if core = h.core then { h with latest := Nat.max h.latest expiry }
    else if h.latest ≤ expiry then { latest := expiry, core := core, other := h.latest }
    else { h with other := Nat.max h.other expiry }
  { s with homes := s.homes.put line h' }

/-- The latest expiry granted for a line to a core other than the writer (R272, R273). -/
def State.otherExpiry (s : State) (line core : Nat) : Nat :=
  match s.homes.find line with
  | none => s.floor (s.homeSlice line)
  | some h => if h.core = core then h.other else h.latest

/-- The latest expiry granted for a line to any core: what a write that no core makes waits for (R272, R284). -/
def State.anyExpiry (s : State) (line : Nat) : Nat :=
  match s.homes.find line with
  | none => s.floor (s.homeSlice line)
  | some h => Nat.max h.latest h.other

/-- The global completion time of a write of a core that arrives now (R273). -/
def State.gct (s : State) (line core : Nat) : Nat := Nat.max s.time (s.otherExpiry line core)

end Sys2Proof.Machine
end

