-- ==== Sys2Proof/Machine/Ops.lean ====
section
/-! DEFINITION. The named operations over the state that the meanings share: records by key, time and the
agenda, allocation of registers, and taking an exception. -/

namespace Sys2Proof.Machine

/-! ## Records -/

def State.gang (s : State) (gid : Nat) : Option Gang := s.gangs.find gid
def State.putGang (s : State) (gid : Nat) (g : Gang) : State := { s with gangs := s.gangs.put gid g }
def State.updGang (s : State) (gid : Nat) (f : Gang → Gang) : State :=
  { s with gangs := s.gangs.upd gid f }
def State.core (s : State) (n : Nat) : Core := s.cores.getD n Core.reset
def State.putCore (s : State) (n : Nat) (c : Core) : State := { s with cores := s.cores.put n c }
def State.updCore (s : State) (n : Nat) (f : Core → Core) : State := s.putCore n (f (s.core n))
def State.team (s : State) (t : Nat) : Option Team := s.teams.find t
def State.updTeam (s : State) (t : Nat) (f : Team → Team) : State := { s with teams := s.teams.upd t f }
def State.launch (s : State) (l : Nat) : Option Launch := s.launches.find l
def State.updLaunch (s : State) (l : Nat) (f : Launch → Launch) : State :=
  { s with launches := s.launches.upd l f }
/-- The stage of a launch that has completed while a handler run of it goes on. DEDUCED, log 67. -/
def launchOver : Nat := 4
def State.context (s : State) (c : Nat) : Option Context := s.contexts.find c

/-- A new identifier. DESIGN CHOICE, log 11. -/
def State.fresh (s : State) : Nat × State := (s.nextId, { s with nextId := s.nextId + 1 })

/-- The index of a new free value. DESIGN CHOICE, log 11. -/
def State.draw (s : State) : Nat × State := (s.draws, { s with draws := s.draws + 1 })

/-- The die of a core (R1). -/
def dieOf (core : Nat) : Nat := core / Config.coresPerDie

/-- The dies of the package (R1). -/
def dies : List Nat := List.range Config.dieCount

/-- The other core of a pair (R1). -/
def partnerOf (core : Nat) : Nat := if core % 2 = 0 then core + 1 else core - 1

/-- A core holds a gang, a handler run or a refill (R389). -/
def Core.busy (c : Core) : Bool := !c.seats.isEmpty || c.run.isSome || !c.refills.isEmpty

/-- Mailboxes, breakpoints and single step are in use: at level monitor and halt, but for a part in DECOMMISSION, which scan
alone reaches (R392). -/
def State.debugOpen (s : State) : Bool := s.debugLvl != 0 && s.lifecycle != 2

/-! ## Time -/

/-- The beat of the present cycle (R16). -/
def State.beat (s : State) : Nat := s.time / 4

/-- Schedules an event before the issues of cycle `t`. -/
def State.at (s : State) (t : Nat) (i : Event) : State :=
  { s with agenda := insertByKey (2 * t) i s.agenda }

/-- Schedules an event after the issues of cycle `t`: what is written in cycle `t` is there from `t + 1` (R71). -/
def State.atEnd (s : State) (t : Nat) (i : Event) : State :=
  { s with agenda := insertByKey (2 * t + 1) i s.agenda }

/-- Schedules an event unless the same one already stands at that time. -/
def State.atOnce (s : State) (t : Nat) (i : Event) : State :=
  if s.agenda.contains (2 * t, i) then s else s.at t i

/-! ## Performance counters (R395) -/

/-- Adds to the performance counters of a core that count an event. DEDUCED, log 107. -/
def Core.tally (c : Core) (code n : Nat) : Core :=
  let on := c.dbg.pmsel.filter fun p => p.2 % 256 == code && natBit p.2 15
  if on.isEmpty then c
  else
    let d := c.dbg
    { c with dbg := { d with pmcnt := on.foldl (fun t p => t.put p.1 ((t.getD p.1 0 + n) % 2 ^ 64)) d.pmcnt } }

/-- Counts an event of a core. DEDUCED, log 107. -/
def State.tally (s : State) (core code n : Nat) : State := s.updCore core fun c => c.tally code n

/-! ## Groups and masks -/

def Gang.group (g : Gang) (k : Nat) : Option Group := g.groups.find k
def Gang.updGroup (g : Gang) (k : Nat) (f : Group → Group) : Gang := { g with groups := g.groups.upd k f }

/-- The group position of a lane (R15). -/
def Gang.grp (g : Gang) (lane : Nat) : Nat := lane / g.width

/-- The lane positions of a group (R15). -/
def Gang.lanes (g : Gang) (k : Nat) : List Nat := (List.range g.width).map fun i => k * g.width + i

/-- The group positions that hold an active group (R15, R113). -/
def Gang.activeGroups (g : Gang) : List Nat :=
  g.groups.keys.filter fun k => g.active.getLsbD k

/-- A mask over group positions. DEDUCED, log 91. -/
def groupMask (l : List Nat) : Nat := maskOf 4 fun k => l.contains k

/-- The group positions of a mask. -/
def maskGroups (m : Nat) : List Nat := (List.range 4).filter (natBit m)

/-- A mask over lanes. DEDUCED, log 91. -/
def laneMask (l : List Nat) : Nat := maskOf 64 fun k => l.contains k

/-- A predicate of a lane; p0 is true (R47). -/
def Gang.pred (g : Gang) (k lane : Nat) : Bool := k == 0 || (g.p.get k).getLsbD lane

/-- A condition of a group; c0 is true (R47). -/
def Group.cond (x : Group) (k : Nat) : Bool := k == 0 || x.c.getLsbD k

/-- The effective lanes of a lane operation (R28). -/
def Gang.effLanes (g : Gang) (gd : Guard) : List Nat :=
  g.activeGroups.flatMap fun k => (g.lanes k).filter fun p => g.pred gd.idx.val p != gd.inv

/-- The effective groups of an S or M operation (R28). -/
def Gang.effConds (g : Gang) (gd : Guard) : List Nat :=
  g.activeGroups.filter fun k =>
    match g.group k with
    | some x => x.cond gd.idx.val != gd.inv
    | none => false

/-- The effective groups of a group-level or gang-level operation of a V or C slot (R28). -/
def Gang.effGroups (g : Gang) (gd : Guard) : List Nat :=
  g.activeGroups.filter fun k => g.pred gd.idx.val (k * g.width) != gd.inv

/-- The groups that own some of the lanes given. -/
def Gang.groupsOf (g : Gang) (lanes : List Nat) : List Nat :=
  g.groups.keys.filter fun k => lanes.any fun p => g.grp p == k

/-- Whether an operation is a lane operation (R28, R185). -/
def laneLevel (sh : Shape) : Bool :=
  match sh.cls with
  | .V => true
  | .C => let n := sh.op.toNat
    decide (4 ≤ n ∧ n ≤ 0x1A) || n == 0x28 || n == 0x29
  | _ => false

/-- The groups an operation is effective in (R28). -/
def Gang.effective (g : Gang) (sh : Shape) : List Nat :=
  if laneLevel sh then g.groupsOf (g.effLanes sh.g)
  else match sh.cls with
    | .S | .M => g.effConds sh.g
    | _ => g.effGroups sh.g

/-- A fixed-latency result of the gang is in flight (R17, R29). -/
def Gang.inFlight (g : Gang) : Bool := g.flights.any fun f => !f.indexed

/-- A vector register is empty (R25). -/
def Gang.vEmpty (g : Gang) (r : Nat) : Bool := (g.vAwait.find r).isSome

/-- A scalar register of a group is empty (R25). -/
def Group.sEmpty (x : Group) (r : Nat) : Bool := (x.sAwait.find r).isSome

/-- A condition of a group is pending (R25). -/
def Group.cPending (x : Group) (k : Nat) : Bool := (x.cAwait.find k).isSome

/-- The lane word of a vector register. -/
def Gang.vreg (g : Gang) (r lane : Nat) : Word32 := g.v.get (r * 64 + lane)

/-- Writes one lane of a vector register. -/
def Gang.setV (g : Gang) (r lane : Nat) (x : Word32) : Gang := { g with v := g.v.set (r * 64 + lane) x }

/-- A scalar of a group. -/
def Gang.sreg (g : Gang) (k r : Nat) : Word64 :=
  match g.group k with
  | some x => x.s.get r
  | none => 0

/-- A handle table entry; an entry that was never used is free with GEN 0 (R45, R60). -/
def Gang.handle (g : Gang) (h : Nat) : HEntry :=
  g.handles.getD h { state := .free, ref := .none, gen := 0, released := [] }

def Gang.putHandle (g : Gang) (h : Nat) (e : HEntry) : Gang := { g with handles := g.handles.put h e }

/-- A queue-head latch of a group (R69). -/
def Group.latch (x : Group) (k : Nat) : QLatch :=
  x.qh.getD k { queue := none, held := none, next := none, heldSeq := 0, nextSeq := 0, asked := 0 }

/-! ## The issuing bundle -/

/-- The gang as the issuing bundle reads it: as it stood at issue (R20, R233). DESIGN CHOICE, log 14. -/
def State.issuing (s : State) (c : Cur) : Option Gang :=
  match c.snap with
  | some g => some g
  | none => s.gang c.gid

def State.setVerdict (s : State) (v : Verdict) : State :=
  { s with cur := s.cur.map fun c => { c with verdict := v } }

/-- The sequence number of the issuing slot: later bundles, then later slots, are later (R21). -/
def Cur.seq (c : Cur) : Nat := c.bundle * 8 + c.slot.order

/-! ## Registers of a stamped gang -/

/-- Takes a private register for an inherited register about to be written: from the gang's reserve, else from
the core's pool; with neither, the bundle holds for a register (R39). DEDUCED, log 33. -/
def State.ownRegister (s : State) (gid r : Nat) : State :=
  match s.gang gid with
  | none => s
  | some g =>
    if g.inherited.getLsbD r then
      let g' := { g with inherited := putBit g.inherited r false, privates := g.privates + 1 }
      if 0 < g.reserve then s.putGang gid { g' with reserve := g.reserve - 1 }
      else if 0 < (s.core g.core).pool then
        (s.putGang gid g').updCore g.core fun c => { c with pool := c.pool - 1 }
      else
        let n := match s.cur with
          | some c => match c.verdict with
            | .hold (.registers n) => n
            | _ => 0
          | none => 0
        (s.putGang gid g').setVerdict (.hold (.registers (n + 1)))
    else s

/-- The registers that a parked gang still needs beyond what it holds: those of its bundle that the gang named has not yet
of its own, without that gang's reserve and what a parked run was given (R39, R44, R224). -/
def State.lacks (s : State) (p : Parked) : Nat :=
  let reserve := fun (i : Nat) => match s.gang i with | some g => g.reserve | none => 0
  let regs := match s.gang p.owner with | some g => p.regs &&& g.inherited | none => 0
  (setBits regs).length - (reserve p.owner + if p.gid = p.owner then 0 else reserve p.gid)

/-- Serves the gangs parked for registers in order: the first that has all it needs, with the registers held and the pool's
free ones, takes them as reserve and is parked no longer, and the next comes first; with none left, what is held is free
(R44). DEDUCED, log 33. -/
def State.serveParked (s : State) (core : Nat) : Nat → State
  | 0 => s
  | fuel + 1 =>
    let c := s.core core
    match c.parked with
    | [] => s.putCore core { c with pool := c.pool + c.held, held := 0 }
    | p :: rest =>
      let need := s.lacks p
      if need ≤ c.held + c.pool then
        let s := s.updGang p.gid fun g => { g with reserve := g.reserve + need, wait := none }
        State.serveParked
          (s.putCore core { c with parked := rest, held := c.held - need, pool := c.pool - (need - c.held) }) core fuel
      else s

/-- Serves the parked gangs of a core as far as its registers go (R44). -/
def State.serveAll (s : State) (core : Nat) : State := s.serveParked core ((s.core core).parked.length + 1)

/-- Gives registers back to a core: they are held for the gang parked first, or free (R44). -/
def State.freeRegisters (s : State) (core n : Nat) : State := (s.updCore core fun c => { c with held := c.held + n }).serveAll core

/-- Gangs leave the parking order of a core; what was held for the first goes to the next (R44). -/
def State.leaveParked (s : State) (core : Nat) (out : Nat → Bool) : State :=
  (s.updCore core fun c => { c with parked := c.parked.filter fun p => !out p.gid }).serveAll core

/-! ## Fixed-latency results -/

/-- The vector registers a result destination names. -/
def RDest.vregs : RDest → List Nat
  | .v r => [r]
  | .field r _ _ => [r]
  | .tileLoad r _ => [r]
  | .pair r => [r, r + 1]
  | _ => []

/-- The write awaited is a fixed-latency result in flight that has itself cancelled a long write (R27); `names` tells
whether a result writes the place. -/
def Gang.awaitsFixed (g : Gang) (q : Nat) (names : Flight → Bool) : Bool :=
  g.flights.any fun f => f.seq == q && !f.indexed && names f

/-- The write a place awaits once a fixed-latency result with number `seq` is on its way to it: a pending long write is
cancelled and the place awaits this result; one that awaits an earlier fixed result goes on awaiting that (R27). -/
def Gang.awaitFor (g : Gang) (seq : Nat) (names : Flight → Bool) (t : Tbl Nat) (r : Nat) : Tbl Nat :=
  match t.find r with
  | none => t
  | some q => if g.awaitsFixed q names then t else t.put r seq

/-- Marks what a fixed-latency result will write: a pending long write to the same place is cancelled and the
place stays empty until this result lands (R27). DEDUCED, log 47. -/
def Gang.cancelFor (g : Gang) (seq : Nat) (d : RDest) (vals : List (Nat × Nat)) : Gang :=
  match d with
  | .s r => vals.foldl (fun g kv => g.updGroup kv.1 fun x =>
      { x with sAwait := g.awaitFor seq (fun f => f.dest == .s r && f.vals.any fun p => p.1 == kv.1) x.sAwait r }) g
  | .c r => vals.foldl (fun g kv => g.updGroup kv.1 fun x =>
      { x with cAwait := g.awaitFor seq (fun f => f.dest == .c r && f.vals.any fun p => p.1 == kv.1) x.cAwait r }) g
  | d => d.vregs.foldl (fun g r =>
      { g with vAwait := g.awaitFor seq (fun f => f.dest.vregs.contains r) g.vAwait r }) g

/-- Adds a result in flight. -/
def Gang.addFlight (g : Gang) (f : Flight) : Gang := { g with flights := g.flights ++ [f] }

/-- Puts a fixed-latency result in flight, to land `n` beats after this one (R20). -/
def State.land (s : State) (c : Cur) (n : Nat) (d : RDest) (vals : List (Nat × Nat))
    (flags : List (Nat × FFlags)) (latch : Bool) : State :=
  let s := d.vregs.foldl (fun s r => s.ownRegister c.gid r) s
  let f : Flight := { seq := c.seq, unit := c.slot, land := s.beat + n, dest := d, vals := vals,
                      flags := flags, latch := latch, collide := 0, indexed := false }
  match s.gang c.gid with
  | none => s
  | some g =>
    (s.putGang c.gid ((g.cancelFor c.seq d vals).addFlight f)).atOnce (4 * (s.beat + n)) (.resultLanding g.core)

/-! ## Long-latency results -/

/-- Marks a long destination empty, awaiting the write with this sequence number (R25, R27). -/
def Gang.await (g : Gang) (seq : Nat) (d : LDest) (groups : List Nat) : Gang :=
  match d with
  | .v r => { g with vAwait := g.vAwait.put r seq }
  | .pair r => { g with vAwait := (g.vAwait.put r seq).put (r + 1) seq }
  | .s r => groups.foldl (fun g k => g.updGroup k fun x => { x with sAwait := x.sAwait.put r seq }) g
  | .c r => groups.foldl (fun g k => g.updGroup k fun x => { x with cAwait := x.cAwait.put r seq }) g
  | .none => g

def LDest.vregs : LDest → List Nat
  | .v r => [r]
  | .pair r => [r, r + 1]
  | _ => []

/-- Starts a long-latency write of `want` elements, and answers its identifier (R25). -/
def State.beginLong (s : State) (gid seq : Nat) (d : LDest) (groups : List Nat) (want : Nat) (acquire : Bool) :
    Nat × State :=
  let s := d.vregs.foldl (fun s r => s.ownRegister gid r) s
  let (id, s) := s.fresh
  (id, s.updGang gid fun g =>
    let g := g.await seq d groups
    { g with longs := g.longs.put id { seq := seq, dest := d, vals := [], want := want, due := 0,
                                       groups := groupMask groups, acquire := acquire } })

/-- A destination with a full/empty bit of its own in each group (R25). -/
def LDest.byGroup : LDest → Bool
  | .s _ | .c _ => true
  | _ => false

/-- Delivers one element of a long write; when the last has come, the write is scheduled in that cycle or the
later one given (R71). A group's scalar or condition has a full/empty bit of its own and is written with its own element,
whatever the other groups still wait for (R25). DEDUCED, log 108. -/
def State.deliver (s : State) (gid long : Nat) (val : Option (Nat × Nat)) (due : Nat) : State :=
  match s.gang gid with
  | none => s
  | some g =>
    match g.longs.find long with
    | none => s
    | some l =>
      match val, l.dest.byGroup && decide (1 < l.want) with
      | some x, true =>
        let own := { l with vals := [x], want := 0, due := Nat.max l.due due, groups := groupMask [x.1] }
        let rest := { l with want := l.want - 1, groups := maskOf 4 fun k => natBit l.groups k && k != x.1 }
        let (id, s) := s.fresh
        (s.putGang gid { g with longs := (g.longs.put long rest).put id own }).atEnd (Nat.max own.due s.time)
          (.longWriteFill gid id)
      | _, _ =>
        let l' := { l with vals := (match val with | some x => l.vals ++ [x] | none => l.vals),
                           want := l.want - 1, due := Nat.max l.due due }
        let s := s.putGang gid { g with longs := g.longs.put long l' }
        if l.want ≤ 1 then s.atEnd (Nat.max l'.due s.time) (.longWriteFill gid long) else s

/-- Schedules a long write whose values are known, `n` cycles from now. -/
def State.fillAfter (s : State) (gid long : Nat) (vals : List (Nat × Nat)) (n : Nat) : State :=
  (s.updGang gid fun g => { g with longs := g.longs.upd long fun l =>
    { l with vals := vals, want := 0, due := s.time + n } }).atEnd (s.time + n) (.longWriteFill gid long)

/-! ## Taking a trap -/

/-- Trap codes (R326). -/
def trapREFUSED : Nat := 0x01
def trapSTREAM : Nat := 0x02
def trapEMPTY : Nat := 0x03
def trapDEADHANDLE : Nat := 0x04
def trapBOUNDS : Nat := 0x05
def trapGUARD : Nat := 0x06
def trapTEMPLATE : Nat := 0x07
def trapDIVERGE : Nat := 0x08
def trapFREEZEDEPTH : Nat := 0x09
def trapOVERRUN : Nat := 0x0A
def trapALIGN : Nat := 0x0B
def trapPAGE : Nat := 0x0C
def trapTRAP : Nat := 0x0D
def trapHANDLEQUOTA : Nat := 0x0E
def trapSPACE : Nat := 0x0F
def trapSTACK : Nat := 0x10
def trapBREAK : Nat := 0x11
def trapMFORMAT : Nat := 0x13

/-- The address of the trap record of a seat (R328). -/
def trapRecordAt (area core seat : Nat) : Nat := area + 128 * (17 * core + seat)

/-- The linear team number of a gang's team (R13). -/
def State.teamNumber (s : State) (g : Gang) : Nat :=
  match s.team g.team with
  | some t => t.number
  | none => 0

/-- The 128 bytes of a trap record (R328, R345). -/
def trapRecord (s : State) (g : Gang) (t : Trap) (pos next : Nat) : List Byte :=
  bytesLE 1 t.code ++ bytesLE 1 t.slot ++ bytesLE 1 t.reason ++ bytesLE 1 t.gmask ++
  bytesLE 1 g.active.toNat ++ bytesLE 1 g.seat ++ bytesLE 2 (dieOf g.core * 32 + g.core % 32) ++
  bytesLE 8 pos ++ bytesLE 8 next ++ bytesLE 8 s.time ++ bytesLE 4 g.launch ++
  bytesLE 4 (s.teamNumber g) ++ bytesLE 8 t.lmask ++ bytesLE 8 t.detail0 ++ bytesLE 8 t.detail1 ++
  (t.log ++ List.replicate (32 - t.log.length) 0) ++ List.replicate 32 0

/-- Takes a trap at the bundle at `pos` (R327, R328): the gang is parked where it stood, the groups that raised
it take its code in GSTATUS.TRAPCODE, the record is written to the context's trap area and the gang waits for
its core's handler. Raising GUARD clears GUARDPEND (R73), raising OVERRUN the barrier's flag (R215). -/
def State.takeTrap (s : State) (gid : Nat) (t : Trap) (pos next : Nat) : State :=
  match s.gang gid with
  | none => s
  | some g =>
    let g' := { g with park := .trapped, trap := some t, trapPos := pos, trapNext := next,
                       pos := (if t.code = trapPAGE then g.pos else pos), fetch := .idle,
                       groups := g.groups.map fun (k, x) =>
                         (k, if natBit t.gmask k then
                               { x with trapcode := BitVec.ofNat 8 t.code,
                                        guardPend := x.guardPend && t.code != trapGUARD }
                             else x) }
    let s := (s.putGang gid g').tally g.core 0x0C 1
    let s := if g.handler then s else s.updTeam g.team fun tm => { tm with lastTrap := t.code }
    let s := if t.code = trapOVERRUN then s.updTeam g.team fun tm =>
        { tm with bars := tm.bars.upd t.detail0 fun b => { b with overrun := false } } else s
    let s := match s.context g.context with
      | some c => s.writeVirt g.context (trapRecordAt c.trapArea g.core g.seat) (trapRecord s g t pos next)
      | none => s
    s.updCore g.core fun c => { c with trapped := c.trapped ++ [gid] }

/-- A trap of one slot of the issuing bundle. -/
def Cur.trap (c : Cur) (code gmask : Nat) (lmask d0 d1 : Nat) : Trap :=
  { code := code, slot := c.slot.order, gmask := gmask, lmask := lmask, detail0 := d0, detail1 := d1 }

/-! ## Running a slot operation -/

/-- Runs one slot operation of the issuing bundle from its check and its effect: the check reads the gang as
the bundle found it and answers whether the operation goes, waits or traps; a trap is taken; an effect is made
whole or, when it lacks a register, not at all. DESIGN CHOICE, log 14. -/
def runOp (check : State → Cur → Gang → Verdict) (effect : State → Cur → Gang → State) (s : State) :
    Host.Outcome State Fault Refusal :=
  match s.cur with
  | none => .fault .noIssuingBundle
  | some c =>
    match s.issuing c with
    | none => .fault .noIssuingBundle
    | some g =>
      match c.mode with
      | .probe => .next (s.setVerdict (check s c g))
      | .commit => .next (effect s c g)
      | .whole =>
        match check s c g with
        | .hold w => .next (s.setVerdict (.hold w))
        | .trap t => .next ((s.takeTrap c.gid t c.pos c.next).setVerdict (.trap t))
        | .go =>
          let s' := effect (s.setVerdict .go) c g
          match s'.cur with
          | some c' =>
            match c'.verdict with
            | .hold w => .next (s.setVerdict (.hold w))
            | _ => .next s'
          | none => .next s'

end Sys2Proof.Machine
end

