-- ==== Sys2Proof/Machine/Operands.lean ====
section
/-! DEFINITION. Operand forms: what a source delivers (R14, R69, R99), when it is empty and what that does
(R26, R48), for the vector, scalar, pair, predicate and condition roles. -/

namespace Sys2Proof.Machine

/-- The stream immediate k, sign-extended to 64 bits (R99). -/
def Cur.imm (c : Cur) (k : Nat) : Word64 := (c.imms[k]?).getD 0

/-- A value of R14 by code. -/
def specialValue (s : State) (g : Gang) (grp lane : Nat) : Code → Nat
  | .lane => lane % g.width
  | .grp => match g.group grp with | some x => x.number | none => 0
  | .team => s.teamNumber g
  | .gwid => g.width
  | _ => 0

/-- The held record's word of a latch (R69). -/
def Group.latchWord (x : Group) (k i : Nat) : Word32 :=
  match (x.latch k).held with
  | some ws => (ws[i]?).getD 0
  | none => 0

/-- The 32-bit value a source delivers to a lane in a vector role (R99). -/
def vsrc (s : State) (c : Cur) (g : Gang) (o : Operand) (lane : Nat) : Word32 :=
  let k := g.grp lane
  match o.code with
  | .reg n => g.vreg n.val lane
  | .lv0 => g.lV0.get lane
  | .lv1 => g.lV1.get lane
  | .lc0 => g.lC0.get lane
  | .lc1 => g.lC1.get lane
  | .qh n => match g.group k with | some x => x.latchWord n.val (lane % 8) | none => 0
  | .imm n => (c.imm n.val).setWidth 32
  | .ls | .flag _ => 0
  | .zero => 0
  | .lane => BitVec.ofNat 32 (specialValue s g k lane .lane)
  | .grp => BitVec.ofNat 32 (specialValue s g k lane .grp)
  | .team => BitVec.ofNat 32 (specialValue s g k lane .team)
  | .gwid => BitVec.ofNat 32 (specialValue s g k lane .gwid)

/-- The 64-bit value a source delivers to a group in a scalar role (R99). -/
def ssrc (s : State) (c : Cur) (g : Gang) (o : Operand) (k : Nat) : Word64 :=
  match o.code with
  | .reg n => g.sreg k n.val
  | .ls => g.lS.get k
  | .lc0 => if g.lC0tag.getLsbD k then g.lC0s.get k else (g.lC0.get (k * g.width)).setWidth 64
  | .lc1 => if g.lC1tag.getLsbD k then g.lC1s.get k else (g.lC1.get (k * g.width)).setWidth 64
  | .qh n => match g.group k with
    | some x => (x.latchWord n.val 1) ++ (x.latchWord n.val 0)
    | none => 0
  | .imm n => c.imm n.val
  | .lv0 | .lv1 | .lane | .flag _ => 0
  | .zero => 0
  | .grp => BitVec.ofNat 64 (specialValue s g k 0 .grp)
  | .team => BitVec.ofNat 64 (specialValue s g k 0 .team)
  | .gwid => BitVec.ofNat 64 (specialValue s g k 0 .gwid)

/-- The FP64 bit pattern a pair source delivers to a lane (R48, R154). -/
def psrc (c : Cur) (g : Gang) (o : Operand) (lane : Nat) : Nat :=
  match o.code with
  | .reg n => (g.vreg (n.val + 1) lane).toNat * 2 ^ 32 + (g.vreg n.val lane).toNat
  | .imm n => (c.imm n.val).toNat
  | _ => 0

/-- A predicate source in a lane (R98). -/
def predSrc (g : Gang) (o : Operand) (lane : Nat) : Bool :=
  match o.code with
  | .flag n => g.pred n.val lane
  | _ => true

/-- A condition source in a group (R98). -/
def condSrc (g : Gang) (o : Operand) (k : Nat) : Bool :=
  match o.code, g.group k with
  | .flag n, some x => x.cond n.val
  | _, _ => true

/-! ## Readiness of sources -/

/-- A source as an operation reads it: the role, and for scalar roles and latches the groups that read. -/
inductive Src where
  | vec (o : Operand)
  | pair (o : Operand)
  | sca (o : Operand)
  | cnd (o : Operand)
  /-- a vector register read as data or as a second operand through a D field -/
  | vreg (r : Nat) (e : Bool)
  | sreg (r : Nat)
deriving DecidableEq, Repr

/-- The groups, among those that read, for which the source is empty (R26, R69). A vector register is empty for
all of them. -/
def Src.empties (g : Gang) (groups : List Nat) : Src → List Nat
  | .vec o => match o.code with
    | .reg n => if g.vEmpty n.val then groups else []
    | .qh n => groups.filter fun k => match g.group k with
      | some x => (x.latch n.val).held.isNone | none => false
    | _ => []
  | .pair o => match o.code with
    | .reg n => if g.vEmpty n.val || g.vEmpty (n.val + 1) then groups else []
    | _ => []
  | .sca o => match o.code with
    | .reg n => groups.filter fun k => match g.group k with | some x => x.sEmpty n.val | none => false
    | .qh n => groups.filter fun k => match g.group k with
      | some x => (x.latch n.val).held.isNone | none => false
    | _ => []
  | .cnd o => match o.code with
    | .flag n => groups.filter fun k => match g.group k with
      | some x => n.val != 0 && x.cPending n.val | none => false
    | _ => []
  | .vreg r _ => if g.vEmpty r then groups else []
  | .sreg r => groups.filter fun k => match g.group k with | some x => x.sEmpty r | none => false

/-- A source that traps when empty: its E bit is set and its code is a register or latch (R26, R99). -/
def Src.trapsEmpty : Src → Bool
  | .vec o | .pair o | .sca o => match o.code with
    | .reg _ | .qh _ => o.e
    | _ => false
  | .vreg _ e => e
  | .cnd _ | .sreg _ => false

/-- The operand code EMPTY reports (R329). -/
def Src.code : Src → Nat
  | .vec o | .pair o | .sca o | .cnd o => o.code.toNat
  | .vreg r _ => r
  | .sreg r => r

/-- A condition source, which waits while it is pending (R25). -/
def Src.isCond : Src → Bool
  | .cnd _ => true
  | _ => false

/-- The verdict on an operation's sources, read by the groups given: a wait for a pending condition, else the first
source that traps when empty and is, else a wait for any that is empty, else go (R17, R25, R26). DEDUCED, log 24. -/
def checkSources (c : Cur) (g : Gang) (groups : List Nat) (srcs : List Src) : Verdict :=
  let empty := srcs.filter fun x => !(x.empties g groups).isEmpty
  if empty.any Src.isCond then .hold .pending
  else
    match empty.find? Src.trapsEmpty with
    | some x => .trap (c.trap trapEMPTY (groupMask (x.empties g groups)) 0 x.code 0)
    | none => if empty.isEmpty then .go else .hold .operand

/-- The guard of an S or M operation names a pending condition of an active group (R25). -/
def guardPending (g : Gang) (gd : Guard) : Bool :=
  gd.idx.val != 0 && g.activeGroups.any fun k =>
    match g.group k with | some x => x.cPending gd.idx.val | none => false

/-- Continues a check when what stands before it goes. DEDUCED, log 24. -/
def Verdict.andThen (v : Verdict) (k : Unit → Verdict) : Verdict :=
  match v with
  | .go => k ()
  | w => w

/-- Waits for a reason when a test holds. -/
def holdIf (b : Bool) (w : Wait) : Verdict := if b then .hold w else .go

/-- Traps when a test holds. -/
def trapIf (b : Bool) (t : Trap) : Verdict := if b then .trap t else .go

end Sys2Proof.Machine
end

