-- ==== Sys2Proof/Machine/Flags.lean ====
section
/-! DEFINITION. Flags and special registers: FPFLAGS, FPMODE and GSTATUS of a group (R51 to R53), the rounding
mode a V operation takes (R52, R156), and the flags a lane operation gathers by group (R82). -/

namespace Sys2Proof.Machine

/-- The rounding of FPMODE.RM (R52). -/
def roundingOf (m : BitVec 2) : Rounding :=
  match m.toNat with
  | 0 => .rne | 1 => .rz | 2 => .ru | _ => .rd

/-- The rounding mode of a lane's group (R156). -/
def Gang.rounding (g : Gang) (k : Nat) : Rounding :=
  match g.group k with
  | some x => roundingOf x.fpmode
  | none => .rne

/-- The flags of a lane operation joined by group: a group's flag is set when any of its lanes raises it (R51). -/
def Gang.groupFlags (g : Gang) (l : List (Nat × FFlags)) : List (Nat × FFlags) :=
  (g.groupsOf (l.map Prod.fst)).map fun k =>
    (k, (l.filter fun p => g.grp p.1 == k).foldl (fun f p => f ||| p.2) 0)

/-- GSTATUS as software reads it (R53). -/
def Group.gstatus (x : Group) : Word64 :=
  BitVec.ofNat 64 (x.trapcode.toNat * 256 + (if x.guardPend then 4 else 0) + (if x.collide then 2 else 0) +
    (if x.visible then 1 else 0))

/-- WRSR's effect when it lands (R50 to R53, R135): FPFLAGS and FPMODE take their RW bits, GSTATUS.COLLIDE is
cleared where a 1 is written, and everything else ignores the write. -/
def Group.writeSpecial (x : Group) (n : Nat) (v : Word64) : Group :=
  match n with
  | 2 => { x with fpflags := v.setWidth 5 }
  | 3 => { x with fpmode := v.setWidth 2 }
  | 4 => if v.getLsbD 1 then { x with collide := false } else x
  | _ => x

/-- GSTATUS.VISIBLE is set in the effective groups when the operation issues (R192). -/
def Gang.setVisible (g : Gang) (groups : List Nat) : Gang :=
  groups.foldl (fun g k => g.updGroup k fun x => { x with visible := true }) g

/-- The slots of a quota still free, as HANDLES reads them (R55, R63). -/
def handlesWord (t : Team) : Word64 := BitVec.ofNat 64 (t.freeB % 256 * 256 + t.freeA % 256)

/-- CORE (R55). -/
def coreWord (core : Nat) : Word64 := BitVec.ofNat 64 (dieOf core * 32 + core % 32)

/-- A special register as RDSR delivers it to a group (R49, R50, R134). -/
def specialRegister (s : State) (g : Gang) (k n : Nat) : Word64 :=
  match g.group k with
  | none => 0
  | some x =>
    match n with
    | 0 => BitVec.ofNat 64 s.time
    | 1 => BitVec.ofNat 64 g.horizon
    | 2 => x.fpflags.setWidth 64
    | 3 => x.fpmode.setWidth 64
    | 4 => x.gstatus
    | 5 => x.batch.setWidth 64
    | 6 => match s.team g.team with | some t => BitVec.ofNat 64 t.qbatch | none => 0
    | 7 => BitVec.ofNat 64 (g.dictmiss % 2 ^ 32)
    | 8 => BitVec.ofNat 64 (s.core g.core).pool
    | 9 => match s.launch g.launch with | some l => BitVec.ofNat 64 l.lease | none => 0
    | 10 => match s.team g.team with | some t => handlesWord t | none => 0
    | 11 => coreWord g.core
    | _ => 0

end Sys2Proof.Machine
end

