-- ==== Sys2Proof/Machine/Memory.lean ====
section
/-! DEFINITION. Translation, the operand log, the L1 and the home slices (R189, R190, R194, R195, R261 to R277,
R290). -/

namespace Sys2Proof.Machine

/-! ## Translation through the TLB -/

/-- The entry of a core's TLB that covers an address of a context (R262). -/
def Core.tlbFind (c : Core) (ctx va : Nat) : Option TlbEntry :=
  c.tlb.find? fun e => e.context == ctx && decide (e.base ≤ va ∧ va < e.base + e.size)

/-- Puts an entry first, as most recently used; the least recently used of 2,048 goes (R262). -/
def Core.tlbUse (c : Core) (e : TlbEntry) : Core :=
  { c with tlb := (e :: c.tlb.filter fun x => x != e).take Config.tlbSize }

/-- The memory ranges of a partition hold a device address (R261, R285). -/
def State.partitionHolds (s : State) (ctx pa : Nat) : Bool :=
  match s.context ctx with
  | none => false
  | some c =>
    match s.partitions.find c.partition with
    | none => false
    | some p => p.ranges.any fun r => decide (r.1 ≤ pa ∧ pa < r.1 + r.2)

/-- Addresses of a page's kind of memory at which what can be reached begins or ends: the edges of the locked carve-out, and of
a peer's window (R382, R383). -/
def State.edges (s : State) (kind pa : Nat) : List Nat :=
  match kind with
  | 0 => [s.carveBase, s.carveBase + s.carveSize]
  | 1 | 2 => []
  | _ =>
    match s.routes.find (pa / 2 ^ 48 % 256) with
    | some r => [pa / 2 ^ 48 * 2 ^ 48 + r.base, pa / 2 ^ 48 * 2 ^ 48 + r.base + r.size]
    | none => []

/-- Whether a page allows an access (R195, R261, R381 to R383). -/
def State.allows (s : State) (e : TlbEntry) (va : Nat) : Need → Bool
  | n =>
    let pa := e.frame + (va - e.base)
    (e.kind != kindDevice || s.partitionHolds e.context pa || (n == .read && s.inCapTable e.kind pa)) &&
    s.reachable e.kind pa && (n == .write || !s.poisons e.kind pa) &&
    (match n with
     | .read => true
     | .write => e.write
     | .fetch => e.exec
     | .atomic op => e.write && (e.kind != kindHost || op == 0x10 || op == 0x18 || op == 0x19))

/-- The first address of a run within one page that the page does not allow: CXL ports and poison go by lines, and the carve-out
and a peer's window have edges of their own (R381 to R383). -/
def State.firstBad (s : State) (e : TlbEntry) (va n : Nat) (need : Need) : Option Nat :=
  let pa := e.frame + (va - e.base)
  let edges := (s.edges e.kind pa).filterMap fun a => if pa < a ∧ a < pa + n then some (va + (a - pa)) else none
  let lines := if e.kind = kindCxl then
      (List.range ((va % Config.lineBytes + n + Config.lineBytes - 1) / Config.lineBytes - 1)).map fun i =>
        (va / Config.lineBytes + i + 1) * Config.lineBytes
    else []
  minBy id ((va :: edges ++ lines).filter fun a => !s.allows e a need)

/-- What a translation through a core's TLB answers. -/
inductive Lookup where
  | ok (e : TlbEntry)
  | wait
  | bad
deriving DecidableEq, Repr

/-- The time of a walk that starts now (R262). DEDUCED, log 100. -/
def State.walkTime (s : State) (die : Nat) (levels : List Nat) : Nat :=
  Config.walkCycles + sumNat (levels.map fun k =>
    (if s.inL2 (lineOf k) then 0 else Config.walkMissCycles) +
    (if s.homeDie (lineOf k) = die then 0 else Config.otherDieCycles))

/-- The table entries a translation reads. -/
def Trans.levels : Trans → List Nat
  | .page _ l => l
  | .absent l => l
  | .bad l => l

/-- Starts a waiting walk. -/
def State.startWalk (s : State) (id : Nat) (w : Walk) : State :=
  let die := dieOf w.core
  let t := s.time + s.walkTime die (s.walkTable w.context w.addr).levels
  let s := { s with walks := s.walks.put id { w with due := some t } }
  s.at t (.tlbWalkDone die id)

/-- Walks that run on a die. -/
def State.walksRunning (s : State) (die : Nat) : Nat :=
  s.walks.vals.countP fun w => dieOf w.core == die && w.due.isSome

/-- The page of an address as the tables stand, by base and size; where they map none, its 64 KiB. -/
def State.pageSpan (s : State) (ctx va : Nat) : Nat × Nat :=
  match s.walkTable ctx va with
  | .page e _ => (e.base, e.size)
  | _ => (va / 2 ^ 16 * 2 ^ 16, 2 ^ 16)

/-- Misses of one core to one page share a walk (R262). -/
def State.sharesWalk (s : State) (core ctx va : Nat) (w : Walk) : Bool :=
  w.core == core && w.context == ctx && s.pageSpan ctx w.addr == s.pageSpan ctx va

/-- Joins the walk of the page, or asks for one; 64 run at once on a die (R262). -/
def State.requestWalk (s : State) (core ctx va : Nat) (cl : Client) : State :=
  match s.walks.pick (s.sharesWalk core ctx va) with
  | some (id, w) =>
    if w.clients.contains cl then s
    else { s with walks := s.walks.put id { w with clients := w.clients ++ [cl] } }
  | none =>
    let (id, s) := s.fresh
    let w : Walk := { core := core, context := ctx, addr := va, due := none, clients := [cl] }
    if s.walksRunning (dieOf core) < Config.walksPerDie then s.startWalk id w
    else { s with walks := s.walks.put id w }

/-- Translates an access of a core; a miss starts or joins a walk on behalf of the client (R261, R262). -/
def State.translate (s : State) (core ctx va : Nat) (need : Need) (cl : Client) : Lookup × State :=
  if 2 ^ 48 ≤ va then (.bad, s)
  else
    match (s.core core).tlbFind ctx va with
    | some e =>
      if s.allows e va need then (.ok e, s.updCore core fun c => c.tlbUse e) else (.bad, s)
    | none =>
      let waits := s.walks.vals.any fun w => s.sharesWalk core ctx va w && w.clients.contains cl
      (.wait, if waits then s else (s.tally core 0x0A 1).requestWalk core ctx va cl)

/-! ## Lines of the L1 -/

/-- The bits of a line from `o` on, `n` of them. -/
def spanMask (o n : Nat) : BitVec 128 := BitVec.ofNat 128 ((2 ^ n - 1) * 2 ^ o)

/-- A line without bytes; a lease that has expired. -/
def Line.empty : Line := { bytes := [], valid := 0, dirty := 0, expiry := some 0, since := 0 }

/-- The bytes of a line that a load may take now: dirty ones, and clean ones under an unexpired lease (R268,
R271). DEDUCED, log 95. -/
def Line.usable (l : Line) (now : Nat) : BitVec 128 :=
  match l.expiry with
  | none => l.valid
  | some t => if now < t then l.valid else l.dirty

/-- Whether a load of `n` bytes at offset `o` hits. DEDUCED, log 95. -/
def Line.hits (l : Line) (now o n : Nat) : Bool := spanMask o n &&& l.usable now == spanMask o n

/-- A request of a core for a line reaches the home no earlier than the core's requests for that line already on
their way, so that accesses to one byte keep their order there (R191). -/
def State.homeAt (s : State) (core line t : Nat) : Nat :=
  let f := ((s.core core).fetches.vals.filter fun f => f.line == line).map fun f => f.due
  let w := (s.writebacks.vals.filter fun w => w.core == core && w.line == line).map fun w => w.due
  let a := (s.atomics.vals.filter fun a => a.core == core && a.elems.any fun e => lineOf e.2.1 == line).map
    fun a => a.due
  (f ++ w ++ a).foldl Nat.max t

/-- Sends bytes of a line to its home slice (R273). -/
def State.sendHome (s : State) (core line : Nat) (bytes : List (Nat × Byte)) (cause : WbCause) : State :=
  if bytes.isEmpty then s
  else
    let t := s.homeAt core line (s.time + s.writePathTo (dieOf core) line)
    let (id, s) := s.fresh
    let w : WriteBack := { core := core, line := line, bytes := bytes, cause := cause, due := t }
    let s := { s with writebacks := s.writebacks.put id w }
    s.at t (.writebackArrival id)

/-- The dirty bytes of a line by offset. -/
def Line.dirtyBytes (l : Line) : List (Nat × Byte) := (setBits l.dirty).map fun o => (o, l.bytes.get o)

/-- Writes back a line's dirty bytes, which become clean under the line's lease (R273). -/
def State.writeBackLine (s : State) (core line : Nat) (cause : WbCause) : State :=
  match (s.core core).l1.find line with
  | none => s
  | some l =>
    (s.sendHome core line l.dirtyBytes cause).updCore core fun c =>
      { c with l1 := c.l1.put line { l with dirty := 0, valid := l.usable s.time } }

/-- Writes back all dirty bytes of a core (R273). -/
def State.writeBackAll (s : State) (core : Nat) (cause : WbCause) : State :=
  (s.core core).l1.keys.foldl (fun s line => s.writeBackLine core line cause) s

/-- Removes a line, its dirty bytes written back (R273). -/
def State.evictLine (s : State) (core line : Nat) : State :=
  (s.writeBackLine core line .core).updCore core fun c => { c with l1 := c.l1.del line }

/-- Makes room for a line in its set of eight ways; which way goes is not specified (R268). DESIGN CHOICE, log 17. -/
def State.makeRoom (s : State) (core line : Nat) : State :=
  let l1 := (s.core core).l1
  if (l1.find line).isSome then s
  else
    let set := l1.keys.filter fun k => k % Config.l1Sets == line % Config.l1Sets
    if set.length < Config.l1Ways then s
    else
      let (n, s) := s.draw
      match set[Config.freeWay n % set.length]? with
      | some victim => s.evictLine core victim
      | none => s

/-- A line of a core, or an empty one. -/
def Core.line (c : Core) (line : Nat) : Line := c.l1.getD line Line.empty

/-- Writes bytes into a line: the bytes become dirty (R268); a line that turns dirty is written back 2,048
cycles later at the latest (R273). -/
def State.dirtyLine (s : State) (core line o : Nat) (bs : List Byte) : State :=
  let s := s.makeRoom core line
  let l := (s.core core).line line
  let m := spanMask o bs.length
  let l' : Line := { l with bytes := l.bytes.setRun o bs, valid := l.usable s.time ||| m, dirty := l.dirty ||| m,
                            since := if l.dirty = 0 then s.time else l.since }
  let s := s.updCore core fun c => { c with l1 := c.l1.put line l' }
  if l.dirty = 0 then s.at (s.time + Config.dirtyCycles) (.dirtyTimeout core line) else s

/-- The lease time of a launch (R56, R271). -/
def State.leaseTime (s : State) (launch : Nat) : Nat :=
  match s.launch launch with
  | some l => 256 * 2 ^ l.lease
  | none => 256

/-- A virtual address of a context lies in a sealed template segment (R42). DEDUCED, log 96. -/
def State.inSealed (s : State) (ctx va n : Nat) : Bool :=
  s.launches.vals.any fun l => l.context == ctx && l.segSealed &&
    decide (l.segBase < va + n ∧ va < l.segBase + l.segSize)

/-- Two byte ranges meet. -/
def overlaps (a n b m : Nat) : Bool := decide (a < b + m ∧ b < a + n)

/-- The bytes of a line that a core has written back since a fetch began and that are still on their way to the home,
the latest first (R191, R273). -/
def State.bytesBack (s : State) (core line since : Nat) : List (Nat × Byte) :=
  (s.writebacks.filter fun p => decide (since < p.1) && p.2.core == core && p.2.line == line).reverse.flatMap
    fun p => p.2.bytes

/-- The bytes of a line that atomics of a core, sent since a fetch began, are still on their way to (R276): those of the gangs
that a test selects. -/
def State.atomicsOf (s : State) (core line since : Nat) (by_ : Nat → Bool) : BitVec 128 :=
  (s.atomics.filter fun p => decide (since < p.1) && p.2.core == core && by_ p.2.gid).foldl (fun m p =>
    p.2.elems.foldl (fun m e =>
      if lineOf e.2.1 == line then m ||| spanMask (e.2.1 % Config.lineBytes) 4 else m) m) 0

/-- The bytes of a line that any atomics of a core, sent since a fetch began, are still on their way to (R276). -/
def State.atomicsOut (s : State) (core line since : Nat) : BitVec 128 := s.atomicsOf core line since fun _ => true

/-- What a gang does may be ordered after an atomic of another that is on its way: an atomic of its own, or of its team on one
core, whose releases and acquires at team scope only order (R191, R281, R283). DEDUCED, log 95. -/
def State.mayFollow (s : State) (gid other : Nat) : Bool :=
  gid == other ||
  match s.gang gid, s.gang other with
  | some g, some h => g.team == h.team && (s.team g.team).any fun t => t.cores.length == 1
  | _, _ => false

/-- The fetch of a line that an access of a core may join (R290): the latest in flight, unless an atomic that the access may
be ordered after has left for one of its bytes since, which the fetch would not see (R191, R283). -/
def State.joinable (s : State) (core line : Nat) (w : Waiter) : Option (Nat × LineFetch) :=
  match ((s.core core).fetches.filter fun p => p.2.line == line && !p.2.bypass).getLast? with
  | some (id, f) =>
    if s.atomicsOf core line id (s.mayFollow w.gid) &&& spanMask w.offset w.width = 0 then some (id, f) else none
  | none => none

/-- Asks the home slice for a line, or joins the fetch in flight (R268, R290). A load that joins takes the bytes that
its core has written back meanwhile from there (R191). DEDUCED, log 96. -/
def State.fetchLine (s : State) (core line : Nat) (bypass : Bool) (lease : Nat) (sealedLine : Bool)
    (w : Waiter) : State :=
  match if bypass then none else s.joinable core line w with
  | some (id, f) =>
    let w := { w with have_ := w.have_ ++ (s.bytesBack core line id).filter fun p => overlaps w.offset w.width p.1 1 }
    s.updCore core fun c => { c with fetches := c.fetches.put id { f with waiters := f.waiters ++ [w] } }
  | none =>
    let t := s.homeAt core line (s.time + s.pathTo (dieOf core) line)
    let (id, s) := s.fresh
    let f : LineFetch :=
      { line := line, due := t, bypass := bypass, lease := lease, sealedLine := sealedLine, waiters := [w] }
    (s.updCore core fun c => { c with fetches := c.fetches.put id f }).at t (.l1Fill core id)

/-! ## Atomics -/

/-- The new memory value of an atomic (R194). -/
def atomicNew (op : Nat) (old x n : Word32) : Word32 :=
  match op with
  | 0x10 => old + x
  | 0x11 => if old.slt x then old else x
  | 0x12 => if x.slt old then old else x
  | 0x13 => if old.ult x then old else x
  | 0x14 => if x.ult old then old else x
  | 0x15 => old &&& x
  | 0x16 => old ||| x
  | 0x17 => old ^^^ x
  | 0x18 => x
  | 0x19 => if old = x then n else old
  | _ => BitVec.ofNat 32 (fAdd fp32 .rne old.toNat x.toNat).1

/-- Performs an atomic on a line of the L1 and answers the old word (R194, R276). -/
def State.atomicInLine (s : State) (core line o op x n : Nat) : Word32 × State :=
  let l := (s.core core).line line
  let old : Word32 := BitVec.ofNat 32 (natOfBytes (l.bytes.getRun o 4))
  let new := atomicNew op old (BitVec.ofNat 32 x) (BitVec.ofNat 32 n)
  (old, s.dirtyLine core line o (bytesLE 4 new.toNat))

/-- Where an atomic is performed (R195). -/
inductive AtomicPlace where
  | l1
  | home (cycles : Nat)
deriving DecidableEq, Repr

/-- The place and path of an atomic by scope, team and page (R195). At system scope a device word is performed
at its stack; a host or peer page is always at system scope; a SYS page never in an L1 (R270). -/
def State.atomicPlace (s : State) (g : Gang) (scope : AtScope) (e : TlbEntry) (line : Nat) : AtomicPlace :=
  let pair := match s.team g.team with | some t => decide (1 < t.cores.length) | none => false
  let far := if s.homeDie line = dieOf g.core then 0 else Config.otherDieCycles
  if e.kind = kindHost ∨ e.kind = kindPeer then .home (Config.pathCycles e.kind false + far)
  else
    match scope with
    | .team => if pair || e.sys then .home (s.pathTo (dieOf g.core) line) else .l1
    | .package => .home (s.pathTo (dieOf g.core) line)
    | .system =>
      if e.kind = kindDevice then .home (Config.pathCycles kindDevice false + far)
      else .home (s.pathTo (dieOf g.core) line)

/-! ## Performing accesses -/

/-- A waiting store or atomic. -/
def Waiter.writes (w : Waiter) : Bool := w.atomic.isSome || w.store.isSome

/-- A store or atomic that waits for a fetch stands on one of these bytes of its line. -/
def LineFetch.writeWaits (f : LineFetch) (line o n : Nat) : Bool :=
  f.line == line && !f.bypass && f.waiters.any fun w => w.writes && overlaps w.offset w.width o n

/-- A store or atomic that waits for the line stands on one of these bytes: what comes later waits behind it
(R191). -/
def Core.writeWaits (c : Core) (line o n : Nat) : Bool := c.fetches.vals.any fun f => f.writeWaits line o n

/-- The dirty bytes of a line among `n` from offset `o`. -/
def Line.dirtyIn (l : Line) (o n : Nat) : List (Nat × Byte) :=
  (setBits (l.dirty &&& spanMask o n)).map fun i => (i, l.bytes.get i)

/-- The value a load delivers from its bytes (R188). -/
def loadValue (signed : Bool) (dest64 : Bool) (bs : List Byte) : Nat :=
  let x := natOfBytes bs
  let n := bs.length
  if signed && natBit x (8 * n - 1) then
    let w := if dest64 then 64 else if n = 8 then 64 else 32
    2 ^ w - (2 ^ (8 * n) - x)
  else x

/-- A pending write goes to scalars: sign extension reaches 64 bits (R188). -/
def Gang.longIsScalar (g : Gang) (long : Nat) : Bool :=
  match g.longs.find long with
  | some l => match l.dest with
    | .s _ => true
    | _ => false
  | none => false

/-- The group of a waiting load of the gang. -/
def Gang.waiterGroup (g : Gang) (w : Waiter) : Nat := if g.longIsScalar w.long then w.at_ else g.grp w.at_

/-- An older load of a group waits for its line and will read one of these bytes at the home: a later load of the group reads no
older value than it does (R191, R283). -/
def Core.readWaits (c : Core) (gid : Nat) (g : Gang) (line o n k : Nat) : Bool :=
  c.fetches.vals.any fun f => f.line == line && f.waiters.any fun w =>
    w.gid == gid && !w.writes && overlaps w.offset w.width o n && g.waiterGroup w == k

/-- Performs one load element: a hit is written 24 cycles after it is handed over, a miss waits for its line (R268, R288); so
does a load of clean bytes behind an older one of its group that waits for them (R283). DEDUCED, log 95. -/
def State.performLoad (s : State) (gid : Nat) (g : Gang) (le : LogEntry) (e : Elem) (page : TlbEntry)
    (signed : Bool) : State :=
  let key := page.key e.addr
  let line := lineOf key
  let o := key % Config.lineBytes
  let long := le.long.getD 0
  let l := (s.core g.core).line line
  let w : Waiter := { gid := gid, long := long, at_ := e.at_, offset := o, width := le.width,
                      signed := signed, atomic := none, store := none, have_ := l.dirtyIn o le.width }
  let behind := (l.dirtyIn o le.width).length != le.width &&
    (s.core g.core).readWaits gid g line o le.width (if le.byGroup then e.at_ else g.grp e.at_)
  if !page.sys && l.hits s.time o le.width && !(s.core g.core).writeWaits line o le.width && !behind then
    (s.tally g.core 0x08 1).deliver gid long
      (some (e.at_, loadValue signed (g.longIsScalar long) (l.bytes.getRun o le.width))) (s.time + Config.l1HitCycles)
  else
    (s.tally g.core 0x09 1).fetchLine g.core line page.sys (s.leaseTime g.launch) (s.inSealed g.context e.addr le.width) w

/-- Performs one store element (R268, R270). -/
def State.performStore (s : State) (gid : Nat) (g : Gang) (le : LogEntry) (e : Elem) (page : TlbEntry) : State :=
  let key := page.key e.addr
  let line := lineOf key
  let o := key % Config.lineBytes
  let bs := bytesLE le.width e.data
  if page.sys then
    s.sendHome g.core line ((List.range le.width).map fun i => (o + i, (bs[i]?).getD 0)) (.sys gid)
  else if (s.core g.core).writeWaits line o le.width then
    s.fetchLine g.core line false (s.leaseTime g.launch) (s.inSealed g.context e.addr le.width)
      { gid := gid, long := 0, at_ := e.at_, offset := o, width := le.width, signed := false,
        atomic := none, store := some bs, have_ := [] }
  else s.dirtyLine g.core line o bs

/-- Performs one atomic element: in the L1 when its bytes are there, after a fetch when they are not, or at the
home after the core has given up the word's bytes (R194, R195, R276). -/
def State.performAtomic (s : State) (gid : Nat) (g : Gang) (le : LogEntry) (e : Elem) (page : TlbEntry)
    (op : Nat) (scope : AtScope) : State :=
  let key := page.key e.addr
  let line := lineOf key
  let o := key % Config.lineBytes
  let long := le.long.getD 0
  match s.atomicPlace g scope page line with
  | .l1 =>
    if ((s.core g.core).line line).hits s.time o 4 && !(s.core g.core).writeWaits line o 4 then
      let (old, s) := s.atomicInLine g.core line o op e.data e.data2
      s.deliver gid long (some (e.at_, old.toNat)) (s.time + Config.l1HitCycles + 8)
    else
      s.fetchLine g.core line false (s.leaseTime g.launch) (s.inSealed g.context e.addr 4)
        { gid := gid, long := long, at_ := e.at_, offset := o, width := 4, signed := false,
          atomic := some (op, e.data, e.data2), store := none, have_ := [] }
  | .home cycles =>
    let l := (s.core g.core).line line
    let m := spanMask o 4
    let dirty := l.dirtyIn o 4
    let due := s.homeAt g.core line (s.time + cycles)
    let s := if (s.core g.core).l1.find line = none then s
      else
        let l' : Line := { l with dirty := l.dirty &&& ~~~m, valid := l.valid &&& ~~~m }
        s.updCore g.core fun c => { c with l1 := c.l1.put line l' }
    let s := if dirty.isEmpty then s
      else
        let (id, s) := s.fresh
        let w : WriteBack :=
          { core := g.core, line := line, bytes := dirty, cause := .core, due := due }
        let s := { s with writebacks := s.writebacks.put id w }
        s.at due (.writebackArrival id)
    let (id, s) := s.fresh
    let a : HomeAtomic :=
      { core := g.core, gid := gid, long := long, op := op, elems := [(e.at_, key, e.data, e.data2)],
        due := due }
    let s := { s with atomics := s.atomics.put id a }
    s.at due (.atomicAtHome id)

/-- Performs one element of an entry. -/
def State.performElem (s : State) (gid : Nat) (g : Gang) (le : LogEntry) (e : Elem) (page : TlbEntry) : State :=
  match le.access with
  | .load signed => s.performLoad gid g le e page signed
  | .store => s.performStore gid g le e page
  | .atomic op scope => s.performAtomic gid g le e page op scope

/-- An access waits in the log until a store or atomic that waits for its line is through (R191): an atomic that is to
leave for the home, and an access that may not join that one's fetch. -/
def State.heldAtLine (s : State) (gid : Nat) (g : Gang) (le : LogEntry) (e : Elem) (page : TlbEntry) : Bool :=
  let key := page.key e.addr
  let line := lineOf key
  let o := key % Config.lineBytes
  let c := s.core g.core
  let home := match le.access with
    | .atomic _ scope => s.atomicPlace g scope page line != .l1
    | _ => false
  c.fetches.any fun p => p.2.writeWaits line o le.width &&
    (home || s.atomicsOf g.core line p.1 (s.mayFollow gid) &&& spanMask o le.width != 0)

/-- What an access needs of its page. -/
def LogEntry.need (le : LogEntry) : Need :=
  match le.access with
  | .load _ => .read
  | .store => .write
  | .atomic op _ => .atomic op

/-- An element is held behind an older entry's waiting element that touches one of its bytes (R265). -/
def heldBy (older : List LogEntry) (width : Nat) (e : Elem) : Bool :=
  older.any fun o => o.elems.any fun x => !x.performed && overlaps x.addr o.width e.addr width

/-- The summary of an operand-log entry (R330): state 1 recoverable fault, 2 held, 3 unrecoverable, else
awaiting translation. -/
def logSummary (width : Nat) (le : LogEntry) (state : Nat) : List Byte :=
  let left := le.elems.filter fun e => !e.performed
  let lane := fun (e : Elem) => if le.byGroup then e.at_ * width else e.at_
  bytesLE 8 le.pos ++ bytesLE 1 le.slot.order ++ bytesLE 1 le.width ++ bytesLE 2 le.opcode ++
  bytesLE 1 state ++ bytesLE 3 0 ++ bytesLE 8 (laneMask (left.map lane)) ++
  bytesLE 8 ((left.map fun e => e.addr).foldl Nat.min (((left.map fun e => e.addr).head?).getD 0))

/-- Declares an unrecoverable fault of an entry (R266): PAGE is due at the gang's next bundle boundary, the
entry goes, and what its elements would have written keeps its old value. -/
def State.pageFault (s : State) (gid seq : Nat) (e : Elem) : State :=
  match s.gang gid with
  | none => s
  | some g =>
    match g.log.find? fun le => le.seq == seq with
    | none => s
    | some le =>
      let left := le.elems.filter fun e => !e.performed
      let lane := if le.byGroup then e.at_ * g.width else e.at_
      let t : Trap := { code := trapPAGE, slot := le.slot.order, gmask := groupMask [g.grp lane],
                        lmask := laneMask [lane], detail0 := e.addr, detail1 := le.num,
                        log := logSummary g.width le 3 }
      let s := s.putGang gid { g with log := g.log.filter (fun x => x.seq != seq), page := g.page ++ [(le.pos, t)] }
      match le.long with
      | none => s
      | some id => left.foldl (fun s _ => s.deliver gid id none s.time) s

/-- Marks an element of an entry. -/
def State.markElem (s : State) (gid seq at_ : Nat) (f : Elem → Elem) : State :=
  s.updGang gid fun g => { g with log := g.log.map fun le =>
    if le.seq = seq then { le with elems := le.elems.map fun e => if e.at_ = at_ then f e else e } else le }

/-- Tries the unperformed elements of an entry, in lane order: each that translates is performed at once; the
others wait on their walks or behind older elements (R190, R264, R265). -/
def State.tryElems (s : State) (gid seq : Nat) (older : List LogEntry) : List Elem → State
  | [] => s
  | e :: es =>
    match s.gang gid with
    | none => s
    | some g =>
      match g.log.find? fun le => le.seq == seq with
      | none => s
      | some le =>
        if e.performed || e.faulted || heldBy older le.width e then State.tryElems s gid seq older es
        else
          match s.translate g.core g.context e.addr le.need (.log gid seq) with
          | (.ok page, s) =>
            if s.heldAtLine gid g le e page then State.tryElems s gid seq older es
            else
              let s := s.performElem gid g le e page
              State.tryElems (s.markElem gid seq e.at_ fun e => { e with performed := true, faulted := false })
                gid seq older es
          | (.wait, s) => State.tryElems s gid seq older es
          | (.bad, s) => s.pageFault gid seq e

/-- Some of these publications of the gang are still to be made (R289). -/
def Gang.awaits (g : Gang) (pubs : List Nat) : Bool := pubs.any fun i => g.pubs.contains i

/-- An entry that a fence which only orders keeps waiting: for entries before the fence (R265), and for publications that
a release awaits (R289). -/
def LogEntry.fenced (le : LogEntry) (g : Gang) (older : List LogEntry) : Bool :=
  le.mark.any (fun m => older.any fun o => decide (o.seq < m)) || g.awaits le.pubs

/-- Tries the entries of a gang's log in order; entries whose elements have all been performed leave it (R190,
R265). -/
def State.tryLogFrom (s : State) (gid : Nat) : List LogEntry → List LogEntry → State
  | _, [] => s
  | older, le :: rest =>
    if (s.gang gid).any fun g => le.fenced g older then State.tryLogFrom s gid (older ++ [le]) rest
    else
      let s := s.tryElems gid le.seq older le.elems
      match s.gang gid with
      | none => s
      | some g =>
        match g.log.find? fun x => x.seq == le.seq with
        | none => State.tryLogFrom s gid older rest
        | some le' =>
          if le'.elems.all fun e => e.performed then
            State.tryLogFrom (s.putGang gid { g with log := g.log.filter fun x => x.seq != le.seq }) gid older rest
          else State.tryLogFrom s gid (older ++ [le']) rest

/-- Tries a gang's operand log. -/
def State.tryLog (s : State) (gid : Nat) : State :=
  match s.gang gid with
  | some g => if g.park = .stopped ∨ g.park = .killed then s else s.tryLogFrom gid [] g.log
  | none => s

/-! ## Events of the memory system -/

/-- Serves an access that waited for a line, in the order of joining (R290): a load takes the bytes that were
dirty when it joined, those an earlier waiter wrote since, and else the home's (R191); an atomic and a store act
on the line. -/
def State.serveWaiter (s : State) (core : Nat) (f : LineFetch) (home : List Byte) (w : Waiter) : State :=
  match w.atomic, w.store with
  | some (op, x, n), _ =>
    let (old, s) := s.atomicInLine core f.line w.offset op x n
    s.deliver w.gid w.long (some (w.at_, old.toNat)) (s.time + 8)
  | none, some bs => s.dirtyLine core f.line w.offset bs
  | none, none =>
    let l := (s.core core).line f.line
    let before := f.waiters.takeWhile fun x => x != w
    let bs := (List.range w.width).map fun i =>
      let o := w.offset + i
      if before.any fun x => x.writes && overlaps x.offset x.width o 1 then l.bytes.get o
      else match w.have_.find? fun p => p.1 == o with
        | some p => p.2
        | none => (home[o]?).getD 0
    let scalar := match s.gang w.gid with | some g => g.longIsScalar w.long | none => false
    s.deliver w.gid w.long (some (w.at_, loadValue w.signed scalar bs)) s.time

/-- A line as a fill merges it: its dirty bytes, the bytes that the core has written back and that are still on their
way, and else the home's; the bytes an atomic of the core is on its way to stay invalid (R191, R268, R273, R276). -/
def Line.filled (l : Line) (home : List Byte) (back : List (Nat × Byte)) (out : BitVec 128) (expiry : Option Nat) : Line :=
  let merged := (List.range Config.lineBytes).foldl (fun b o =>
    if l.dirty.getLsbD o then b
    else match back.find? fun p => p.1 == o with
      | some p => b.set o p.2
      | none => b.set o ((home[o]?).getD 0)) l.bytes
  { l with bytes := merged, valid := ~~~out ||| l.dirty, expiry := expiry }

/-- Tries the operand logs of a core's gangs. -/
def State.tryLogs (s : State) (core : Nat) : State := (s.core core).seats.vals.foldl State.tryLog s

/-- L1_FILL: the line comes from its home slice, merged under the dirty bytes and granted a lease, and every
access that waited for it is served (R268, R271, R272, R290). DESIGN CHOICE, log 13. -/
def execL1Fill (core id : Nat) (s : State) : Host.Outcome State Fault Refusal :=
  match (s.core core).fetches.find id with
  | none => .next s
  | some f =>
    let s := s.updCore core fun c => { c with fetches := c.fetches.del id }
    let home := s.bytesAt (f.line * Config.lineBytes) Config.lineBytes
    let s := s.keepInL2 f.line
    let s := if f.bypass then s
      else
        let s := s.makeRoom core f.line
        let t := s.time + f.lease
        let l' := ((s.core core).line f.line).filled home (s.bytesBack core f.line id) (s.atomicsOut core f.line id)
          (if f.sealedLine then none else some t)
        let s := s.updCore core fun c => { c with l1 := c.l1.put f.line l' }
        if f.sealedLine then s else (s.grantLease f.line core t).at t (.leaseExpiry core f.line)
    let s := f.waiters.foldl (fun s w => s.serveWaiter core f home w) s
    .next (if f.waiters.any Waiter.writes then s.tryLogs core else s)

/-- LEASE_EXPIRY: the clean bytes of an expired line are invalid (R271). DEDUCED, log 95. -/
def execLeaseExpiry (core line : Nat) (s : State) : Host.Outcome State Fault Refusal :=
  match (s.core core).l1.find line with
  | none => .next s
  | some l =>
    let valid := l.usable s.time
    .next (s.updCore core fun c =>
      if valid = 0 then { c with l1 := c.l1.del line } else { c with l1 := c.l1.put line { l with valid := valid } })

/-- DIRTY_TIMEOUT: a line dirty for 2,048 cycles is written back (R273). DEDUCED, log 95. -/
def execDirtyTimeout (core line : Nat) (s : State) : Host.Outcome State Fault Refusal :=
  match (s.core core).l1.find line with
  | none => .next s
  | some l =>
    if l.dirty ≠ 0 ∧ l.since + Config.dirtyCycles ≤ s.time then .next (s.writeBackLine core line .core)
    else .next s

/-- Joins a completion time to a gang's HORIZON, which never decreases (R274). -/
def State.joinHorizon (s : State) (gid gct : Nat) : State :=
  s.updGang gid fun g => { g with horizon := Nat.max g.horizon gct }

/-- WRITEBACK_ARRIVAL: the home slice merges the bytes and returns the global completion time (R273, R274). -/
def execWritebackArrival (id : Nat) (s : State) : Host.Outcome State Fault Refusal :=
  match s.writebacks.find id with
  | none => .next s
  | some w =>
    let gct := s.gct w.line w.core
    let s := { s with writebacks := s.writebacks.del id }
    let s := (s.writeCells (w.bytes.map fun p => (w.line * Config.lineBytes + p.1, p.2))).keepInL2 w.line
    match w.cause with
    | .gang gid => .next (s.joinHorizon gid gct)
    | .sys gid => .next (s.joinHorizon gid gct)
    | .core => .next (s.updCore w.core fun c => { c with evictHorizon := Nat.max c.evictHorizon gct })

/-- Makes clean bytes of a line invalid (R275, R276). DEDUCED, log 95. -/
def State.dropClean (s : State) (core line : Nat) (m : BitVec 128) : State :=
  match (s.core core).l1.find line with
  | none => s
  | some l =>
    let l' : Line := { l with valid := l.valid &&& (~~~m ||| l.dirty) }
    s.updCore core fun c => { c with l1 := c.l1.put line l' }

/-- ATOMIC_AT_HOME: the atomics take their place in the coherence order, each on the value the one before left;
the old values fill the destination eight cycles later (R194, R195, R276). -/
def execAtomicAtHome (id : Nat) (s : State) : Host.Outcome State Fault Refusal :=
  match s.atomics.find id with
  | none => .next s
  | some a =>
    let s := { s with atomics := s.atomics.del id }
    .next (a.elems.foldl (fun s (lane, key, x, n) =>
      let old : Word32 := BitVec.ofNat 32 (s.natAt key 4)
      let new := atomicNew a.op old (BitVec.ofNat 32 x) (BitVec.ofNat 32 n)
      let gct := s.gct (lineOf key) a.core
      let s := (s.writeMem key (bytesLE 4 new.toNat)).keepInL2 (lineOf key)
      let s := s.dropClean a.core (lineOf key) (spanMask (key % Config.lineBytes) 4)
      let s := s.joinHorizon a.gid gct
      s.deliver a.gid a.long (some (lane, old.toNat)) (s.time + 8)) s)

end Sys2Proof.Machine
end

