-- ==== Sys2Proof/Machine/Vector.lean ====
section
/-! DEFINITION. The V slots: lane arithmetic, compares, floating point, conversions, cross-lane operations and
indexed register access (R152 to R183). -/

namespace Sys2Proof.Machine

/-! ## Forms -/

/-- The check of a lane operation's sources: with no effective lane it reads nothing (R26, R153). -/
def checkLanes (gd : Guard) (srcs : List Src) (c : Cur) (g : Gang) : Verdict :=
  let eff := g.effLanes gd
  if eff.isEmpty then .go else checkSources c g (g.groupsOf eff) srcs

/-- A lane operation that lands something in its effective lanes, with the flags they raise (R153, R155). -/
def laneOp (gd : Guard) (d : RDest) (srcs : List Src) (beats : Nat) (latch : Bool)
    (f : State → Cur → Gang → List Nat → List (Nat × FResult)) (s : State) : Host.Outcome State Fault Refusal :=
  runOp (fun _ c g => checkLanes gd srcs c g)
    (fun s c g =>
      let eff := g.effLanes gd
      if eff.isEmpty then s
      else
        let rs := f s c g eff
        s.land c beats d (rs.map fun r => (r.1, r.2.1)) (g.groupFlags (rs.map fun r => (r.1, r.2.2))) latch) s

/-- A lane-wise result with flags. -/
def lanewise (f : State → Cur → Gang → Nat → FResult) (s : State) (c : Cur) (g : Gang) (eff : List Nat) :
    List (Nat × FResult) := eff.map fun p => (p, f s c g p)

/-- An integer operation on two vector sources (R159). -/
def vint2 (gd : Guard) (d : VReg) (a b : Operand) (beats : Nat) (f : Word32 → Word32 → Word32) :=
  laneOp gd (.v d.val) [.vec a, .vec b] beats true
    (lanewise fun s c g p => ((f (vsrc s c g a p) (vsrc s c g b p)).toNat, 0))

/-- An integer operation on one vector source (R159). -/
def vint1 (gd : Guard) (d : VReg) (a : Operand) (f : Word32 → Word32) :=
  laneOp gd (.v d.val) [.vec a] 1 true (lanewise fun s c g p => ((f (vsrc s c g a p)).toNat, 0))

/-- A compare of two vector sources, landing a predicate (R160). -/
def vcmp (gd : Guard) (d : Flag) (a b : Operand) (f : Word32 → Word32 → Bool) :=
  laneOp gd (.p d.val) [.vec a, .vec b] 1 false
    (lanewise fun s c g p => ((f (vsrc s c g a p) (vsrc s c g b p)).toNat, 0))

/-- A floating-point compare, landing a predicate (R160). -/
def fcmp (gd : Guard) (d : Flag) (a b : Operand) (cmp : FCompare) :=
  laneOp gd (.p d.val) [.vec a, .vec b] 1 false
    (lanewise fun s c g p =>
      let r := fCompare fp32 cmp (vsrc s c g a p).toNat (vsrc s c g b p).toNat
      (r.1.toNat, r.2))

/-- An FP64 compare (R160). -/
def dcmp (gd : Guard) (d : Flag) (a b : Operand) (cmp : FCompare) :=
  laneOp gd (.p d.val) [.pair a, .pair b] 4 false
    (lanewise fun _ c g p =>
      let r := fCompare fp64 cmp (psrc c g a p) (psrc c g b p)
      (r.1.toNat, r.2))

/-- Predicate logic (R161). -/
def plogic (gd : Guard) (d : Flag) (f : Gang → Nat → Bool) :=
  laneOp gd (.p d.val) [] 1 false (lanewise fun _ _ g p => ((f g p).toNat, 0))

/-- A floating-point operation of three, two or one vector sources under the group's rounding (R162, R164). -/
def vfp3 (gd : Guard) (d : VReg) (a b cc : Operand) (beats : Nat)
    (f : Rounding → Nat → Nat → Nat → FResult) :=
  laneOp gd (.v d.val) [.vec a, .vec b, .vec cc] beats true
    (lanewise fun s c g p =>
      f (g.rounding (g.grp p)) (vsrc s c g a p).toNat (vsrc s c g b p).toNat (vsrc s c g cc p).toNat)

def vfp2 (gd : Guard) (d : VReg) (a b : Operand) (beats : Nat) (f : Rounding → Nat → Nat → FResult) :=
  laneOp gd (.v d.val) [.vec a, .vec b] beats true
    (lanewise fun s c g p => f (g.rounding (g.grp p)) (vsrc s c g a p).toNat (vsrc s c g b p).toNat)

def vfp1 (gd : Guard) (d : VReg) (a : Operand) (beats : Nat) (f : Rounding → Nat → FResult) :=
  laneOp gd (.v d.val) [.vec a] beats true
    (lanewise fun s c g p => f (g.rounding (g.grp p)) (vsrc s c g a p).toNat)

/-- An FP64 operation on pairs (R166). -/
def dfp (gd : Guard) (d : VReg) (srcs : List Operand) (beats : Nat) (f : Rounding → List Nat → FResult) :=
  laneOp gd (.pair d.val) (srcs.map Src.pair) beats true
    (lanewise fun _ c g p => f (g.rounding (g.grp p)) (srcs.map fun o => psrc c g o p))

/-- The n-th operand of a pair operation. -/
def arg (l : List Nat) (n : Nat) : Nat := (l[n]?).getD 0

/-! ## Integer operations (R159) -/

/-- Bits [63:32] of the signed product. -/
def vmulHigh (a b : Word32) : Word32 := (a.signExtend 64 * b.signExtend 64).extractLsb' 32 32

/-- |a| mod 2³². -/
def vabs (a : Word32) : Word32 := if a.msb then -a else a

def execVadd (gd : Guard) (d : VReg) (a b : Operand) := vint2 gd d a b 1 fun x y => x + y
def execVsub (gd : Guard) (d : VReg) (a b : Operand) := vint2 gd d a b 1 fun x y => x - y
def execVmul (gd : Guard) (d : VReg) (a b : Operand) := vint2 gd d a b 2 fun x y => x * y
def execVmulh (gd : Guard) (d : VReg) (a b : Operand) := vint2 gd d a b 2 vmulHigh
def execVmad (gd : Guard) (d : VReg) (a b cc : Operand) :=
  laneOp gd (.v d.val) [.vec a, .vec b, .vec cc] 2 true
    (lanewise fun s c g p => ((vsrc s c g a p * vsrc s c g b p + vsrc s c g cc p).toNat, 0))
def execVand (gd : Guard) (d : VReg) (a b : Operand) := vint2 gd d a b 1 fun x y => x &&& y
def execVor (gd : Guard) (d : VReg) (a b : Operand) := vint2 gd d a b 1 fun x y => x ||| y
def execVxor (gd : Guard) (d : VReg) (a b : Operand) := vint2 gd d a b 1 fun x y => x ^^^ y
def execVshl (gd : Guard) (d : VReg) (a b : Operand) := vint2 gd d a b 1 fun x y => x <<< (y.toNat % 32)
def execVshr (gd : Guard) (d : VReg) (a b : Operand) := vint2 gd d a b 1 fun x y => x >>> (y.toNat % 32)
def execVsar (gd : Guard) (d : VReg) (a b : Operand) := vint2 gd d a b 1 fun x y => x.sshiftRight (y.toNat % 32)
/-- The lesser or greater lane under an order. -/
def lanePick (less : Word32 → Word32 → Bool) (greater : Bool) (a b : Word32) : Word32 :=
  if less a b != greater then a else b
def execVmin (gd : Guard) (d : VReg) (a b : Operand) := vint2 gd d a b 1 (lanePick BitVec.slt false)
def execVmax (gd : Guard) (d : VReg) (a b : Operand) := vint2 gd d a b 1 (lanePick BitVec.slt true)
def execVminw (gd : Guard) (d : VReg) (a b : Operand) := vint2 gd d a b 1 (lanePick BitVec.ult false)
def execVmaxw (gd : Guard) (d : VReg) (a b : Operand) := vint2 gd d a b 1 (lanePick BitVec.ult true)
def execVabs (gd : Guard) (d : VReg) (a : Operand) := vint1 gd d a vabs
def execVclz (gd : Guard) (d : VReg) (a : Operand) := vint1 gd d a fun x => BitVec.ofNat 32 (32 - bitLength x.toNat)
def execVcnt (gd : Guard) (d : VReg) (a : Operand) := vint1 gd d a fun x => BitVec.ofNat 32 (popCount x)
def execVsel (gd : Guard) (d : VReg) (a b pn : Operand) :=
  laneOp gd (.v d.val) [.vec a, .vec b] 1 true
    (lanewise fun s c g p => ((if predSrc g pn p then vsrc s c g a p else vsrc s c g b p).toNat, 0))
def execVmov (gd : Guard) (d : VReg) (a : Operand) := vint1 gd d a fun x => x
def execVli (gd : Guard) (d : VReg) (k : ImmSlot) :=
  laneOp gd (.v d.val) [] 1 true (lanewise fun _ c _ _ => (((c.imm k.val).setWidth 32).toNat, 0))

/-! ## Compares and predicate logic (R160, R161) -/

def execVceq (gd : Guard) (d : Flag) (a b : Operand) := vcmp gd d a b fun x y => x == y
def execVcne (gd : Guard) (d : Flag) (a b : Operand) := vcmp gd d a b fun x y => x != y
def execVclt (gd : Guard) (d : Flag) (a b : Operand) := vcmp gd d a b BitVec.slt
def execVcle (gd : Guard) (d : Flag) (a b : Operand) := vcmp gd d a b BitVec.sle
def execVcltw (gd : Guard) (d : Flag) (a b : Operand) := vcmp gd d a b BitVec.ult
def execVclew (gd : Guard) (d : Flag) (a b : Operand) := vcmp gd d a b BitVec.ule
def execFceq (gd : Guard) (d : Flag) (a b : Operand) := fcmp gd d a b .eq
def execFclt (gd : Guard) (d : Flag) (a b : Operand) := fcmp gd d a b .lt
def execFcle (gd : Guard) (d : Flag) (a b : Operand) := fcmp gd d a b .le
def execFcun (gd : Guard) (d : Flag) (a b : Operand) := fcmp gd d a b .un
def execDceq (gd : Guard) (d : Flag) (a b : Operand) := dcmp gd d a b .eq
def execDclt (gd : Guard) (d : Flag) (a b : Operand) := dcmp gd d a b .lt
def execDcle (gd : Guard) (d : Flag) (a b : Operand) := dcmp gd d a b .le
def execPand (gd : Guard) (d : Flag) (a b : Operand) := plogic gd d fun g p => predSrc g a p && predSrc g b p
def execPor (gd : Guard) (d : Flag) (a b : Operand) := plogic gd d fun g p => predSrc g a p || predSrc g b p
def execPxor (gd : Guard) (d : Flag) (a b : Operand) := plogic gd d fun g p => predSrc g a p != predSrc g b p
def execPandn (gd : Guard) (d : Flag) (a b : Operand) := plogic gd d fun g p => predSrc g a p && !predSrc g b p
def execPmov (gd : Guard) (d : Flag) (a : Operand) := plogic gd d fun g p => predSrc g a p

/-! ## Floating point (R162 to R167) -/

def execFadd (gd : Guard) (d : VReg) (a b : Operand) := vfp2 gd d a b 2 fun rm => fAdd fp32 rm
def execFsub (gd : Guard) (d : VReg) (a b : Operand) := vfp2 gd d a b 2 fun rm => fSub fp32 rm
def execFmul (gd : Guard) (d : VReg) (a b : Operand) := vfp2 gd d a b 2 fun rm => fMul fp32 rm
def execFfma (gd : Guard) (d : VReg) (a b c : Operand) := vfp3 gd d a b c 2 fun rm => fFma fp32 rm
def execFfms (gd : Guard) (d : VReg) (a b c : Operand) := vfp3 gd d a b c 2 fun rm => fFms fp32 rm
def execFnma (gd : Guard) (d : VReg) (a b c : Operand) := vfp3 gd d a b c 2 fun rm => fFnma fp32 rm
def execFmin (gd : Guard) (d : VReg) (a b : Operand) := vfp2 gd d a b 1 fun _ => fMinMax fp32 false
def execFmax (gd : Guard) (d : VReg) (a b : Operand) := vfp2 gd d a b 1 fun _ => fMinMax fp32 true
def execFabs (gd : Guard) (d : VReg) (a : Operand) := vfp1 gd d a 1 fun _ => fSignOp fp32 false
def execFneg (gd : Guard) (d : VReg) (a : Operand) := vfp1 gd d a 1 fun _ => fSignOp fp32 true
def execFrcp (gd : Guard) (d : VReg) (a : Operand) := vfp1 gd d a 3 fun _ => fRcp fp32
def execFrsq (gd : Guard) (d : VReg) (a : Operand) := vfp1 gd d a 3 fun _ => fRsq fp32
def execFsqrt (gd : Guard) (d : VReg) (a : Operand) := vfp1 gd d a 4 fun rm => fSqrt fp32 rm
def execFexp2 (gd : Guard) (d : VReg) (a : Operand) := vfp1 gd d a 3 fun _ => fExp2
def execFlog2 (gd : Guard) (d : VReg) (a : Operand) := vfp1 gd d a 3 fun _ => fLog2
def execFrnd (gd : Guard) (rm : Rounding) (d : VReg) (a : Operand) := vfp1 gd d a 1 fun _ => fRound fp32 rm

def execDadd (gd : Guard) (d : VReg) (a b : Operand) := dfp gd d [a, b] 4 fun rm l => fAdd fp64 rm (arg l 0) (arg l 1)
def execDsub (gd : Guard) (d : VReg) (a b : Operand) := dfp gd d [a, b] 4 fun rm l => fSub fp64 rm (arg l 0) (arg l 1)
def execDmul (gd : Guard) (d : VReg) (a b : Operand) := dfp gd d [a, b] 4 fun rm l => fMul fp64 rm (arg l 0) (arg l 1)
def execDfma (gd : Guard) (d : VReg) (a b c : Operand) :=
  dfp gd d [a, b, c] 4 fun rm l => fFma fp64 rm (arg l 0) (arg l 1) (arg l 2)
def execDrcp (gd : Guard) (d : VReg) (a : Operand) := dfp gd d [a] 4 fun _ l => fRcp fp64 (arg l 0)
def execDrsq (gd : Guard) (d : VReg) (a : Operand) := dfp gd d [a] 4 fun _ l => fRsq fp64 (arg l 0)
def execDsqrt (gd : Guard) (d : VReg) (a : Operand) := dfp gd d [a] 8 fun rm l => fSqrt fp64 rm (arg l 0)

def execHadd2 (gd : Guard) (bf : Bool) (d : VReg) (a b : Operand) :=
  vfp2 gd d a b 2 fun rm x y => packed2 (fun p q _ => fAdd (packedFormat bf) rm p q) x y 0
def execHmul2 (gd : Guard) (bf : Bool) (d : VReg) (a b : Operand) :=
  vfp2 gd d a b 2 fun rm x y => packed2 (fun p q _ => fMul (packedFormat bf) rm p q) x y 0
def execHfma2 (gd : Guard) (bf : Bool) (d : VReg) (a b c : Operand) :=
  vfp3 gd d a b c 2 fun rm => packed2 (fFma (packedFormat bf) rm)

/-! ## Conversions (R168 to R174) -/

def execCvtif (gd : Guard) (uns : Bool) (d : VReg) (a : Operand) :=
  laneOp gd (.v d.val) [.vec a] 2 true
    (lanewise fun s c g p => cvtIF (g.rounding (g.grp p)) uns (vsrc s c g a p))
def execCvtfi (gd : Guard) (m : FiMode) (d : VReg) (a : Operand) :=
  vfp1 gd d a 2 fun rm x => cvtFI (if m.rz then .rz else rm) m.uns x
def execCvtfd (gd : Guard) (d : VReg) (a : Operand) :=
  laneOp gd (.pair d.val) [.vec a] 2 true (lanewise fun s c g p => cvtFD (vsrc s c g a p).toNat)
def execCvtdf (gd : Guard) (d : VReg) (a : Operand) :=
  laneOp gd (.v d.val) [.pair a] 2 true
    (lanewise fun _ c g p => cvtDF (g.rounding (g.grp p)) (psrc c g a p))

/-- The launch's format slot n; a handler run uses the slots of the launch it serves (R83, R331). -/
def State.formatSlot (s : State) (g : Gang) (n : Nat) : Word32 :=
  match s.launch g.launch with
  | some l => (l.formats[n]?).getD 0
  | none => 0

/-- The element format of a slot; FP32 where the slot is of no launch. -/
def elemFormat (w : Word32) : ElemFormat := (slotFormat w).getD .fp32

/-- The lowest bit of field j of a lane word (R170). -/
def fieldLow (f : ElemFormat) (j : Nat) : Nat :=
  if f.bits = 16 then 16 * (j % 2) else if f.bits = 8 then 8 * j else 0

/-- MFORMAT for a slot that holds FP64 (R89). -/
def checkFormat (s : State) (c : Cur) (g : Gang) (gd : Guard) (sp : SlotPart) : Verdict :=
  let eff := g.effLanes gd
  trapIf (!eff.isEmpty && elemFormat (s.formatSlot g sp.slot.val) == .fp64)
    (c.trap trapMFORMAT (groupMask (g.groupsOf eff)) 0 (sp.part.val * 8 + sp.slot.val) 0)

/-- The sources of CVTN (R171). -/
def cvtnSources (a : Operand) : CvtMode → List Src
  | .ef r e => [.vec a, .vreg r.val e]
  | _ => [.vec a]

/-- CVTN: one field of each effective lane's word, and with error feedback the companion (R171 to R173). -/
def execCvtn (gd : Guard) (d : VReg) (a : Operand) (sp : SlotPart) (m : CvtMode) (s : State) :
    Host.Outcome State Fault Refusal :=
  runOp
    (fun s c g => (checkLanes gd (cvtnSources a m) c g).andThen fun _ => checkFormat s c g gd sp)
    (fun s c g =>
      let eff := g.effLanes gd
      if eff.isEmpty then s
      else
        let w := s.formatSlot g sp.slot.val
        let f := elemFormat w
        let dest : RDest := .field d.val (fieldLow f sp.part.val) f.bits
        match m with
        | .ef r _ =>
          let rs := eff.map fun p => (p, feedback w f (vsrc s c g a p).toNat (g.vreg r.val p).toNat)
          let s := s.land c 2 dest (rs.map fun x => (x.1, x.2.1)) (g.groupFlags (rs.map fun x => (x.1, x.2.2.2))) true
          s.land c 2 (.v r.val) (rs.map fun x => (x.1, x.2.2.1)) [] false
        | m =>
          let rm : Rounding := match m with | .rz => .rz | _ => .rne
          let sat := match m with | .sat => true | _ => slotSat w
          let rs := eff.map fun p => (p, narrow w f rm sat (vsrc s c g a p).toNat)
          s.land c 2 dest (rs.map fun x => (x.1, x.2.1)) (g.groupFlags (rs.map fun x => (x.1, x.2.2))) true) s

/-- CVTW (R174). -/
def execCvtw (gd : Guard) (d : VReg) (a : Operand) (sp : SlotPart) (s : State) :
    Host.Outcome State Fault Refusal :=
  runOp
    (fun s c g => (checkLanes gd [.vec a] c g).andThen fun _ => checkFormat s c g gd sp)
    (fun s c g =>
      let eff := g.effLanes gd
      if eff.isEmpty then s
      else
        let w := s.formatSlot g sp.slot.val
        let f := elemFormat w
        let rs := eff.map fun p =>
          (p, widen w f ((vsrc s c g a p).toNat / 2 ^ fieldLow f sp.part.val % 2 ^ f.bits))
        s.land c 2 (.v d.val) (rs.map fun x => (x.1, x.2.1)) (g.groupFlags (rs.map fun x => (x.1, x.2.2))) true) s

/-! ## Cross-lane operations (R175 to R178) -/

def execVshf (gd : Guard) (d : VReg) (a b cc : Operand) :=
  laneOp gd (.v d.val) [.vec a, .vec b, .vec cc] 2 true
    (lanewise fun s c g p =>
      let i := (vsrc s c g b p).toNat
      ((if i < g.width then vsrc s c g a (g.grp p * g.width + i) else vsrc s c g cc p).toNat, 0))

def execVbcast (gd : Guard) (d : VReg) (a b : Operand) :=
  laneOp gd (.v d.val) [.vec a, .vec b] 2 true
    (lanewise fun s c g p =>
      let base := g.grp p * g.width
      let i := (vsrc s c g b base).toNat
      ((if i < g.width then vsrc s c g a (base + i) else 0).toNat, 0))

def execVrot (gd : Guard) (d : VReg) (a b : Operand) :=
  laneOp gd (.v d.val) [.vec a, .vec b] 2 true
    (lanewise fun s c g p =>
      let base := g.grp p * g.width
      let k := (vsrc s c g b base).toNat
      ((if k < g.width then vsrc s c g a (base + (p - base + k) % g.width) else 0).toNat, 0))

/-- One level of the pairwise tree: each element carries its value and whether an effective lane is in it. -/
def treeLevel (f : Nat → Nat → FResult) : List (Nat × Bool) → List (Nat × Bool) × FFlags
  | (x, ex) :: (y, ey) :: l =>
    let r := f x y
    let (rest, fl) := treeLevel f l
    ((r.1, ex || ey) :: rest, (if ex || ey then r.2 else 0) ||| fl)
  | l => (l, 0)

/-- The pairwise tree of R177, level by level. -/
def reduceTree (f : Nat → Nat → FResult) : Nat → List (Nat × Bool) → Nat × FFlags
  | 0, l => ((l.head?.map Prod.fst).getD 0, 0)
  | n + 1, l =>
    let (l', fl) := treeLevel f l
    let r := reduceTree f n l'
    (r.1, fl ||| r.2)

/-- VRED's operation (R177). -/
def redFn (op : RedOp) (rm : Rounding) (x y : Nat) : FResult :=
  match op with
  | .fadd => fAdd fp32 rm x y
  | .fmin => fMinMax fp32 false x y
  | .fmax => fMinMax fp32 true x y
  | .iadd => ((x + y) % 2 ^ 32, 0)

/-- What a lane that is not effective contributes (R177). -/
def redNeutral : RedOp → Nat
  | .fadd => 0x80000000 | .fmin => 0x7F800000 | .fmax => 0xFF800000 | .iadd => 0

def execVred (gd : Guard) (op : RedOp) (d : VReg) (a : Operand) :=
  laneOp gd (.v d.val) [.vec a] 3 true fun s c g eff =>
    (g.groupsOf eff).flatMap fun k =>
      let leaves := (g.lanes k).map fun p =>
        if eff.contains p then ((vsrc s c g a p).toNat, true) else (redNeutral op, false)
      let r := reduceTree (redFn op (g.rounding k)) 6 leaves
      (eff.filter fun p => g.grp p == k).map fun p => (p, r)

/-- The prefix sums of R178 over the effective lanes of one group. -/
def scanLanes (rm : Rounding) (val : Nat → Nat) : List Nat → Nat → List (Nat × FResult)
  | [], _ => []
  | p :: ps, acc =>
    let r := fAdd fp32 rm acc (val p)
    (p, r) :: scanLanes rm val ps r.1

def execVscan (gd : Guard) (d : VReg) (a : Operand) :=
  laneOp gd (.v d.val) [.vec a] 3 true fun s c g eff =>
    (g.groupsOf eff).flatMap fun k =>
      scanLanes (g.rounding k) (fun p => (vsrc s c g a p).toNat) (eff.filter fun p => g.grp p == k) 0x80000000

/-! ## Indexed register access (R179 to R182) -/

/-- The lanes of the active groups. -/
def Gang.activeLanes (g : Gang) : List Nat := g.activeGroups.flatMap g.lanes

/-- The distinct banks that the registers named lie in, ascending (R23, R180). -/
def banksOf (regs : List Nat) : List Nat := (List.range 8).filter fun b => regs.any fun r => r % 8 == b

/-- Jobs waiting ahead of the index port; the one running is not counted (R180). -/
def Core.indexWaiting (c : Core) : Nat := c.index.countP fun j => !j.started

/-- Index jobs of the bundle in slots before the issuing one that have an effective lane (R180). -/
def indexBefore (c : Cur) (g : Gang) : Nat :=
  c.ops.countP fun (sl, i) => decide (sl.order < c.slot.order) &&
    match i with
    | .vrdx gd _ _ => !(g.effLanes gd).isEmpty
    | .vwrx gd _ _ => !(g.effLanes gd).isEmpty
    | _ => false

/-- Jobs that find a place: four wait ahead of the port, and with the port idle in this beat one more starts at once
(R180). -/
def Core.indexRoom (c : Core) (beat : Nat) : Nat := if c.index.isEmpty && decide (c.indexAt ≤ beat) then 5 else 4

/-- The check of an index operation: a place in the queue, then its sources (R17, R180). -/
def checkIndex (gd : Guard) (srcs : List Src) (s : State) (c : Cur) (g : Gang) : Verdict :=
  let k := s.core g.core
  (holdIf (!(g.effLanes gd).isEmpty && decide (k.indexRoom s.beat < k.indexWaiting + indexBefore c g + 1))
    .unitFull).andThen fun _ => checkLanes gd srcs c g

/-! ## Reading a bank -/

/-- The registers of a bank that a job's effective lanes name. -/
def IndexJob.bankLanes (j : IndexJob) (bank : Nat) : List (Nat × Nat) :=
  j.names.filter fun p => p.2 % 8 == bank && j.effective.getLsbD p.1

/-- A register that the job's effective lanes name in its next bank is empty (R180). D itself is read as it was before
the VRDX (R181). -/
def IndexJob.held (j : IndexJob) (g : Gang) : Bool :=
  match j.dest, j.banks with
  | some d, b :: _ => (j.bankLanes b).any fun p => p.2 != d && g.vEmpty p.2
  | _, _ => false

/-- What a job's next bank delivers: D as it was before the VRDX, other registers as they stand (R180, R181). -/
def IndexJob.bankVals (j : IndexJob) (g : Gang) : List (Nat × Nat) :=
  match j.dest, j.banks with
  | some d, b :: _ => (j.bankLanes b).map fun p =>
      if p.2 = d then (p.1, (j.old.find? fun o => o.1 == p.1).elim 0 Prod.snd) else (p.1, (g.vreg p.2 p.1).toNat)
  | _, _ => []

/-- What a job's first bank delivers if the job starts in the beat of its issue: its registers as they stood at the
start of that beat, before its own bundle and what was filled in the beat; nothing while one of them is empty (R180). -/
def IndexJob.firstVals (j : IndexJob) (g : Gang) : Option (List (Nat × Nat)) :=
  let filled := match j.dest, j.banks with
    | some d, b :: _ => (j.bankLanes b).any fun p => p.2 != d && g.vFilled.find p.2 == some j.issued
    | _, _ => false
  if j.held g || filled then none else some (j.bankVals g)

/-- The registers VWRX's effective lanes name (R179). -/
def vwrxRegs (s : State) (c : Cur) (g : Gang) (gd : Guard) (b : Operand) : List Nat :=
  let named := (g.effLanes gd).map fun p => (vsrc s c g b p).toNat % 64
  (List.range 64).filter fun r => named.contains r

/-- The vector registers that the bundle's slots before or after the issuing one write, where they are
effective (R182). -/
def otherDests (s : State) (c : Cur) (g : Gang) (after : Bool) : List Nat :=
  (c.ops.filter fun x => if after then decide (c.slot.order < x.1.order) else decide (x.1.order < c.slot.order)).flatMap
    fun (_, i) =>
      match i with
      | .vwrx gd _ b => vwrxRegs s c g gd b
      | i => match i.shape with
        | some sh =>
          if (g.effective sh).isEmpty then []
          else sh.dests.filterMap fun d => match d with | .v r => some r | _ => none
        | none => []

/-- VRDX (R179 to R181). -/
def execVrdx (gd : Guard) (d : VReg) (a : Operand) (s : State) : Host.Outcome State Fault Refusal :=
  runOp (fun s c g => checkIndex gd [.vec a] s c g)
    (fun s c g =>
      let eff := g.effLanes gd
      if eff.isEmpty then s
      else
        let names := g.activeLanes.map fun p => (p, (vsrc s c g a p).toNat % 64)
        let old := eff.map fun p => (p, (g.vreg d.val p).toNat)
        let s := (s.ownRegister c.gid d.val).updGang c.gid fun live =>
          { live with vAwait := live.vAwait.put d.val c.seq }
        let job : IndexJob :=
          { gid := c.gid, seq := c.seq, dest := some d.val, names := names,
            effective := BitVec.ofNat 64 (laneMask eff), vals := [], skip := [], old := old, collide := 0,
            banks := banksOf (names.map Prod.snd), started := false, issued := s.beat, first := none, blocked := false }
        let job := { job with first := job.firstVals g }
        (s.updCore g.core fun k => { k with index := k.index ++ [job] }).atOnce (4 * s.beat) (.indexJobLand g.core)) s

/-- VWRX (R179 to R182): each register an effective lane names is empty until the job lands, but for one that a
later slot of the bundle writes: of two VWRXs of one bundle that name a register, V0's writes to it are discarded whole.
DEDUCED, log 109. -/
def execVwrx (gd : Guard) (a b : Operand) (s : State) : Host.Outcome State Fault Refusal :=
  runOp (fun s c g => checkIndex gd [.vec a, .vec b] s c g)
    (fun s c g =>
      let eff := g.effLanes gd
      if eff.isEmpty then s
      else
        let names := g.activeLanes.map fun p => (p, (vsrc s c g b p).toNat % 64)
        let regs := vwrxRegs s c g gd b
        let skip := regs.filter fun r => (otherDests s c g true).contains r
        -- groups that own a lane VWRX named for a register another slot of the bundle writes
        let shared := regs.filter fun r => skip.contains r || (otherDests s c g false).contains r
        let hit := groupMask (g.groupsOf (eff.filter fun p => shared.any fun r => names.contains (p, r)))
        let s := (regs.filter fun r => !skip.contains r).foldl (fun s r => s.ownRegister c.gid r) s
        let s := s.updGang c.gid fun live =>
          (regs.filter fun r => !skip.contains r).foldl (fun l r => { l with vAwait := l.vAwait.put r c.seq }) live
        let job : IndexJob :=
          { gid := c.gid, seq := c.seq, dest := none, names := names,
            effective := BitVec.ofNat 64 (laneMask eff), vals := eff.map fun p => (p, (vsrc s c g a p).toNat),
            skip := skip, old := [], collide := hit, banks := banksOf (names.map Prod.snd), started := false, issued := s.beat, first := none, blocked := false }
        let job := { job with first := job.firstVals g }
        (s.updCore g.core fun k => { k with index := k.index ++ [job] }).atOnce (4 * s.beat) (.indexJobLand g.core)) s

end Sys2Proof.Machine
end

