-- ==== Sys2Proof/Machine/Access.lean ====
section
/-! DEFINITION. The memory accesses of the C slots: loads, stores and atomics through the operand log (R187 to
R192, R194, R195) and the team's pad (R66 to R68, R193). -/

namespace Sys2Proof.Machine

/-! ## Accesses through the operand log -/

/-- The bytes of a width (R186). -/
def widthBytes : Width → Nat
  | .w1 => 1 | .w2 => 2 | .w4 => 4 | .w8 => 8

/-- An operation that takes an operand-log entry (R190). -/
def takesLog (sh : Shape) : Bool :=
  sh.cls == .C && (let n := sh.op.toNat
    decide (1 ≤ n ∧ n ≤ 8) || decide (0x10 ≤ n ∧ n ≤ 0x1A))

/-- Entries that the bundle's slots before the issuing one take (R190). -/
def logBefore (c : Cur) (g : Gang) : Nat :=
  c.ops.countP fun (sl, i) => decide (sl.order < c.slot.order) &&
    match i.shape with
    | some sh => takesLog sh && !(g.effective sh).isEmpty
    | none => false

/-- An access as its operation lays it out: opcode, width in bytes, what it does, whether its elements stand at
group positions. -/
structure AccessForm where
  opcode : Nat
  width : Nat
  access : Access
  byGroup : Bool
deriving DecidableEq, Repr

def AccessForm.stores (f : AccessForm) : Bool :=
  match f.access with
  | .load _ => false
  | _ => true

/-- The lane position that stands for an element in a trap record: a group access's is its first lane. -/
def AccessForm.lane (f : AccessForm) (g : Gang) (e : Elem) : Nat := if f.byGroup then e.at_ * g.width else e.at_

/-- A trap of the elements given (R189): the groups and lanes that raised it. DEDUCED, log 91. -/
def AccessForm.trap (f : AccessForm) (c : Cur) (g : Gang) (code detail : Nat) (bad : List Elem) : Trap :=
  c.trap code (groupMask (bad.map fun e => g.grp (f.lane g e))) (laneMask (bad.map (f.lane g))) detail 0

/-- The lowest address of some elements. DEDUCED, log 91. -/
def lowestAddr (l : List Elem) : Nat :=
  match l with
  | [] => 0
  | e :: es => es.foldl (fun a x => Nat.min a x.addr) e.addr

/-- The operand log has no place for the access (R190). -/
def logFull (c : Cur) (g : Gang) : Bool := decide (8 < g.log.length + logBefore c g + 1)

/-- The checks of an access at issue (R17, R189, R190): a place in the log, its sources, ALIGN, TEMPLATE.
DEDUCED, log 24, 90. -/
def checkAccess (f : AccessForm) (groups : List Nat) (srcs : List Src) (s : State) (c : Cur) (g : Gang) (es : List Elem) :
    Verdict :=
  (holdIf (logFull c g) .unitFull).andThen fun _ => (checkSources c g groups srcs).andThen fun _ =>
    let bad := es.filter fun e => e.addr % f.width != 0
    let hit := es.filter fun e => f.stores && s.inSealed g.context e.addr f.width
    (trapIf (!bad.isEmpty) (f.trap c g trapALIGN (lowestAddr bad) bad)).andThen fun _ =>
      trapIf (!hit.isEmpty) (f.trap c g trapTEMPLATE 0 hit)

/-- The number the next operand-log entry takes: the next after the last taken that is free. DEDUCED, log 49. -/
def Gang.logNumber (g : Gang) : Nat :=
  (((List.range 8).map fun i => (g.logNext + i) % 8).find? fun n => !g.log.any fun e => e.num == n).getD 0

/-- Takes an operand-log entry at issue and tries it (R70, R190): a load's or atomic's destination goes empty,
stores and atomics set VISIBLE (R192). DEDUCED, log 49. -/
def State.issueAccess (s : State) (c : Cur) (f : AccessForm) (dest : Option LDest) (es : List Elem)
    (groups : List Nat) : State :=
  let (long, s) := match dest with
    | some d => let (id, s) := s.beginLong c.gid c.seq d groups es.length false
      (some id, s.updGang c.gid fun g => { g with longs := g.longs.upd id fun l => { l with logged := true } })
    | none => (none, s)
  let s := s.updGang c.gid fun g =>
    let n := g.logNumber
    let le : LogEntry :=
      { seq := c.seq, num := n, pos := c.pos, slot := c.slot, opcode := f.opcode, width := f.width,
        access := f.access, elems := es, byGroup := f.byGroup, long := long, mark := g.orderMark,
        pubs := g.orderPubs }
    let g := { g with log := g.log ++ [le], logNext := (n + 1) % 8 }
    if f.stores then g.setVisible groups else g
  let s := match s.gang c.gid with | some g => s.tally g.core 0x0B 1 | none => s
  s.tryLog c.gid

/-- An element to be performed. -/
def Elem.of (at_ : Nat) (addr : Word64) (data : Nat) : Elem :=
  { at_ := at_, addr := addr.toNat, data := data, data2 := 0, performed := false, faulted := false }

/-- An access of one element for each effective group (R185, R187). -/
def groupAccess (gd : Guard) (f : AccessForm) (srcs : List Src) (dest : Option LDest)
    (elem : State → Cur → Gang → Nat → Elem) (s : State) : Host.Outcome State Fault Refusal :=
  runOp
    (fun s c g =>
      let eff := g.effGroups gd
      if eff.isEmpty then .go
      else checkAccess f eff srcs s c g (eff.map (elem s c g)))
    (fun s c g =>
      let eff := g.effGroups gd
      if eff.isEmpty then s else s.issueAccess c f dest (eff.map (elem s c g)) eff) s

/-- An access of one element for each effective lane (R185, R187). -/
def laneAccess (gd : Guard) (f : AccessForm) (srcs : List Src) (dest : Option LDest)
    (elem : State → Cur → Gang → Nat → Elem) (s : State) : Host.Outcome State Fault Refusal :=
  runOp
    (fun s c g =>
      let eff := g.effLanes gd
      if eff.isEmpty then .go
      else checkAccess f (g.groupsOf eff) srcs s c g (eff.map (elem s c g)))
    (fun s c g =>
      let eff := g.effLanes gd
      if eff.isEmpty then s else s.issueAccess c f dest (eff.map (elem s c g)) (g.groupsOf eff)) s

/-- The address of a group access: A + B (R187). -/
def groupAddr (s : State) (c : Cur) (g : Gang) (a b : Operand) (k : Nat) : Word64 := ssrc s c g a k + ssrc s c g b k

/-- The address of a lane access: A + B × width (R187). -/
def laneAddr (s : State) (c : Cur) (g : Gang) (a b : Operand) (w p : Nat) : Word64 :=
  ssrc s c g a (g.grp p) + (vsrc s c g b p).setWidth 64 * BitVec.ofNat 64 w

/-- The address of a block access: the group's base and four bytes a lane (R187). -/
def blockAddr (s : State) (c : Cur) (g : Gang) (a : Operand) (p : Nat) : Word64 :=
  ssrc s c g a (g.grp p) + BitVec.ofNat 64 (4 * (p % g.width))

/-- The destination of a lane load: an even pair for eight bytes (R188). -/
def laneDest (w : Nat) (d : VReg) : LDest := if w = 8 then .pair d.val else .v d.val

/-- The data of a lane store: a pair for eight bytes (R188). -/
def laneData (s : State) (c : Cur) (g : Gang) (w : Nat) (o : Operand) (p : Nat) : Nat :=
  if w = 8 then psrc c g o p else (vsrc s c g o p).toNat

/-- The data source of a lane store. -/
def dataSrc (w : Nat) (o : Operand) : Src := if w = 8 then .pair o else .vec o

/-- LDS (R188). -/
def execLds (gd : Guard) (w : Width) (d : SReg) (a b : Operand) :=
  groupAccess gd { opcode := 1, width := (widthBytes w), access := .load true, byGroup := true } [.sca a, .sca b]
    (some (.s d.val)) fun s c g k => Elem.of k (groupAddr s c g a b k) 0

/-- LDSW (R188). -/
def execLdsw (gd : Guard) (w : Width) (d : SReg) (a b : Operand) :=
  groupAccess gd { opcode := 2, width := (widthBytes w), access := .load false, byGroup := true } [.sca a, .sca b]
    (some (.s d.val)) fun s c g k => Elem.of k (groupAddr s c g a b k) 0

/-- STS (R188). -/
def execSts (gd : Guard) (w : Width) (a b cc : Operand) :=
  groupAccess gd { opcode := 3, width := (widthBytes w), access := .store, byGroup := true } [.sca a, .sca b, .sca cc]
    none fun s c g k => Elem.of k (groupAddr s c g a b k) (ssrc s c g cc k).toNat

/-- LDV (R188). -/
def execLdv (gd : Guard) (w : Width) (d : VReg) (a b : Operand) :=
  laneAccess gd { opcode := 4, width := (widthBytes w), access := .load true, byGroup := false } [.sca a, .vec b]
    (some (laneDest (widthBytes w) d)) fun s c g p => Elem.of p (laneAddr s c g a b (widthBytes w) p) 0

/-- LDVW (R188). -/
def execLdvw (gd : Guard) (w : Width) (d : VReg) (a b : Operand) :=
  laneAccess gd { opcode := 5, width := (widthBytes w), access := .load false, byGroup := false } [.sca a, .vec b]
    (some (laneDest (widthBytes w) d)) fun s c g p => Elem.of p (laneAddr s c g a b (widthBytes w) p) 0

/-- STV (R188). -/
def execStv (gd : Guard) (w : Width) (a b cc : Operand) :=
  laneAccess gd { opcode := 6, width := (widthBytes w), access := .store, byGroup := false }
    [.sca a, .vec b, dataSrc (widthBytes w) cc] none
    fun s c g p => Elem.of p (laneAddr s c g a b (widthBytes w) p) (laneData s c g (widthBytes w) cc p)

/-- LDVB (R188). -/
def execLdvb (gd : Guard) (d : VReg) (a : Operand) :=
  laneAccess gd { opcode := 7, width := 4, access := .load false, byGroup := false } [.sca a]
    (some (.v d.val)) fun s c g p => Elem.of p (blockAddr s c g a p) 0

/-- STVB (R188). -/
def execStvb (gd : Guard) (a cc : Operand) :=
  laneAccess gd { opcode := 8, width := 4, access := .store, byGroup := false } [.sca a, .vec cc] none
    fun s c g p => Elem.of p (blockAddr s c g a p) (vsrc s c g cc p).toNat

/-- An atomic of four bytes a lane (R187, R194). -/
def atomicAccess (op : Nat) (gd : Guard) (sc : AtScope) (d : VReg) (a b cc : Operand) :=
  laneAccess gd { opcode := op, width := 4, access := .atomic op sc, byGroup := false }
    [.sca a, .vec b, .vec cc] (some (.v d.val))
    fun s c g p => Elem.of p (laneAddr s c g a b 4 p) (vsrc s c g cc p).toNat

def execAtadd (gd : Guard) (sc : AtScope) (d : VReg) (a b cc : Operand) := atomicAccess 0x10 gd sc d a b cc
def execAtmin (gd : Guard) (sc : AtScope) (d : VReg) (a b cc : Operand) := atomicAccess 0x11 gd sc d a b cc
def execAtmax (gd : Guard) (sc : AtScope) (d : VReg) (a b cc : Operand) := atomicAccess 0x12 gd sc d a b cc
def execAtminw (gd : Guard) (sc : AtScope) (d : VReg) (a b cc : Operand) := atomicAccess 0x13 gd sc d a b cc
def execAtmaxw (gd : Guard) (sc : AtScope) (d : VReg) (a b cc : Operand) := atomicAccess 0x14 gd sc d a b cc
def execAtand (gd : Guard) (sc : AtScope) (d : VReg) (a b cc : Operand) := atomicAccess 0x15 gd sc d a b cc
def execAtor (gd : Guard) (sc : AtScope) (d : VReg) (a b cc : Operand) := atomicAccess 0x16 gd sc d a b cc
def execAtxor (gd : Guard) (sc : AtScope) (d : VReg) (a b cc : Operand) := atomicAccess 0x17 gd sc d a b cc
def execAtxch (gd : Guard) (sc : AtScope) (d : VReg) (a b cc : Operand) := atomicAccess 0x18 gd sc d a b cc

/-- ATCAS: D is read as the new value before it goes empty (R194). -/
def execAtcas (gd : Guard) (sc : AtScope) (d : VReg) (a b cc : Operand) :=
  laneAccess gd { opcode := 0x19, width := 4, access := .atomic 0x19 sc, byGroup := false }
    [.sca a, .vec b, .vec cc, .vreg d.val false] (some (.v d.val))
    fun s c g p =>
      { Elem.of p (laneAddr s c g a b 4 p) (vsrc s c g cc p).toNat with data2 := (g.vreg d.val p).toNat }

def execAtfadd (gd : Guard) (sc : AtScope) (d : VReg) (a b cc : Operand) := atomicAccess 0x1A gd sc d a b cc

/-! ## The pad -/

/-- The bytes of the pad (R66): none for a handler run, which belongs to no team (R212). -/
def State.padBytes (s : State) (g : Gang) : Nat :=
  if g.handler then 0
  else match s.launch g.launch with
    | some l => l.pad
    | none => 0

/-- The pad is in guard mode (R67, R68). -/
def State.padGuarded (s : State) (g : Gang) : Bool :=
  !g.handler && match s.launch g.launch with
    | some l => l.guardMode
    | none => false

/-- The smallest power of two not below `n`, from `p` on. -/
def powerAbove (n : Nat) : Nat → Nat → Nat
  | 0, p => p
  | fuel + 1, p => if n ≤ p then p else powerAbove n fuel (2 * p)

/-- The span of a guarded pad (R68). -/
def guardSpan (pad : Nat) : Nat := powerAbove (pad + 512) 40 1

/-- The position of a byte in a guarded pad (R68). -/
def guardPos (pad o : Nat) : Nat := (o + 256) % guardSpan pad

/-- The pad byte an offset reaches, or nothing in a guard (R67, R68). -/
def padOffset (guarded : Bool) (pad o : Nat) : Option Nat :=
  if guarded then
    let e := guardPos pad o
    if 256 ≤ e ∧ e < 256 + pad then some (e - 256) else none
  else if o < pad then some o else none

/-- The first guard touch of each group by the lanes given, in lane and then byte order (R68). -/
def Gang.touchGuards (g : Gang) (pad w : Nat) (lanes : List (Nat × Nat)) : Gang :=
  lanes.foldl (fun g (p, o) =>
    match (List.range w).find? fun i => (padOffset true pad (o + i)).isNone with
    | none => g
    | some i =>
      let e := guardPos pad (o + i)
      g.updGroup (g.grp p) fun x =>
        if x.guardPend then x
        else { x with guardPend := true, touch := some { lane := p, position := e, bank := e / 4 % 64 } }) g

/-- The pad as a gang sees it: its own stores on their way come first, in issue order (R193). -/
def State.padOf (s : State) (gid : Nat) (g : Gang) : Cells 8 :=
  let pad := match s.team g.team with | some t => t.pad | none => []
  (s.padWrites.vals.filter fun w => w.gid == gid).foldl (fun c w => c.setAll w.bytes) pad

/-- How long a pad access takes: on the gang's own core, or through the pair bridge (R193). -/
def State.padTime (s : State) (g : Gang) : Nat :=
  match s.team g.team with
  | some t => if t.padCore = g.core then Config.padCycles else Config.padBridgeCycles
  | none => Config.padCycles

/-- BOUNDS for a precise pad access beyond the pad (R67). -/
def checkPad (s : State) (c : Cur) (g : Gang) (w : Nat) (lanes : List (Nat × Nat)) : Verdict :=
  let bad := (lanes.filter fun x => decide (s.padBytes g < x.2 + w)).map Prod.fst
  trapIf (!s.padGuarded g && !bad.isEmpty)
    (c.trap trapBOUNDS (groupMask (g.groupsOf bad)) (laneMask bad) (laneMask bad) 0)

/-- The pad offsets of the effective lanes. -/
def padLanes (s : State) (c : Cur) (g : Gang) (gd : Guard) (b : Operand) : List (Nat × Nat) :=
  (g.effLanes gd).map fun p => (p, (vsrc s c g b p).toNat)

/-- LDL (R67, R68, R188, R193). -/
def execLdl (gd : Guard) (w : Width) (d : VReg) (b : Operand) (s : State) : Host.Outcome State Fault Refusal :=
  runOp
    (fun s c g => (checkLanes gd [.vec b] c g).andThen fun _ => checkPad s c g (widthBytes w) (padLanes s c g gd b))
    (fun s c g =>
      let lanes := padLanes s c g gd b
      if lanes.isEmpty then s
      else
        let n := s.padBytes g
        let guarded := s.padGuarded g
        let pad := s.padOf c.gid g
        let vals := lanes.map fun (p, o) =>
          (p, natOfBytes ((List.range (widthBytes w)).map fun i =>
            match padOffset guarded n (o + i) with | some x => pad.get x | none => 0))
        let s := if guarded then s.updGang c.gid fun g => g.touchGuards n (widthBytes w) lanes else s
        let (id, s) := s.beginLong c.gid c.seq (laneDest (widthBytes w) d) (g.groupsOf (lanes.map Prod.fst)) 0 false
        s.fillAfter c.gid id vals (s.padTime g)) s

/-- STL (R67, R68, R188, R192, R193). -/
def execStl (gd : Guard) (w : Width) (b cc : Operand) (s : State) : Host.Outcome State Fault Refusal :=
  runOp
    (fun s c g => (checkLanes gd [.vec b, dataSrc (widthBytes w) cc] c g).andThen fun _ =>
      checkPad s c g (widthBytes w) (padLanes s c g gd b))
    (fun s c g =>
      let lanes := padLanes s c g gd b
      if lanes.isEmpty then s
      else
        let n := s.padBytes g
        let guarded := s.padGuarded g
        let bytes := lanes.flatMap fun (p, o) =>
          let bs := bytesLE (widthBytes w) (laneData s c g (widthBytes w) cc p)
          (List.range (widthBytes w)).filterMap fun i =>
            (padOffset guarded n (o + i)).map fun x => (x, (bs[i]?).getD 0)
        let (id, s) := s.fresh
        let s := s.updGang c.gid fun live =>
          let live := live.setVisible (g.groupsOf (lanes.map Prod.fst))
          let live := if guarded then live.touchGuards n (widthBytes w) lanes else live
          { live with stls := live.stls ++ [id] }
        let w : PadWrite := { gid := c.gid, team := g.team, bytes := bytes }
        let s := { s with padWrites := s.padWrites.put id w }
        s.at (s.time + s.padTime g) (.stlLand c.gid id)) s

/-- STL_LAND: the store's bytes are in the pad (R193). -/
def execStlLand (gid id : Nat) (s : State) : Host.Outcome State Fault Refusal :=
  match s.padWrites.find id with
  | none => .next s
  | some w =>
    let s := { s with padWrites := s.padWrites.del id }
    .next ((s.updTeam w.team fun t => { t with pad := t.pad.setAll w.bytes }).updGang gid fun g =>
      { g with stls := g.stls.filter fun x => x != id })

end Sys2Proof.Machine
end

