-- ==== Sys2Proof/Machine/Sync.lean ====
section
/-! DEFINITION. Fences, and the release and acquire actions that every synchronising operation makes (R196, R265,
R274, R275, R281, R289). -/

namespace Sys2Proof.Machine

/-- The gang's team stands on a pair. -/
def State.onPair (s : State) (g : Gang) : Bool :=
  match s.team g.team with
  | some t => decide (1 < t.cores.length)
  | none => false

/-- At this scope a release waits and an acquire drops; else both only order (R196). -/
def State.acts (s : State) (g : Gang) : Scope → Bool
  | .group => false
  | .team => s.onPair g
  | .package | .system => true

/-- Later accesses of the gang wait in the log for those issued before `seq` (R196, R265); where a release orders them,
also for the publications that the gang asked for before it (R289). DEDUCED, log 112. -/
def State.orderLog (s : State) (gid seq : Nat) (releases : Bool) : State :=
  s.updGang gid fun g => { g with orderMark := some seq, orderPubs := if releases then g.pubs else g.orderPubs }

/-- The gang whose release, or store to a SYS page, made a write-back. -/
def WbCause.gid : WbCause → Option Nat
  | .gang gid => some gid
  | .sys gid => some gid
  | .core => none

/-- Write-backs of a core that the release wait of a gang first waits for: those of evictions and time-outs (R274), and those of
other gangs' releases, which may carry this gang's bytes (R281, R283). DEDUCED, log 98. -/
def State.evictionsOut (s : State) (gid core : Nat) : List Nat :=
  (s.writebacks.filter fun p => p.2.core == core && match p.2.cause with
    | .gang i => i != gid
    | .sys _ => false
    | .core => true).map Prod.fst

/-- The cores whose writes a gang's release covers: its own, and for the release of a team's completion all its team's
(R274, R324). -/
def State.releaseCores (s : State) (g : Gang) : List Nat :=
  match s.team g.team with
  | some t => if t.phase = .done then t.cores else [g.core]
  | none => [g.core]

/-- Begins a release or acquire action of a gang, or joins it to the one in progress, whose accesses it still awaits (R196,
R274, R281).
`seq` is the number of the operation: accesses issued before it are to be performed first; `after` names what
waits for the release, and `pubs` the publications that it awaits (R289). -/
def State.joinSync (s : State) (gid seq : Nat) (releases drops : Bool) (after pubs : List Nat) : State :=
  match s.gang gid with
  | none => s
  | some g =>
    let old := g.sync
    let op : SyncOp :=
      { releases := releases || old.any fun o => o.releases && decide (o.stage < 2)
        drops := drops || old.any fun o => o.drops
        logMark := match old with | some o => Nat.max o.logMark seq | none => seq
        stage := 0, waitFor := (s.releaseCores g).flatMap (s.evictionsOut gid), dropAt := 0
        pubs := (match old with | some o => o.pubs | none => []) ++ if releases && after.isEmpty then pubs else []
        after := (match old with | some o => o.after | none => []) ++ after.map fun a => (a, pubs) }
    s.putGang gid { g with sync := some op }

/-- Begins an action that awaits every publication the gang has asked for (R289). -/
def State.beginSync (s : State) (gid seq : Nat) (releases drops : Bool) (after : List Nat) : State :=
  s.joinSync gid seq releases drops after (match s.gang gid with | some g => g.pubs | none => [])

/-- A release or acquire at a scope: an action where it waits or drops, else an ordering of the log. -/
def State.synchronise (s : State) (gid : Nat) (g : Gang) (seq : Nat) (scope : Scope) (releases drops : Bool)
    (after : List Nat) : State :=
  if s.acts g scope then s.beginSync gid seq releases drops after else s.orderLog gid seq releases

/-- The waiting stores and atomics of a gang in its core's L1 (R191). -/
def State.writesWaiting (s : State) (gid core : Nat) : Bool :=
  (s.core core).fetches.vals.any fun f => f.waiters.any fun w => w.gid == gid && w.writes

/-- What a gang's release has on its way to the homes. DEDUCED, log 98. -/
def State.writesOut (s : State) (gid : Nat) : Bool :=
  (s.writebacks.vals.any fun w => w.cause.gid == some gid) || s.atomics.vals.any fun a => a.gid == gid

/-- A load or an atomic of a gang issued before `seq` has not taken its value yet: nothing that follows a release or an acquire
after it may go ahead of it (R281, R283). DEDUCED, log 98. -/
def State.readsOut (s : State) (gid : Nat) (g : Gang) (seq : Nat) : Bool :=
  let before := fun (long : Nat) => (g.longs.find long).any fun l => decide (l.seq < seq)
  ((s.core g.core).fetches.vals.any fun f => f.waiters.any fun w => w.gid == gid && w.store.isNone && before w.long) ||
    s.atomics.vals.any fun a => a.gid == gid && before a.long

/-- The release is over for something: an effect that waits for it, or the whole action, awaits no publication any
longer (R289). -/
def SyncOp.served (o : SyncOp) (g : Gang) : Bool :=
  o.after.any (fun a => !g.awaits a.2) || (o.after.isEmpty && !g.awaits o.pubs)

/-- The gang's team is stopped for a save, saved or not yet restored: its release waits are saved as pending (R196, R338). -/
def State.heldBySave (s : State) (g : Gang) : Bool :=
  match s.team g.team with
  | some t => t.phase == .stopping || t.phase == .saved || t.phase == .restoring
  | none => false

/-- A sync action of a gang can go on now (R196, R274, R289): the older accesses are performed and what it waits
for is done, or TIME has reached HORIZON + 4. DEDUCED, log 98, 112. -/
def State.syncReady (s : State) (gid : Nat) : Bool :=
  match s.gang gid with
  | none => false
  | some g =>
    match g.sync with
    | none => false
    | some o =>
      if s.heldBySave g then false
      else if o.stage = 0 then
        !(g.log.any fun e => decide (e.seq < o.logMark)) && !s.writesWaiting gid g.core &&
        (if o.releases then !(o.waitFor.any fun i => (s.writebacks.find i).isSome) else !s.readsOut gid g o.logMark)
      else if o.stage = 1 then
        !s.writesOut gid && !s.readsOut gid g o.logMark && decide (g.horizon + Config.horizonMargin ≤ s.time) && o.served g
      else false

/-- Starts the eight cycles of the drop, or ends the action (R196, R275). DEDUCED, log 97. -/
def State.syncDrop (s : State) (gid : Nat) (g : Gang) (o : SyncOp) : State :=
  if o.drops then
    let t := s.time + Config.dropCycles
    (s.putGang gid { g with sync := some { o with stage := 2, dropAt := t, after := [] } }).at t
      (.acquireDrop g.core gid)
  else s.putGang gid { g with sync := none }

/-- Advances a sync action that can go on, and answers what was waiting for the release (R274). -/
def State.advanceSync (s : State) (gid : Nat) : State × List Nat :=
  if !s.syncReady gid then (s, [])
  else
    match s.gang gid with
    | none => (s, [])
    | some g =>
      match g.sync with
      | none => (s, [])
      | some o =>
        if o.stage = 0 && o.releases then
          let cores := s.releaseCores g
          let h := cores.foldl (fun m k => Nat.max m (s.core k).evictHorizon) g.horizon
          (cores.foldl (fun s k => s.writeBackAll k (.gang gid))
            (s.putGang gid { g with horizon := h, sync := some { o with stage := 1 } }), [])
        else
          let ready := (o.after.filter fun a => !g.awaits a.2).map Prod.fst
          let rest := o.after.filter fun a => g.awaits a.2
          if rest.isEmpty && !g.awaits o.pubs then (s.syncDrop gid g o, ready)
          else (s.putGang gid { g with sync := some { o with after := rest } }, ready)

/-- Makes the clean bytes of a core's lines invalid, but for the lines of sealed template segments (R275). -/
def Core.dropAll (c : Core) : Core :=
  { c with l1 := (c.l1.map fun (k, l) =>
      (k, if l.expiry.isNone then l else { l with valid := l.dirty })).filter fun p => decide (p.2.valid ≠ 0) }

/-- ACQUIRE_DROP: after its eight cycles the clean bytes of the core are invalid and the acquire is complete
(R196, R275). A gang that has begun another action meanwhile goes on with that one. DEDUCED, log 97. -/
def execAcquireDrop (core gid : Nat) (s : State) : Host.Outcome State Fault Refusal :=
  let s := s.updCore core Core.dropAll
  .next (s.updGang gid fun g =>
    match g.sync with
    | some o => if o.stage = 2 && decide (o.dropAt ≤ s.time) then { g with sync := none } else g
    | none => g)

/-! ## Fences -/

/-- A fence: gang-level, at its scope (R196). -/
def fence (releases drops : Bool) (gd : Guard) (sc : Scope) (s : State) : Host.Outcome State Fault Refusal :=
  runOp (fun _ _ _ => .go)
    (fun s c g => if (g.effGroups gd).isEmpty then s else s.synchronise c.gid g c.seq sc releases drops []) s

def execFacq (gd : Guard) (sc : Scope) := fence false true gd sc
def execFrel (gd : Guard) (sc : Scope) := fence true false gd sc
def execFar (gd : Guard) (sc : Scope) := fence true true gd sc

end Sys2Proof.Machine
end

