-- ==== Sys2Proof/Machine/Tiles.lean ====
section
/-! DEFINITION. The operand store, tile-name records and the handle table (R57 to R64, R244 to R257), and the tile
views of the C slots (R197, R198). -/

namespace Sys2Proof.Machine

/-! ## Slots -/

def slotBytes : Nat := 16384

/-- The key of a byte of an operand-store slot (R57, R58). -/
def tileKey (core : Nat) (bspace : Bool) (slot off : Nat) : Nat :=
  ((core * 2 + bspace.toNat) * 512 + slot) * slotBytes + off

/-- A slot's number within its core's table of owners. -/
def slotKey (bspace : Bool) (slot : Nat) : Nat := bspace.toNat * 512 + slot

/-- The slots of a space (R2). -/
def slotCount (bspace : Bool) : Nat := if bspace then Config.slotsB else Config.slotsA

/-- The free slots of a core. -/
def Core.freeSlots (c : Core) (bspace : Bool) : List Nat :=
  (List.range (slotCount bspace)).filter fun n => (c.slots.find (slotKey bspace n)).isNone

/-- The bytes of a slot, by key. -/
def State.slotCells (s : State) (core : Nat) (bspace : Bool) (slot : Nat) : Cells 8 :=
  let a := tileKey core bspace slot 0
  s.tiles.filter fun p => decide (a ≤ p.1 ∧ p.1 < a + slotBytes)

/-- Puts bytes in place of a slot's. -/
def State.setSlotCells (s : State) (core : Nat) (bspace : Bool) (slot : Nat) (cells : Cells 8) : State :=
  let a := tileKey core bspace slot 0
  { s with tiles := (s.tiles.filter fun p => decide (p.1 < a)) ++ cells ++
                    s.tiles.filter fun p => decide (a + slotBytes ≤ p.1) }

/-- Copies a slot whole. -/
def State.copySlot (s : State) (fromCore : Nat) (fromB : Bool) (fromSlot core : Nat) (bspace : Bool) (slot : Nat) :
    State :=
  let a := tileKey fromCore fromB fromSlot 0
  let b := tileKey core bspace slot 0
  s.setSlotCells core bspace slot ((s.slotCells fromCore fromB fromSlot).map fun p => (p.1 - a + b, p.2))

/-- Takes a free slot of a core for an owner; which of the free slots is not specified. Its bytes are those an
earlier tile of the same context left, or zero: which of the two each byte is, is not specified (R250). A slot of
another context is zeroed. DESIGN CHOICE, log 18. -/
def State.takeSlot (s : State) (core ctx : Nat) (bspace : Bool) (owner : SlotOwner) : Nat × State :=
  let c := s.core core
  let free := c.freeSlots bspace
  let (n, s) := s.draw
  let slot := (free[Config.freeSlot n % free.length]?).getD 0
  let key := slotKey bspace slot
  let a := tileKey core bspace slot 0
  let kept := if c.slotContext.find key = some ctx
    then (s.slotCells core bspace slot).filter fun p => Config.keepTileByte n (p.1 - a) else []
  let s := s.setSlotCells core bspace slot kept
  (slot, s.updCore core fun c =>
    { c with slots := c.slots.put key owner, slotContext := c.slotContext.put key ctx })

/-- Gives a slot back. -/
def State.dropSlot (s : State) (core : Nat) (bspace : Bool) (slot : Nat) : State :=
  s.updCore core fun c => { c with slots := c.slots.del (slotKey bspace slot) }

/-- Slots of the quota still free (R63); a handler run has none (R232). -/
def State.quota (s : State) (g : Gang) (bspace : Bool) : Nat :=
  match s.team g.team with
  | some t => if bspace then t.freeB else t.freeA
  | none => 0

/-- Counts slots out of the quota, or back into it. -/
def Team.count (t : Team) (bspace : Bool) (taken : Bool) : Team :=
  if bspace then { t with freeB := if taken then t.freeB - 1 else t.freeB + 1 }
  else { t with freeA := if taken then t.freeA - 1 else t.freeA + 1 }

/-! ## What handles name -/

/-- A tile as an operation binds it: space, slot on the issuing core, record (R245). -/
structure TileAt where
  bspace : Bool
  slot : Nat
  record : Option Nat
deriving DecidableEq, Repr

def State.record (s : State) (team id : Nat) : Option TileRecord :=
  match s.team team with
  | some t => t.records.find id
  | none => none

def State.updRecord (s : State) (team id : Nat) (f : TileRecord → TileRecord) : State :=
  s.updTeam team fun t => { t with records := t.records.upd id f }

/-- The template a gang was stamped from, as its core's bank holds it (R37). -/
def State.bankTemplate (s : State) (g : Gang) : Option BankTemplate :=
  match g.template with
  | none => none
  | some k => ((s.core g.core).templates.pick fun t => t.key == k).map fun p => p.2

/-- The tile a handle entry names on the gang's core. -/
def State.tileOf (s : State) (g : Gang) (e : HEntry) : Option TileAt :=
  match e.ref with
  | .none => none
  | .record id =>
    match s.record g.team id with
    | none => none
    | some r => (r.slots.find g.core).map fun n => { bspace := r.bspace, slot := n, record := some id }
  | .template b n =>
    match s.bankTemplate g with
    | none => none
    | some t => (t.tiles[n]?).map fun x => { bspace := b, slot := x.2, record := none }

/-- The space of a handle entry's tile (R60). -/
def State.spaceOf (s : State) (g : Gang) (e : HEntry) : Bool :=
  match e.ref with
  | .none => false
  | .record id => match s.record g.team id with
    | some r => r.bspace
    | none => false
  | .template b _ => b

/-- The matrix operations of a core that are queued or running. -/
def Core.matOps (c : Core) : List MatOp :=
  (match c.matRun with | some (o, _) => [o] | none => []) ++ c.matQueue

/-- A matrix operand is this tile: the same record, or the same template slot. -/
def sameTile (t : TileAt) (o : Option (Bool × Nat × Option Nat)) : Bool :=
  match o, t.record with
  | some (_, _, some r), some id => r == id
  | some (b, n, none), none => b == t.bspace && n == t.slot
  | _, _ => false

/-- The matrix operations that may touch a tile: those of every core for a record, those of the core for a
template's slot. -/
def State.opsOn (s : State) (core : Nat) (t : TileAt) : List MatOp :=
  if t.record.isSome then s.cores.vals.flatMap Core.matOps else (s.core core).matOps

/-- BUSYR (R60, R244). -/
def State.busyR (s : State) (core : Nat) (t : TileAt) : Nat :=
  (s.opsOn core t).countP fun o => sameTile t o.src || sameTile t (o.srcB.map fun p => (true, p.1, p.2))

/-- BUSYW as a core sees it: matrix operations that write the tile, a slot that is being cleared (R250) or filled (R247),
and a write to the partner slot (R248). -/
def State.busyW (s : State) (core : Nat) (t : TileAt) : Nat :=
  ((s.opsOn core t).countP fun o => sameTile t o.dst) +
  (match t.record with
   | none => 0
   | some id => (s.clears.vals.countP fun j => j.record == id && j.core == core) +
                s.bridges.vals.countP fun j => j.record == id && j.core == core)

/-- The HINFO word of an entry (R60, R257). -/
def State.hinfoWord (s : State) (g : Gang) (e : HEntry) : Word64 :=
  let code := match e.state with
    | .free => 0 | .live => 1 | .template => 2 | .aliasRO => 3 | .shadowPending => 4
  match s.tileOf g e with
  | some t =>
    if e.state = .free then BitVec.ofNat 64 (e.gen.toNat * 2 ^ 16)
    else BitVec.ofNat 64 (s.busyW g.core t % 256 * 2 ^ 40 + s.busyR g.core t % 256 * 2 ^ 32 + e.gen.toNat * 2 ^ 16 +
      t.slot * 16 + t.bspace.toNat * 8 + code)
  | none => BitVec.ofNat 64 (e.gen.toNat * 2 ^ 16)

/-! ## References and the return of slots -/

/-- The record a handle reference names. -/
def HRef.recordId : HRef → Option Nat
  | .record id => some id
  | _ => Option.none

/-- The records that handle entries and inbox slots of a gang name. -/
def Gang.recordRefs (g : Gang) : List Nat :=
  (g.handles.vals.filterMap fun e => e.ref.recordId) ++ g.inbox.vals.filterMap fun d => d.ref.recordId

/-- The gangs of a team. -/
def State.gangsNow (s : State) (team : Nat) : List Gang := s.gangs.vals.filter fun g => g.team == team && !g.handler

/-- The gangs of a team, as they stand and, for the gang whose bundle is issuing, as the bundle found it. -/
def State.gangsOf (s : State) (team : Nat) : List Gang :=
  s.gangsNow team ++
  (match s.cur with
   | some c => (match c.snap with | some g => if g.team == team && !g.handler then [g] else [] | none => [])
   | none => [])

/-- The records that deliveries on their way to gangs of a team carry, with each one's core (R246). -/
def State.messageRefs (s : State) (team : Nat) : List (Nat × Nat) :=
  s.messages.vals.filterMap fun m =>
    match s.gang m.gid with
    | some g => if g.team == team then m.what.ref.recordId.map fun r => (g.core, r) else none
    | none => none

/-- Handle and inbox references of some gangs of a team to its records, by core, deliveries on their way included
(R246). -/
def State.refsOf (s : State) (team : Nat) (gangs : List Gang) : List (Nat × Nat) :=
  (gangs.flatMap fun g => g.recordRefs.map fun r => (g.core, r)) ++ s.messageRefs team

/-- References to the records of a team, those that the issuing bundle found included. -/
def State.entryRefs (s : State) (team : Nat) : List (Nat × Nat) := s.refsOf team (s.gangsOf team)

/-- The slots that tile reads and writes in flight are bound to: core, space, slot (R245). -/
def Flight.slots (f : Flight) : List (Nat × Bool × Nat) :=
  let of := fun (ws : List (Nat × Nat)) => ws.map fun w =>
    let n := w.2 / slotBytes
    (n / 1024, n / 512 % 2 == 1, n % 512)
  match f.dest with
  | .tile ws => of ws
  | .tileLoad _ ws => of ws
  | _ => []

/-- The owner of a slot. -/
def State.slotOwner (s : State) (x : Nat × Bool × Nat) : Option SlotOwner := (s.core x.1).slots.find (slotKey x.2.1 x.2.2)

/-- A tile read or write in flight is bound to this tile: to a slot of its record on any core, or to the slot of a
template (R198, R244). -/
def State.flightOn (s : State) (core : Nat) (t : TileAt) (f : Flight) : Bool :=
  f.slots.any fun x => match t.record with
    | some id => (match s.slotOwner x with | some (.record _ r) => r == id | _ => false)
    | none => x == (core, t.bspace, t.slot)

/-- The latest landing, as a cycle, of the tile writes in flight to a tile that were issued before `seq`, and 0 without one
(R198, R244). -/
def State.tileLanding (s : State) (core seq : Nat) (t : TileAt) : Nat :=
  (s.gangs.vals.flatMap fun g => g.flights.map fun f =>
    match f.dest with
    | .tile _ => if f.seq < seq ∧ s.flightOn core t f then 4 * f.land else 0
    | _ => 0).foldl Nat.max 0

/-- The slots that operations bound at issue still use: matrix operations, tile reads and writes in flight,
copies not retired, and writes over the pair bridge (R245, R246). DEDUCED, log 66. -/
def State.boundSlots (s : State) (team : Nat) : List (Nat × Bool × Nat) :=
  let cores := match s.team team with | some t => t.cores | none => []
  (cores.flatMap fun k => (s.core k).matOps.flatMap fun o =>
    (match o.src with | some (b, n, _) => [(k, b, n)] | none => []) ++
    (match o.srcB with | some (n, _) => [(k, true, n)] | none => []) ++
    (match o.dst with
     | some (b, n, _) => (k, b, n) :: (match o.cowFrom with | some m => [(k, b, m)] | none => []) ++
         o.partners.map fun p => (p.1, b, p.2)
     | none => [])) ++
  ((s.gangsOf team).flatMap fun g => g.flights.flatMap Flight.slots) ++
  ((s.copies.vals.filter fun c => c.team == team && decide (c.stage < 5)).flatMap fun c =>
    (match c.srcTile with | some (b, n, _) => [(c.core, b, n)] | none => []) ++
    c.shadows.map fun p => (p.1, c.bspace, p.2)) ++
  (s.bridges.vals.filter fun j => j.team == team).flatMap fun j =>
    (j.core, j.bspace, j.slot) :: if j.bytes.isNone then [(j.from_.1, j.bspace, j.from_.2)] else []

/-- The records that operations still running or copies not retired hold (R246). DEDUCED, log 66. -/
def State.boundRecords (s : State) (team : Nat) : List Nat :=
  let cores := match s.team team with | some t => t.cores | none => []
  (cores.flatMap fun k => (s.core k).matOps.flatMap fun o =>
    (match o.src with | some (_, _, some r) => [r] | _ => []) ++
    (match o.srcB with | some (_, some r) => [r] | _ => []) ++
    (match o.dst with | some (_, _, some r) => [r] | _ => [])) ++
  ((s.copies.vals.filter fun c => c.team == team && decide (c.stage < 5)).filterMap fun c => c.record) ++
  (s.clears.vals.map fun j => j.record) ++ s.bridges.vals.map fun j => j.record

/-- A record gives up its slot and shadow on a core of a pair on which no entry or inbox slot names it any longer, while
one on the other core does (R247). -/
def TileRecord.narrow (r : TileRecord) (cores : List Nat) : TileRecord :=
  if cores.any fun k => (r.slots.find k).isSome then
    { r with slots := r.slots.filter fun p => cores.contains p.1, shadows := r.shadows.filter fun p => cores.contains p.1 }
  else r

/-! ## Publications in order (R255, R289) -/

/-- A copy still moves its bytes (R207). -/
def State.copyUnfinished (s : State) (id : Nat) : Bool :=
  match s.copies.find id with
  | some x => decide (x.stage < 4)
  | none => false

/-- Publications that a gang asked for before another are still to be made (R289). -/
def State.pubsOut (s : State) (p : Publish) : Bool :=
  match s.gang p.gid with
  | some g => g.awaits p.pubs
  | none => false

/-- The eight cycles of a publication are over, and the publications asked for before it are made (R255, R289). -/
def State.swapDue (s : State) (p : Publish) : Bool := p.due.any (fun t => decide (t ≤ s.time)) && !s.pubsOut p

/-- Starts the eight cycles of each publication of a record whose copies are complete; one whose cycles are over is made once
those asked for before it are (R255, R289). DEDUCED, log 112. -/
def State.fixPublications (s : State) (team record : Nat) : State :=
  match s.record team record with
  | none => s
  | some r =>
    let ready := fun (p : Publish) => p.released && p.due.isNone && !p.waits.any s.copyUnfinished
    let t := s.time + 8
    let fix := fun (p : Publish) => if ready p then { p with due := some t } else p
    let s := if r.publishing.any s.swapDue then s.at s.time (.publishSwap team record) else s
    if r.publishing.any ready then
      (s.updRecord team record fun r => { r with publishing := r.publishing.map fix }).at t
        (.publishSwap team record)
    else s

/-- What waited for publications of a team goes on: later publications, and accesses behind a release (R289). -/
def State.afterSwap (s : State) (team : Nat) : State :=
  match s.team team with
  | none => s
  | some t =>
    let s := t.records.keys.foldl (fun s r => s.fixPublications team r) s
    t.gangs.foldl State.tryLog s

/-- The publications of records that are dropped are awaited no longer, and their retired copies are done with (R246).
DEDUCED, log 112. -/
def State.dropPublications (s : State) (team : Nat) (gone : List (Nat × TileRecord)) : State :=
  let of := fun (x : Copy) => x.team == team && decide (5 ≤ x.stage) && x.record.any fun r => gone.any fun p => p.1 == r
  let ids := (gone.flatMap fun p => p.2.publishing.map Publish.id) ++ (s.copies.filter fun p => of p.2).map Prod.fst
  let s := { s with copies := s.copies.filter fun p => !of p.2 }
  if ids.isEmpty then s
  else ({ s with gangs := s.gangs.mapAll fun g => { g with pubs := g.pubs.filter fun i => !ids.contains i } } : State).afterSwap team

/-- Drops the records of a team that nothing refers to, and returns to the quota the slots that nothing uses any
longer (R246, R247, R251). DEDUCED, log 52, 66. -/
def State.sweep (s : State) (team : Nat) : State :=
  match s.team team with
  | none => s
  | some t =>
    let refs := s.entryRefs team
    let bound := s.boundRecords team
    let held := fun (p : Nat × TileRecord) => refs.any (fun q => q.2 == p.1) || bound.contains p.1
    let records := (t.records.filter held).map fun p => (p.1, p.2.narrow ((refs.filter fun q => q.2 == p.1).map Prod.fst))
    let s := s.updTeam team fun t => { t with records := records }
    let used := s.boundSlots team ++ records.flatMap fun p =>
      (p.2.slots.map fun q => (q.1, p.2.bspace, q.2)) ++ p.2.shadows.map fun q => (q.1, p.2.bspace, q.2)
    t.cores.foldl (fun s k =>
      ((s.core k).slots.filter fun p => match p.2 with | .record tm _ => tm == team | _ => false).foldl (fun s p =>
        let b := decide (512 ≤ p.1)
        if used.contains (k, b, p.1 % 512) then s
        else (s.dropSlot k b (p.1 % 512)).updTeam team fun t => t.count b false) s)
      (s.dropPublications team (t.records.filter fun p => !held p))

/-- The slots of a record by core, as a release through an entry notes them (R256). -/
def TileRecord.slotList (r : TileRecord) (id : Nat) : List (Nat × Bool × Nat × Nat) :=
  (r.slots.map fun p => (p.1, r.bspace, p.2, id)) ++ r.shadows.map fun p => (p.1, r.bspace, p.2, id)

/-- Frees a handle entry: its GEN rises, and where it was the record's last reference the entry notes the slots
that are to return (R62, R246, R256). Nothing is returned yet. -/
def State.freeEntry (s : State) (gid h : Nat) (noted : Bool) : State :=
  match s.gang gid with
  | none => s
  | some g =>
    let e := g.handle h
    if e.state = .free then s
    else
      let s' := s.putGang gid (g.putHandle h { e with state := .free, ref := .none, gen := e.gen + 1 })
      match e.ref.recordId, noted with
      | some id, true =>
        match s.record g.team id with
        | none => s'
        | some r =>
          if (s'.refsOf g.team (s'.gangsNow g.team)).any (fun q => q.2 == id) then s'
          else s'.updGang gid fun g =>
            let e := g.handle h
            g.putHandle h { e with released := e.released ++ r.slotList id }
      | _, _ => s'

/-- A slot noted at a release has not been returned (R256). -/
def State.stillOwned (s : State) (team : Nat) (x : Nat × Bool × Nat × Nat) : Bool :=
  s.slotOwner (x.1, x.2.1, x.2.2.1) == some (.record team x.2.2.2)

/-! ## Quota needs of a bundle -/

/-- The only handle or inbox reference of its record, which takes the slot without a copy (R254). -/
def State.soleRef (s : State) (g : Gang) (e : HEntry) : Bool :=
  match e.ref with
  | .record id =>
    let refs := (s.gangs.vals.filter fun x => x.team == g.team && !x.handler).flatMap Gang.recordRefs ++
      s.messages.vals.filterMap fun m => m.what.ref.recordId
    (refs.countP fun r => r == id) == 1
  | _ => false

/-- Quota slots a bundle's operations need so far, with the handles already copied on write or given a shadow. -/
structure Needs where
  a : Nat
  b : Nat
  cowed : List Nat
  shadowed : List Nat
deriving DecidableEq, Repr

def Needs.zero : Needs := { a := 0, b := 0, cowed := [], shadowed := [] }

def Needs.take (n : Needs) (bspace : Bool) (k : Nat) : Needs :=
  if bspace then { n with b := n.b + k } else { n with a := n.a + k }

/-- A copy-on-write of a template handle (R41). -/
def Needs.cow (n : Needs) (s : State) (g : Gang) (h : Nat) : Needs :=
  let e := g.handle h
  if e.state = .template ∧ ¬ n.cowed.contains h ∧ ¬ s.soleRef g e then
    { n.take (s.spaceOf g e) 1 with cowed := h :: n.cowed }
  else n

/-- The shadows a copy into a handle makes: one on each core that holds the record (R203, R247). -/
def Needs.shadow (n : Needs) (s : State) (g : Gang) (h : Nat) : Needs :=
  let e := g.handle h
  if e.state = .shadowPending ∨ e.state = .free ∨ n.shadowed.contains h then n
  else
    let cores := match e.ref with
      | .record id => match s.record g.team id with
        | some r => if e.state = .template && !s.soleRef g e then 1
          else if r.shadows.isEmpty then r.slots.length else 0
        | none => 0
      | _ => 1
    { n.take (s.spaceOf g e) cores with shadowed := h :: n.shadowed }

/-- The gang of the team that holds a group number (R252). -/
def State.gangOfGroup (s : State) (team n : Nat) : Option (Nat × Gang) :=
  s.gangs.find? fun p => p.2.team == team && !p.2.handler && p.2.groups.vals.any fun x => x.number == n

/-- The second slot, and shadow, that a delivery to the partner core makes (R247). -/
def Needs.second (n : Needs) (s : State) (g : Gang) (h target : Nat) : Needs :=
  let e := g.handle h
  match e.ref, s.gangOfGroup g.team target with
  | .record id, some (_, tg) =>
    (match s.record g.team id with
     | some r => if (r.slots.find tg.core).isSome then n
       else n.take r.bspace (if r.shadows.isEmpty then 1 else 2)
     | none => n)
  | _, _ => n

/-- The needs of one operation of a bundle. -/
def Needs.add (n : Needs) (s : State) (c : Cur) (g : Gang) (i : Instr) : Needs :=
  match i.shape with
  | none => n
  | some sh =>
    match g.effective sh with
    | [] => n
    | k :: _ =>
      match i with
      | .halloc _ m _ => n.take m.bspace 1
      | .mdrain _ _ h _ => n.cow s g h.val
      | .tst _ v _ _ => n.cow s g v.h.val
      | .cpy _ _ h _ _ _ => (n.cow s g h.val).shadow s g h.val
      | .cpyb _ _ h _ _ _ => (n.cow s g h.val).shadow s g h.val
      | .cpym _ _ h _ _ _ => (n.cow s g h.val).shadow s g h.val
      | .cpyl _ h _ _ _ => (n.cow s g h.val).shadow s g h.val
      | .hgive _ h b _ => n.second s g h.val (ssrc s c g b k).toNat
      | .hshare _ h b _ => n.second s g h.val (ssrc s c g b k).toNat
      | _ => n

/-- The needs of the slots of the bundle before the issuing one. -/
def needsBefore (s : State) (c : Cur) (g : Gang) : Needs :=
  (c.ops.filter fun x => decide (x.1.order < c.slot.order)).foldl (fun n x => n.add s c g x.2) Needs.zero

/-- A trap that names a handle (R329). DEDUCED, log 90. -/
def handleTrap (c : Cur) (g : Gang) (code h : Nat) (groups : List Nat) : Trap :=
  c.trap code (groupMask groups) 0 h (g.handle h).gen.toNat

/-- HANDLEQUOTA when an operation, after those before it in the bundle, needs more slots than the quota holds
(R63). The slot that HALLOC's own release of an entry in use would return (R250) is not counted. DEDUCED, log 90, 126. -/
def checkQuota (s : State) (c : Cur) (g : Gang) (i : Instr) (h : Nat) (groups : List Nat) : Verdict :=
  let n := needsBefore s c g
  let m := n.add s c g i
  trapIf ((decide (n.a < m.a) && decide (s.quota g false < m.a)) || (decide (n.b < m.b) && decide (s.quota g true < m.b)))
    (handleTrap c g trapHANDLEQUOTA h groups)

/-! ## Copy-on-write -/

/-- Makes tile writes in flight to a slot write another slot as well, when they were issued before the slot was
copied (R198). -/
def State.follow (s : State) (fromKey toKey : Nat) : State :=
  { s with gangs := s.gangs.mapAll fun g =>
      { g with flights := g.flights.map fun f =>
          match f.dest with
          | .tile ws =>
            let hit := ws.zip f.vals |>.filter fun x => decide (fromKey ≤ x.1.2 ∧ x.1.2 < fromKey + slotBytes)
            if hit.isEmpty then f
            else { f with dest := .tile (ws ++ hit.map fun x => (x.1.1, x.1.2 - fromKey + toKey)),
                          vals := f.vals ++ hit.map fun x => x.2 }
          | _ => f } }

/-- A job of the pair bridge, made in cycle `job.due`. -/
def State.startBridge (s : State) (job : BridgeJob) : State :=
  let (j, s) := s.fresh
  ({ s with bridges := s.bridges.put j job } : State).at job.due
    (if job.bytes.isSome then .partnerSlotWrite j else .partnerSlotFill j)

/-- Copies one slot into another of its space, with what is still to come to it: the tile writes in flight, and the fills and
writes over the pair bridge (R198, R203, R247, R248). -/
def State.fillSlot (s : State) (bspace : Bool) (fromCore src core dst : Nat) : State :=
  let s := (s.copySlot fromCore bspace src core bspace dst).follow (tileKey fromCore bspace src 0) (tileKey core bspace dst 0)
  (s.bridges.vals.filter fun j => j.core == fromCore && j.bspace == bspace && j.slot == src).foldl
    (fun s j => s.startBridge { j with core := core, slot := dst }) s

/-- A slot for a record of the issuing gang's team, counted in the quota. -/
def State.takeRecordSlot (s : State) (team ctx core : Nat) (bspace : Bool) (id : Nat) : Nat × State :=
  let (n, s) := s.takeSlot core ctx bspace (.record team id)
  (n, s.updTeam team fun t => t.count bspace true)

/-- Adds a record. -/
def State.addRecord (s : State) (team id : Nat) (r : TileRecord) : State :=
  s.updTeam team fun t => { t with records := t.records.put id r }

/-- Makes a template handle private (R41, R254): a sole reference takes the slot as it is, any other copies the
tile to a new slot; the handle becomes live. -/
def State.ownTile (s : State) (gid h : Nat) : State :=
  match s.gang gid with
  | none => s
  | some g =>
    let e := g.handle h
    if e.state ≠ .template then s
    else if s.soleRef g e then s.putGang gid (g.putHandle h { e with state := .live })
    else
      match s.tileOf g e with
      | none => s
      | some t =>
        let (id, s) := s.fresh
        let (n, s) := s.takeRecordSlot g.team g.context g.core t.bspace id
        let s := s.fillSlot t.bspace g.core t.slot g.core n
        let s := s.addRecord g.team id
          { bspace := t.bspace, gen := e.gen, slots := [(g.core, n)], shadows := [], publishing := [] }
        s.updGang gid fun g => g.putHandle h { e with state := .live, ref := .record id }

/-! ## Tile views -/

/-- The word of the 32-bit view a lane position reaches (R64): row and column. -/
def Dir.word (d : Dir) (idx p : Nat) : Nat × Nat :=
  match d with
  | .row => (idx, p)
  | .column => (p, idx)
  | .diagonal => (p, (p + idx) % 64)
  | .antiDiagonal => (p, (idx + 64 - p) % 64)

/-- The words of an A-space slot that the effective lanes reach, by lane and first byte (R64, R197). -/
def viewWords (s : State) (c : Cur) (g : Gang) (v : View) (b : Operand) (slot : Nat) (lanes : List Nat) :
    List (Nat × Nat) :=
  lanes.map fun p =>
    let (i, j) := Dir.word v.dir ((ssrc s c g b (g.grp p)).toNat % 64) p
    (p, tileKey g.core false slot (256 * i + 4 * j))

/-- TLD (R197, R198). -/
def execTld (gd : Guard) (d : VReg) (v : View) (b : Operand) (s : State) : Host.Outcome State Fault Refusal :=
  runOp
    (fun s c g =>
      let eff := g.effLanes gd
      if eff.isEmpty then .go
      else
        let gs := g.groupsOf eff
        let e := g.handle v.h.val
        (checkSources c g gs [.sca b]).andThen fun _ =>
        (trapIf (e.state == .free) (handleTrap c g trapDEADHANDLE v.h.val gs)).andThen fun _ =>
        (trapIf (s.spaceOf g e) (handleTrap c g trapSPACE v.h.val gs)).andThen fun _ =>
          match s.tileOf g e with
          | some t => holdIf (decide (0 < s.busyW g.core t)) .other
          | none => .go)
    (fun s c g =>
      let eff := g.effLanes gd
      if eff.isEmpty then s
      else match s.tileOf g (g.handle v.h.val) with
        | some t => s.land c 3 (.tileLoad d.val (viewWords s c g v b t.slot eff)) [] [] true
        | none => s) s

/-- The slots that a record holds on cores other than one. -/
def State.partnerSlots (s : State) (team core : Nat) (rec : Option Nat) : List (Nat × Nat) :=
  match rec.bind (s.record team) with
  | some r => r.slots.filter fun p => p.1 != core
  | none => []

/-- Writes bytes of a record's tile to slots on other cores in cycle `t` (R248). -/
def State.bridgeWrite (s : State) (team core : Nat) (rec : Option Nat) (bspace : Bool) (partners : List (Nat × Nat))
    (bytes : List (Nat × Byte)) (t : Nat) : State :=
  match rec with
  | none => s
  | some id => partners.foldl (fun s p => s.startBridge
      { team := team, record := id, core := p.1, bspace := bspace, slot := p.2, bytes := some bytes, from_ := (core, 0), due := t }) s

/-- TST (R41, R197, R198, R248). Its result lands on tile words, and leaves L.C0 and L.C1. DEDUCED, log 122. -/
def execTst (gd : Guard) (v : View) (b cc : Operand) (s : State) : Host.Outcome State Fault Refusal :=
  runOp
    (fun s c g =>
      let eff := g.effLanes gd
      if eff.isEmpty then .go
      else
        let gs := g.groupsOf eff
        let e := g.handle v.h.val
        (checkSources c g gs [.sca b, .vec cc]).andThen fun _ =>
        (trapIf (e.state == .free) (handleTrap c g trapDEADHANDLE v.h.val gs)).andThen fun _ =>
        (trapIf (s.spaceOf g e || e.state == .aliasRO) (handleTrap c g trapSPACE v.h.val gs)).andThen fun _ =>
        (checkQuota s c g (.tst gd v b cc) v.h.val gs).andThen fun _ =>
          match s.tileOf g e with
          | some t => holdIf (decide (0 < s.busyW g.core t) || decide (0 < s.busyR g.core t)) .other
          | none => .go)
    (fun s c g =>
      let eff := g.effLanes gd
      if eff.isEmpty then s
      else
        let e := g.handle v.h.val
        let beats := if e.state = .template && !s.soleRef g e then 7 else 3
        let s := s.ownTile c.gid v.h.val
        match s.gang c.gid with
        | none => s
        | some live =>
          -- an entry that the same bundle frees still names the tile this operation found
          let e' := if (live.handle v.h.val).state = .free then e else live.handle v.h.val
          match s.tileOf live e' with
          | none => s
          | some t =>
            let words := viewWords s c g v b t.slot eff
            let vals := eff.map fun p => (p, (vsrc s c g cc p).toNat)
            let bytes := (words.zip vals).flatMap fun x =>
              let bs := bytesLE 4 x.2.2
              (List.range 4).map fun i => (x.1.2 % slotBytes + i, (bs[i]?).getD 0)
            (s.land c beats (.tile words) vals [] false).bridgeWrite g.team g.core t.record t.bspace
              (s.partnerSlots g.team g.core t.record) bytes (4 * (s.beat + beats) + 16)) s

/-! ## Register transfers (R199) -/

/-- The check of a group-level operation's sources. -/
def checkGroups (gd : Guard) (srcs : List Src) (c : Cur) (g : Gang) : Verdict :=
  let eff := g.effGroups gd
  if eff.isEmpty then .go else checkSources c g eff srcs

/-- XSV. -/
def execXsv (gd : Guard) (d : VReg) (a : Operand) (s : State) : Host.Outcome State Fault Refusal :=
  runOp (fun _ c g => checkGroups gd [.sca a] c g)
    (fun s c g =>
      let eff := g.effGroups gd
      if eff.isEmpty then s
      else s.land c 2 (.v d.val)
        (eff.flatMap fun k => (g.lanes k).map fun p => (p, (ssrc s c g a k).toNat % 2 ^ 32)) [] true) s

/-- The lane of a group that XVS reads; an index of W or more delivers zero. -/
def xvsLane (s : State) (c : Cur) (g : Gang) (a : Operand) (k i : Nat) : Nat :=
  if i < g.width then (vsrc s c g a (k * g.width + i)).toNat else 0

/-- XVS. -/
def execXvs (gd : Guard) (two : Bool) (d : SReg) (a b : Operand) (s : State) : Host.Outcome State Fault Refusal :=
  runOp (fun _ c g => checkGroups gd [.vec a, .sca b] c g)
    (fun s c g =>
      let eff := g.effGroups gd
      if eff.isEmpty then s
      else s.land c 2 (.s d.val)
        (eff.map fun k =>
          let i := (ssrc s c g b k).toNat
          (k, xvsLane s c g a k i + (if two then xvsLane s c g a k (i + 1) * 2 ^ 32 else 0))) [] true) s

/-! ## Events of the operand store -/

/-- HALLOC_CLEAR_DONE (R250). -/
def execHallocClearDone (_gid id : Nat) (s : State) : Host.Outcome State Fault Refusal :=
  match s.clears.find id with
  | none => .next s
  | some j => .next ({ s with clears := s.clears.del id } |>.sweep j.team)

/-- Performs a job of the pair bridge: fills the slot whole, or writes its bytes. -/
def State.bridge (s : State) (id : Nat) : State :=
  match s.bridges.find id with
  | none => s
  | some j =>
    let s := { s with bridges := s.bridges.del id }
    let s := match j.bytes with
      | none => s.copySlot j.from_.1 j.bspace j.from_.2 j.core j.bspace j.slot
      | some bs => { s with tiles := s.tiles.setAll (bs.map fun (o, b) => (tileKey j.core j.bspace j.slot o, b)) }
    s.sweep j.team

/-- PARTNER_SLOT_FILL (R247). -/
def execPartnerSlotFill (id : Nat) (s : State) : Host.Outcome State Fault Refusal := .next (s.bridge id)

/-- PARTNER_SLOT_WRITE (R248). -/
def execPartnerSlotWrite (id : Nat) (s : State) : Host.Outcome State Fault Refusal := .next (s.bridge id)

end Sys2Proof.Machine
end

