-- ==== Sys2Proof/Machine/Matrix.lean ====
section
/-! DEFINITION. The M slot: the matrix array and its queue (R90 to R94, R235 to R245) and the handle instructions
(R249 to R257). -/

namespace Sys2Proof.Machine

/-! ## Formats of a matrix product -/

/-- The accumulator of a product (R90). -/
inductive AccKind where
  | f32 | i32 | f64
deriving DecidableEq, Repr

/-- Bank kinds as the state codes them (R239). -/
def AccKind.code : AccKind → Nat
  | .f32 => 0 | .i32 => 1 | .f64 => 2

/-- A pairing of R90: products a cycle, and the accumulator. An FP64 chunk is one product of four cycles. -/
def pairing (a b : ElemFormat) : Option (Nat × AccKind) :=
  match a, b with
  | .fp64, .fp64 => some (1, .f64)
  | .fp32, .fp32 => some (1, .f32)
  | .fp16, .fp16 => some (4, .f32)
  | .bf16, .bf16 => some (4, .f32)
  | .e4m3, .e4m3 | .e4m3, .e5m2 | .e5m2, .e4m3 | .e5m2, .e5m2 => some (8, .f32)
  | .int8, .int8 => some (8, .i32)
  | .fp16, .ds8 | .bf16, .ds8 => some (8, .f32)
  | .e4m3, .ds8 | .e5m2, .ds8 | .int8, .ds8 => some (16, .f32)
  | _, _ => none

/-- The full K of an A format: the elements of an A-space row (R57, R90). -/
def fullK (a : ElemFormat) : Nat := 2048 / a.bits

/-- MFORMAT holds of a product: a pairing outside R90, scales with INT8 × INT8 (R91), or an FP64 column view
(R235). -/
def badFormats (wa wb : Word32) (column : Bool) : Bool :=
  let a := elemFormat wa
  let b := elemFormat wb
  (pairing a b).isNone || (a == .int8 && b == .int8 && (slotScaled wa || slotScaled wb)) || (a == .fp64 && column)

/-- The limit of K for a view (R235). -/
def limitK (a : ElemFormat) (column : Bool) : Nat := if column then 64 else fullK a

/-- K as the K code gives it (R235): I0 is the immediate as an unsigned number. -/
def productK (c : Cur) (a : ElemFormat) (column : Bool) (k : KCode) : Nat :=
  match k with
  | .full => limitK a column
  | .half => limitK a column / 2
  | .quarter => limitK a column / 4
  | .imm => (c.imm 0).toNat

/-- The cycles a product keeps the array (R237). -/
def productTime (a : ElemFormat) (kc k : Nat) : Nat :=
  if a = .fp64 then Nat.max 4 (4 * k) else Nat.max 4 ((k + kc - 1) / kc)

/-- The format byte (R100), as MFORMAT reports it. -/
def Format.byte (f : Format) : Nat :=
  f.a.val * 32 + f.b.val * 4 + (match f.k with | .full => 0 | .half => 1 | .quarter => 2 | .imm => 3)

/-! ## Banks -/

/-- A bank operand lies in the gang's allotment (R65). -/
def Gang.hasBank (g : Gang) (n : Nat) : Bool := decide (n < g.banks.length)

/-- The bank of the core that a gang's bank number names. -/
def Gang.phys (g : Gang) (n : Nat) : Nat := (g.banks[n]?).getD 0

/-- The other bank of a pair. -/
def pairOf (n : Nat) : Nat := if n % 2 = 0 then n + 1 else n - 1

/-- The key of an accumulator word (R65). -/
def accKey (core bank i j : Nat) : Nat := (core * 16 + bank) * 4096 + 64 * i + j

/-- SPACE for a bank operand (R65, R329). -/
def bankTrap (c : Cur) (n : Nat) (groups : List Nat) : Trap := c.trap trapSPACE (groupMask groups) 0 n (2 ^ 63)

/-! ## Issue -/

/-- Matrix operations of a core that have issued and not started (R243). -/
def Core.matWaiting (c : Core) : Nat := c.matQueue.length

/-- Puts a matrix operation in the queue; it starts four cycles after issue at the earliest, and after the tile
writes in flight to its tiles (R243, R244). -/
def State.queueMat (s : State) (core : Nat) (o : MatOp) : State :=
  let tiles := o.src.toList ++ (o.srcB.map fun p => (true, p.1, p.2)).toList ++ o.dst.toList
  let t := (tiles.map fun (b, n, r) => s.tileLanding core o.seq { bspace := b, slot := n, record := r }).foldl Nat.max
    (s.time + 4)
  let idle := (s.core core).matRun.isNone && (s.core core).matQueue.isEmpty
  let s := s.updCore core fun k => { k with matQueue := k.matQueue ++ [{ o with notBefore := t }] }
  if idle then s.at t (.matrixOpStart core) else s

/-- A matrix operation: the guard, the queue's place, then its own checks; it executes once for the gang (R17,
R232, R243). -/
def matrixOp (gd : Guard) (check : State → Cur → Gang → List Nat → Verdict)
    (effect : State → Cur → Gang → State) (s : State) : Host.Outcome State Fault Refusal :=
  runOp
    (fun s c g =>
      (holdIf (guardPending g gd) .pending).andThen fun _ =>
        let eff := g.effConds gd
        if eff.isEmpty then .go
        else (holdIf (decide (4 ≤ (s.core g.core).matWaiting)) .unitFull).andThen fun _ => check s c g eff)
    (fun s c g => if (g.effConds gd).isEmpty then s else effect s c g) s

/-- The format slots of a product. -/
def State.slotsOf (s : State) (g : Gang) (f : Format) : Word32 × Word32 :=
  (s.formatSlot g f.a.val, s.formatSlot g f.b.val)

/-- An FP64 pairing names an even bank whose pair is allotted (R65, R236). -/
def Gang.hasPair (g : Gang) (n : Nat) : Bool := n % 2 == 0 && g.hasBank (n + 1)

/-- The checks of MMA and MMAZ in the order of R233 (R236). DEDUCED, log 90. -/
def checkProduct (d : Bank) (v : View) (hb : Handle) (f : Format) (s : State) (c : Cur) (g : Gang)
    (eff : List Nat) : Verdict :=
  let ea := g.handle v.h.val
  let eb := g.handle hb.val
  let (wa, wb) := s.slotsOf g f
  let col := v.dir == .column
  let f64 := elemFormat wa == .fp64 && elemFormat wb == .fp64
  let k := productK c (elemFormat wa) col f.k
  (trapIf (ea.state == .free) (handleTrap c g trapDEADHANDLE v.h.val eff)).andThen fun _ =>
  (trapIf (eb.state == .free) (handleTrap c g trapDEADHANDLE hb.val eff)).andThen fun _ =>
  (trapIf (s.spaceOf g ea) (handleTrap c g trapSPACE v.h.val eff)).andThen fun _ =>
  (trapIf (!s.spaceOf g eb) (handleTrap c g trapSPACE hb.val eff)).andThen fun _ =>
  (trapIf (!g.hasBank d.val || (f64 && !g.hasPair d.val)) (bankTrap c d.val eff)).andThen fun _ =>
  (trapIf (badFormats wa wb col) (c.trap trapMFORMAT (groupMask eff) 0 (Format.byte f) 0)).andThen fun _ =>
    trapIf (decide (limitK (elemFormat wa) col < k)) (c.trap trapBOUNDS (groupMask eff) 0 k 4)

/-- MMA and MMAZ (R235 to R238). -/
def product (zero : Bool) (gd : Guard) (d : Bank) (v : View) (hb : Handle) (f : Format) (s : State) :
    Host.Outcome State Fault Refusal :=
  matrixOp gd (checkProduct d v hb f)
    (fun s c g =>
      let (wa, wb) := s.slotsOf g f
      let a := elemFormat wa
      let col := v.dir == .column
      let k := productK c a col f.k
      match s.tileOf g (g.handle v.h.val), s.tileOf g (g.handle hb.val), pairing a (elemFormat wb) with
      | some ta, some tb, some (kc, _) =>
        s.queueMat g.core
          { gid := c.gid, team := g.team,
            kind := .mma zero col k a (elemFormat wb) (slotScale wa) (slotScale wb),
            phys := g.phys d.val, other := g.phys (pairOf d.val), odd := d.val % 2 == 1,
            src := some (ta.bspace, ta.slot, ta.record), srcB := some (tb.slot, tb.record), dst := none,
            cowFrom := none, dur := productTime a kc k, notBefore := 0, seq := c.seq }
      | _, _, _ => s) s

def execMma (gd : Guard) (d : Bank) (v : View) (hb : Handle) (f : Format) := product false gd d v hb f
def execMmaz (gd : Guard) (d : Bank) (v : View) (hb : Handle) (f : Format) := product true gd d v hb f

/-- MDRAIN (R240, R41). -/
def execMdrain (gd : Guard) (add : Bool) (h : Handle) (a : Bank) (s : State) : Host.Outcome State Fault Refusal :=
  matrixOp gd
    (fun s c g eff =>
      let e := g.handle h.val
      (trapIf (e.state == .free) (handleTrap c g trapDEADHANDLE h.val eff)).andThen fun _ =>
      (trapIf (e.state == .aliasRO) (handleTrap c g trapSPACE h.val eff)).andThen fun _ =>
      (trapIf (!g.hasBank a.val) (bankTrap c a.val eff)).andThen fun _ =>
        checkQuota s c g (.mdrain gd add h a) h.val eff)
    (fun s c g =>
      let e := g.handle h.val
      let copied := e.state == .template && !s.soleRef g e
      let from_ := if copied then (s.tileOf g e).map fun t => t.slot else none
      let s := s.ownTile c.gid h.val
      match (s.gang c.gid).bind fun live => s.tileOf live (live.handle h.val) with
      | some t =>
        s.queueMat g.core
          { gid := c.gid, team := g.team, kind := .drain add, phys := g.phys a.val,
            other := g.phys (pairOf a.val), odd := a.val % 2 == 1, src := none, srcB := none,
            dst := some (t.bspace, t.slot, t.record), partners := s.partnerSlots g.team g.core t.record, cowFrom := from_,
            dur := if copied then 32 else 16, notBefore := 0, seq := c.seq }
      | none => s) s

/-- MFILL (R241). -/
def execMfill (gd : Guard) (d : Bank) (h : Handle) (s : State) : Host.Outcome State Fault Refusal :=
  matrixOp gd
    (fun s c g eff =>
      let e := g.handle h.val
      (trapIf (e.state == .free) (handleTrap c g trapDEADHANDLE h.val eff)).andThen fun _ =>
      (trapIf (s.spaceOf g e) (handleTrap c g trapSPACE h.val eff)).andThen fun _ =>
        trapIf (!g.hasBank d.val) (bankTrap c d.val eff))
    (fun s c g =>
      match s.tileOf g (g.handle h.val) with
      | some t =>
        s.queueMat g.core
          { gid := c.gid, team := g.team, kind := .fill, phys := g.phys d.val, other := g.phys (pairOf d.val),
            odd := d.val % 2 == 1, src := some (t.bspace, t.slot, t.record), srcB := none, dst := none,
            cowFrom := none, dur := 16, notBefore := 0, seq := c.seq }
      | none => s) s

/-- MZERO (R242). -/
def execMzero (gd : Guard) (d : Bank) (s : State) : Host.Outcome State Fault Refusal :=
  matrixOp gd (fun _ c g eff => trapIf (!g.hasBank d.val) (bankTrap c d.val eff))
    (fun s c g =>
      s.queueMat g.core
        { gid := c.gid, team := g.team, kind := .zero, phys := g.phys d.val, other := g.phys (pairOf d.val),
          odd := d.val % 2 == 1, src := none, srcB := none, dst := none, cowFrom := none, dur := 4,
          notBefore := 0, seq := c.seq }) s

/-! ## The array -/

/-- The code of an element at an offset of a slot's bytes. -/
def slotElem (s : State) (core : Nat) (bspace : Bool) (slot off : Nat) (f : ElemFormat) : FVal :=
  f.value (natOfBytes (s.tiles.getRun (tileKey core bspace slot off) (f.bits / 8)))

/-- A(i, k) through its view (R235). -/
def elemA (s : State) (core slot : Nat) (f : ElemFormat) (column : Bool) (i k : Nat) : FVal :=
  let w := f.bits / 8
  slotElem s core false slot (if column then 256 * k + i * w else 256 * i + k * w) f

/-- B(k, j): element k of column slice j (R58, R235). -/
def elemB (s : State) (core slot : Nat) (f : ElemFormat) (k j : Nat) : FVal :=
  slotElem s core true slot (256 * j + k * (f.bits / 8)) f

/-- An integer value, for INT8 products. -/
def FVal.toInt : FVal → Int
  | .fin n m e => signedInt n (m * 2 ^ e.toNat)
  | _ => 0

/-- One cell of a product: chunks of `kc` products in ascending k, each added with one rounding (R92, R93). -/
def cell (kind : AccKind) (kc : Nat) (scale : Int) (acc : Nat) (as bs : List FVal) : Nat :=
  (chunks kc as.length (as.zip bs)).foldl (fun acc ps =>
    match kind with
    | .i32 => (BitVec.ofInt 32 ((acc : Int) + ps.foldl (fun t p => t + FVal.toInt p.1 * FVal.toInt p.2) 0)).toNat
    | .f32 => accumulate fp32 acc ((chunkSum ps).scale scale)
    | .f64 => accumulate fp64 acc ((chunkSum ps).scale scale)) acc

/-- The words of an accumulator as a product reads them: one bank, or a pair (R65, R235). -/
def accWord (s : State) (core : Nat) (o : MatOp) (f64 : Bool) (i j : Nat) : Nat :=
  (s.acc.get (accKey core o.phys i j)).toNat +
    (if f64 then (s.acc.get (accKey core o.other i j)).toNat * 2 ^ 32 else 0)

/-- The indices of a 64 × 64 bank, rising. -/
def cells64 : List (Nat × Nat) := (List.range 64).flatMap fun i => (List.range 64).map fun j => (i, j)

/-- Replaces the words of a bank. -/
def State.setBank (s : State) (core bank : Nat) (f : Nat → Nat → Nat) : State :=
  let a := accKey core bank 0 0
  let ws := cells64.filterMap fun (i, j) =>
    let x := BitVec.ofNat 32 (f i j)
    if x = 0 then none else some (accKey core bank i j, x)
  { s with acc := (s.acc.filter fun p => decide (p.1 < a)) ++ ws ++ s.acc.filter fun p => decide (a + 4096 ≤ p.1) }

/-- Sets the kind of banks of a core (R239). -/
def State.setKind (s : State) (core : Nat) (banks : List Nat) (k : AccKind) : State :=
  s.updCore core fun c => { c with kinds := banks.foldl (fun t b => t.put b k.code) c.kinds }

/-- The kind of a bank (R239). -/
def Core.kind (c : Core) (bank : Nat) : Nat := c.kinds.getD bank 0

/-- A product's effect on its bank or pair (R92, R235, R238, R239). INT8 × INT8 into one bank of an F64 pair makes that bank
I32 and the other F32. DEDUCED, log 125. -/
def State.runProduct (s : State) (core : Nat) (o : MatOp) (zero col : Bool) (k : Nat) (a b : ElemFormat)
    (sa sb : Int) : State :=
  match pairing a b, o.src, o.srcB with
  | some (kc, kind), some (_, na, _), some (nb, _) =>
    let rows := (List.range 64).map fun i => (List.range k).map fun n => elemA s core na a col i n
    let cols := (List.range 64).map fun j => (List.range k).map fun n => elemB s core nb b n j
    let value := fun i j =>
      cell kind kc (sa + sb) (if zero then 0 else accWord s core o (kind == .f64) i j)
        ((rows[i]?).getD []) ((cols[j]?).getD [])
    let vals := (List.range 64).map fun i => (List.range 64).map fun j => value i j
    let at_ := fun i j => (((vals[i]?).getD [])[j]?).getD 0
    let s' := s.setBank core o.phys fun i j => at_ i j % 2 ^ 32
    if kind = .f64 then (s'.setBank core o.other fun i j => at_ i j / 2 ^ 32).setKind core [o.phys, o.other] .f64
    else
      let s' := if (s.core core).kind o.phys = 2 then s'.setKind core [o.other] .f32 else s'
      s'.setKind core [o.phys] kind
  | _, _, _ => s

/-- The low bank and the high bank of an F64 pair, whichever of the two the operation names. -/
def MatOp.pairBanks (o : MatOp) : Nat × Nat := if o.odd then (o.other, o.phys) else (o.phys, o.other)

/-- Element (i, j) of an F64 pair. -/
def pairWord (s : State) (core : Nat) (o : MatOp) (i j : Nat) : Nat :=
  (s.acc.get (accKey core o.pairBanks.1 i j)).toNat + (s.acc.get (accKey core o.pairBanks.2 i j)).toNat * 2 ^ 32

/-- What MDRAIN writes: offset, element and its bytes (R240). -/
def drainElems (s : State) (core : Nat) (o : MatOp) (bspace : Bool) : List (Nat × Nat × Nat) :=
  if (s.core core).kind o.phys = 2 then
    let half := if o.odd then 32 else 0
    (List.range 64).flatMap fun x => (List.range 32).map fun y =>
      (256 * x + 8 * y, (if bspace then pairWord s core o (half + y) x else pairWord s core o x (half + y)), 8)
  else
    cells64.map fun (i, j) =>
      ((if bspace then 256 * j + 4 * i else 256 * i + 4 * j), (s.acc.get (accKey core o.phys i j)).toNat, 4)

/-- MDRAIN's addition: by the bank's kind (R240). -/
def drainAdd (kind old new : Nat) : Nat :=
  match kind with
  | 2 => (fAdd fp64 .rne old new).1
  | 1 => (old + new) % 2 ^ 32
  | _ => (fAdd fp32 .rne old new).1

/-- MDRAIN's effect on its tile, and on the partner slot (R240, R248). -/
def State.runDrain (s : State) (core : Nat) (o : MatOp) (add : Bool) : State :=
  match o.dst with
  | none => s
  | some (b, n, rec) =>
    let s := match o.cowFrom with
      | some m => s.copySlot core b m core b n
      | none => s
    let kind := (s.core core).kind o.phys
    let bytes := (drainElems s core o b).flatMap fun (off, v, w) =>
      let v := if add then drainAdd kind (natOfBytes (s.tiles.getRun (tileKey core b n off) w)) v else v
      (List.range w).zip (bytesLE w v) |>.map fun p => (off + p.1, p.2)
    let sorted := sortBy Prod.fst bytes
    let s := s.setSlotCells core b n (sorted.filterMap fun p =>
      if p.2 = 0 then none else some (tileKey core b n p.1, p.2))
    s.bridgeWrite o.team core rec b o.partners bytes (s.time + 16)

/-- MFILL's effect on its bank or pair (R241). -/
def State.runFill (s : State) (core : Nat) (o : MatOp) : State :=
  match o.src with
  | none => s
  | some (b, n, _) =>
    if (s.core core).kind o.phys = 2 then
      let half := if o.odd then 32 else 0
      (List.range 64).foldl (fun s i => (List.range 32).foldl (fun s j =>
        let v := natOfBytes (s.tiles.getRun (tileKey core b n (256 * i + 8 * j)) 8)
        { s with acc := (s.acc.set (accKey core o.pairBanks.1 i (half + j)) (BitVec.ofNat 32 v)).set
                          (accKey core o.pairBanks.2 i (half + j)) (BitVec.ofNat 32 (v / 2 ^ 32)) }) s) s
    else
      s.setBank core o.phys fun i j => natOfBytes (s.tiles.getRun (tileKey core b n (256 * i + 4 * j)) 4)

/-- The chunks of a product (R92). -/
def MatKind.chunkCount : MatKind → Nat
  | .mma _ _ k a b _ _ => match pairing a b with | some (kc, _) => (k + kc - 1) / kc | none => 0
  | _ => 0

/-- The effect of a matrix operation. DEDUCED, log 56. -/
def State.runMat (s : State) (core : Nat) (o : MatOp) : State :=
  match o.kind with
  | .mma zero col k a b sa sb => s.runProduct core o zero col k a b sa sb
  | .drain add => s.runDrain core o add
  | .fill => s.runFill core o
  | .zero => s.setBank core o.phys fun _ _ => 0

/-- MATRIX_OP_START: the oldest operation starts once the array is idle and its time has come (R243). -/
def State.startMat (s : State) (core : Nat) : State :=
  let k := s.core core
  match k.matRun, k.matQueue with
  | none, o :: rest =>
    if s.time < o.notBefore then s.at o.notBefore (.matrixOpStart core)
    else
      (s.putCore core { k with matRun := some (o, s.time + o.dur), matQueue := rest }).at (s.time + o.dur)
        (.matrixOpComplete core)
  | _, _ => s

def execMatrixOpStart (core : Nat) (s : State) : Host.Outcome State Fault Refusal := .next (s.startMat core)

/-- MATRIX_OP_COMPLETE: at the cycle after its run the operation's effect is there and its counts are released;
the next operation starts (R243, R244). DEDUCED, log 56. -/
def execMatrixOpComplete (core : Nat) (s : State) : Host.Outcome State Fault Refusal :=
  match (s.core core).matRun with
  | none => .next s
  | some (o, t) =>
    if s.time < t then .next s
    else
      -- the operation of a team that has completed writes nothing: its slots and banks are gone
      let s := (if (s.team o.team).any fun t => t.phase != .done then s.runMat core o else s).tally core 0x0F o.kind.chunkCount
      let s := s.updCore core fun k => { k with matRun := none }
      .next ((s.sweep o.team).startMat core)

end Sys2Proof.Machine
end

