-- ==== Sys2Proof/Machine/Handles.lean ====
section
/-! DEFINITION. The handle instructions of the M slot (R249 to R257): allocation, release, passing, publishing and
waiting, and the events that carry them out. -/

namespace Sys2Proof.Machine

/-- A handle instruction: gang-level under its guard, with no place in the matrix queue (R232, R249). -/
def handleOp (gd : Guard) (check : State → Cur → Gang → List Nat → Verdict)
    (effect : State → Cur → Gang → List Nat → State) (s : State) : Host.Outcome State Fault Refusal :=
  runOp
    (fun s c g =>
      (holdIf (guardPending g gd) .pending).andThen fun _ =>
        let eff := g.effConds gd
        if eff.isEmpty then .go else check s c g eff)
    (fun s c g => let eff := g.effConds gd
      if eff.isEmpty then s else effect s c g eff) s

/-- DEADHANDLE for a free entry (R61). -/
def checkDead (c : Cur) (g : Gang) (h : Nat) (eff : List Nat) : Verdict :=
  trapIf ((g.handle h).state == .free) (handleTrap c g trapDEADHANDLE h eff)

/-- Puts a reference in an entry, which is first released as by HFREE when it is in use (R250, R253, R254). -/
def State.fillEntry (s : State) (gid h : Nat) (st : HState) (ref : HRef) : State :=
  (s.freeEntry gid h true).updGang gid fun g =>
    g.putHandle h { g.handle h with state := st, ref := ref }

/-! ## Allocation and release -/

/-- HALLOC (R250). -/
def execHalloc (gd : Guard) (m : AllocMode) (h : Handle) :=
  handleOp gd (fun s c g eff => checkQuota s c g (.halloc gd m h) h.val eff)
    fun s c g _ =>
      let s := s.freeEntry c.gid h.val true
      let (id, s) := s.fresh
      let (n, s) := s.takeRecordSlot g.team g.context g.core m.bspace id
      let gen := match s.gang c.gid with | some live => (live.handle h.val).gen | none => 0
      let s := s.addRecord g.team id
        { bspace := m.bspace, gen := gen, slots := [(g.core, n)], shadows := [], publishing := [] }
      let s := s.updGang c.gid fun g => g.putHandle h.val { g.handle h.val with state := .live, ref := .record id }
      if m.zeroed then
        let (j, s) := s.fresh
        let job : ClearJob := { team := g.team, record := id, core := g.core }
        let s := s.setSlotCells g.core m.bspace n []
        let s := { s with clears := s.clears.put j job }
        s.at (s.time + 16) (.hallocClearDone c.gid j)
      else s

/-- HFREE (R61, R251). -/
def execHfree (gd : Guard) (h : Handle) :=
  handleOp gd (fun _ c g eff => checkDead c g h.val eff) fun s c _ _ => s.freeEntry c.gid h.val true

/-! ## Passing handles -/

/-- The groups of a gang's team: a launch's prologue is a team of one group (R252, R317). -/
def State.groupCount (s : State) (g : Gang) : Nat :=
  match s.launch g.launch, s.team g.team with
  | some l, some t => if t.prologue then 1 else l.groups
  | some l, none => l.groups
  | none, _ => 0

/-- An inbox slot of a gang holds a record, or one is on its way to it (R252). -/
def State.inboxFull (s : State) (gid slot : Nat) : Bool :=
  (match s.gang gid with | some g => (g.inbox.find slot).isSome | none => false) ||
    s.messages.vals.any fun m => m.gid == gid && m.slot == slot

/-- The group number in B, read from the lowest effective group (R232). DEDUCED, log 92. -/
def giveTarget (s : State) (c : Cur) (g : Gang) (b : Operand) (eff : List Nat) : Nat :=
  match eff with
  | k :: _ => (ssrc s c g b k).toNat
  | [] => 0

/-- The checks of HGIVE and HSHARE in the order of R233. -/
def checkGive (i : Instr) (h : Nat) (b : Operand) (slot : Nat) (s : State) (c : Cur) (g : Gang) (eff : List Nat) :
    Verdict :=
  let target := giveTarget s c g b eff
  (checkSources c g (eff.take 1) [.sca b]).andThen fun _ =>
  (checkDead c g h eff).andThen fun _ =>
  (trapIf (decide (s.groupCount g ≤ target)) (c.trap trapBOUNDS (groupMask eff) 0 target 5)).andThen fun _ =>
  (checkQuota s c g i h eff).andThen fun _ =>
    match s.gangOfGroup g.team target with
    | some (tg, _) => holdIf (s.inboxFull tg slot) (.inboxFull tg slot)
    | none => .go

/-- A second slot of a record on a core, filled over the pair bridge, with a shadow beside it where the record
has one (R247). -/
def State.secondSlot (s : State) (g : Gang) (id core : Nat) : State :=
  match s.record g.team id with
  | none => s
  | some r =>
    if (r.slots.find core).isSome then s
    else
      let (n, s) := s.takeRecordSlot g.team g.context core r.bspace id
      let s := s.updRecord g.team id fun r => { r with slots := r.slots.put core n }
      let s :=
        if r.shadows.isEmpty then s
        else
          let (m, s) := s.takeRecordSlot g.team g.context core r.bspace id
          let s := s.updRecord g.team id fun r => { r with shadows := r.shadows.put core m }
          -- copies under way into the record write this shadow too
          let s := { s with copies := s.copies.mapAll fun x =>
            if x.record = some id && decide (x.stage < 4) then { x with shadows := x.shadows.put core m } else x }
          match r.shadows.find g.core with
          | some k => s.fillSlot r.bspace g.core k core m
          | none => s
      match r.slots.find g.core with
      | none => s
      | some from_ =>
        -- a matrix operation still to write the tile writes this slot too (R248)
        let more := fun (o : MatOp) =>
          if o.dst = some (r.bspace, from_, some id) then { o with partners := o.partners ++ [(core, n)] } else o
        let s := s.updCore g.core fun c =>
          { c with matRun := c.matRun.map fun p => (more p.1, p.2), matQueue := c.matQueue.map more }
        s.startBridge { team := g.team, record := id, core := core, bspace := r.bspace, slot := n, bytes := none,
                        from_ := (g.core, from_), due := s.time + 64 }

/-- Sends a record to an inbox: 4 cycles on the core, 16 to the partner, with the fill of a second slot (R247,
R249). A group whose gang has ended receives nothing. -/
def State.sendInbox (s : State) (g : Gang) (target slot : Nat) (what : Delivered) : State :=
  match s.gangOfGroup g.team target with
  | none => s
  | some (tg, t) =>
    let needs := match what.ref with
      | .record id => match s.record g.team id with
        | some r => (r.slots.find t.core).isNone
        | none => false
      | _ => false
    let s := match what.ref with | .record id => s.secondSlot g id t.core | _ => s
    let (m, s) := s.fresh
    let msg : InboxMsg := { gid := tg, slot := slot, what := what }
    let s := { s with messages := s.messages.put m msg }
    s.at (s.time + (if t.core = g.core then 4 else 16) + (if needs then 64 else 0)) (.inboxDelivery m)

/-- HGIVE (R252). -/
def execHgive (gd : Guard) (h : Handle) (b : Operand) (slot : Inbox) :=
  handleOp gd (checkGive (.hgive gd h b slot) h.val b slot.val)
    fun s c g eff =>
      let e := g.handle h.val
      (s.sendInbox g (giveTarget s c g b eff) slot.val { ref := e.ref, state := e.state }).freeEntry c.gid h.val false

/-- HSHARE (R252). -/
def execHshare (gd : Guard) (h : Handle) (b : Operand) (slot : Inbox) :=
  handleOp gd (checkGive (.hshare gd h b slot) h.val b slot.val)
    fun s c g eff => s.sendInbox g (giveTarget s c g b eff) slot.val { ref := (g.handle h.val).ref, state := .aliasRO }

/-- HTAKE (R253). -/
def execHtake (gd : Guard) (h : Handle) (slot : Inbox) :=
  handleOp gd (fun _ _ g _ => holdIf (g.inbox.find slot.val).isNone (.inboxEmpty slot.val))
    fun s c g _ =>
      match g.inbox.find slot.val with
      | none => s
      | some d =>
        (s.fillEntry c.gid h.val d.state d.ref).updGang c.gid fun g => { g with inbox := g.inbox.del slot.val }

/-- HDUP (R254). -/
def execHdup (gd : Guard) (d a : Handle) :=
  handleOp gd
    (fun _ c g eff =>
      (checkDead c g a.val eff).andThen fun _ =>
        trapIf ((g.handle a.val).state == .shadowPending) (handleTrap c g trapSPACE a.val eff))
    fun s c g _ =>
      if d = a then s
      else
        let e := g.handle a.val
        let st := if e.state = .live then .template else e.state
        (s.fillEntry c.gid d.val st e.ref).updGang c.gid fun g => g.putHandle a.val { g.handle a.val with state := st }

/-! ## Publishing -/

/-- Asks for the publication of a record's shadow on behalf of a gang (R255). -/
def State.askPublish (s : State) (gid team record pub : Nat) (waits pubs : List Nat) (released : Bool) : State :=
  let p : Publish :=
    { id := pub, gid := gid, released := released, waits := waits, pubs := pubs, since := s.time, due := none }
  (s.updRecord team record fun r => { r with publishing := r.publishing ++ [p] }).fixPublications team record

/-- A publication's release action is complete (R255, R281). -/
def State.publishReleased (s : State) (team record pub : Nat) : State :=
  let set := fun (p : Publish) => if p.id = pub then { p with released := true, since := s.time } else p
  (s.updRecord team record fun r => { r with publishing := r.publishing.map set }).fixPublications team record

/-- Asks for a publication: a release at team scope, after which its eight cycles count (R255, R281); the swap itself awaits
the publications asked for before (R289). DEDUCED, log 112. -/
def State.publish (s : State) (gid seq : Nat) (g : Gang) (id : Nat) : State :=
  let waits := (s.copies.filter fun p => p.2.record == some id && decide (p.2.stage < 4)).map Prod.fst
  let before := match s.gang gid with | some live => live.pubs | none => []
  let (pub, s) := s.fresh
  let ask := fun (s : State) (released : Bool) =>
    (s.updGang gid fun g => { g with pubs := g.pubs ++ [pub] }).askPublish gid g.team id pub waits before released
  if s.onPair g then
    let (a, s) := s.fresh
    let s := { s with afters := s.afters.put a (.publish gid g.team id pub) }
    ask (s.joinSync gid seq true false [a] []) false
  else ask (s.orderLog gid seq true) true

/-- HPUB (R255). -/
def execHpub (gd : Guard) (h : Handle) :=
  handleOp gd
    (fun _ c g eff =>
      (checkDead c g h.val eff).andThen fun _ =>
        trapIf ((g.handle h.val).state == .aliasRO) (handleTrap c g trapSPACE h.val eff))
    fun s c g _ =>
      let e := g.handle h.val
      match e.ref, e.state with
      | .record id, .shadowPending => s.publish c.gid c.seq g id
      | _, _ => s

/-- Live entries again, once a record's shadow is published (R255). -/
def HEntry.published (id : Nat) (e : HEntry) : HEntry :=
  if e.ref = .record id && e.state == .shadowPending then { e with state := .live } else e

def Delivered.published (id : Nat) (d : Delivered) : Delivered :=
  if d.ref = .record id && d.state == .shadowPending then { d with state := .live } else d

/-- The swap: the shadow becomes the current slot on every core that holds the record, for every alias, and every publication
that asked for it is made, the auto-publishes whose own eight cycles are not over among them (R229, R255, R289). DEDUCED,
log 112. -/
def State.swapRecord (s : State) (team record : Nat) : State :=
  match s.record team record with
  | none => s
  | some r =>
    let made := r.publishing.map fun p => p.id
    let s := s.updRecord team record fun r =>
      { r with slots := r.shadows.foldl (fun t p => t.put p.1 p.2) r.slots, shadows := [], publishing := [] }
    let s := { s with
      gangs := s.gangs.mapAll (fun g =>
        let g := { g with pubs := g.pubs.filter fun p => !made.contains p }
        if g.team = team && !g.handler then
          { g with handles := g.handles.mapAll (HEntry.published record),
                   inbox := g.inbox.mapAll (Delivered.published record) }
        else g)
      messages := s.messages.mapAll fun m => { m with what := m.what.published record }
      copies := s.copies.filter fun p => !(p.2.record == some record && (p.2.stage == 7 || (p.2.stage == 5 && made.contains p.1))) }
    (s.sweep team).afterSwap team

/-- PUBLISH_SWAP (R255): at package time P. -/
def execPublishSwap (team record : Nat) (s : State) : Host.Outcome State Fault Refusal :=
  match s.record team record with
  | none => .next s
  | some r =>
    if r.publishing.any s.swapDue then .next (s.swapRecord team record)
    else .next s

/-- AUTO_PUBLISH (R207): eight cycles after the batch of an auto-publish copy has retired its shadow is
published as by HPUB. -/
def execAutoPublish (copyId : Nat) (s : State) : Host.Outcome State Fault Refusal :=
  match s.copies.find copyId with
  | none => .next s
  | some x =>
    match x.record with
    | none => .next s
    | some id =>
      if x.stage = 5 ∧ x.due ≤ s.time then
        match s.record x.team id with
        | none => .next { s with copies := s.copies.del copyId }
        | some _ => .next (s.swapRecord x.team id)
      else .next s

/-! ## Waiting and inspection -/

/-- HWAIT (R256): the auto-publish of a copy whose batch has not retired is not asked for yet. DEDUCED, log 112. -/
def execHwait (gd : Guard) (h : Handle) :=
  handleOp gd
    (fun s c g _ =>
      let e := g.handle h.val
      if e.state = .free then holdIf (e.released.any (s.stillOwned g.team)) .other
      else
        let busy := match s.tileOf g e with
          | some t => decide (0 < s.busyR g.core t) || decide (0 < s.busyW g.core t)
          | none => false
        let pending := match e.ref with
          | .record id => (match s.record g.team id with | some r => !r.publishing.isEmpty | none => false) ||
              s.copies.vals.any fun x => x.record == some id && x.gid == c.gid && decide (x.stage < 4)
          | _ => false
        holdIf (busy || pending) .other)
    fun s c g _ =>
      if (g.handle h.val).state = .free then
        s.updGang c.gid fun g => g.putHandle h.val { g.handle h.val with released := [] }
      else s

/-- HINFO (R257): the word is sampled at issue and lands after one beat. -/
def execHinfo (gd : Guard) (d : SReg) (h : Handle) :=
  handleOp gd (fun _ _ _ _ => .go)
    fun s c g eff =>
      let w := (s.hinfoWord g (g.handle h.val)).toNat
      s.land c 1 (.s d.val) (eff.map fun k => (k, w)) [] false

/-- INBOX_DELIVERY (R249): the record stands in the inbox slot. DEDUCED, log 52. -/
def execInboxDelivery (delivery : Nat) (s : State) : Host.Outcome State Fault Refusal :=
  match s.messages.find delivery with
  | none => .next s
  | some m =>
    let s := { s with messages := s.messages.del delivery }
    .next (s.updGang m.gid fun g => { g with inbox := g.inbox.put m.slot m.what })

end Sys2Proof.Machine
end

