-- ==== Sys2Proof/Machine/Scalar.lean ====
section
/-! DEFINITION. The S slot: 64-bit operations of the effective groups, conditions, special registers and the
gang's control flow (R125 to R149). -/

namespace Sys2Proof.Machine

/-! ## Data operations -/

/-- The check of an S data operation: a pending guard waits, an operation with no effective group reads nothing,
and otherwise its sources are judged (R25, R26, R125). -/
def checkScalar (gd : Guard) (srcs : List Src) (c : Cur) (g : Gang) : Verdict :=
  (holdIf (guardPending g gd) .pending).andThen fun _ =>
    let eff := g.effConds gd
    if eff.isEmpty then .go else checkSources c g eff srcs

/-- An S operation that lands a scalar in every effective group (R126). -/
def scalarOp (gd : Guard) (d : SReg) (srcs : List Src) (beats : Nat)
    (f : State → Cur → Gang → Nat → Word64) (s : State) : Host.Outcome State Fault Refusal :=
  runOp (fun _ c g => checkScalar gd srcs c g)
    (fun s c g =>
      let eff := g.effConds gd
      if eff.isEmpty then s
      else s.land c beats (.s d.val) (eff.map fun k => (k, (f s c g k).toNat)) [] true) s

/-- Two scalar sources. -/
def scalar2 (gd : Guard) (d : SReg) (a b : Operand) (beats : Nat) (f : Word64 → Word64 → Word64) :
    State → Host.Outcome State Fault Refusal :=
  scalarOp gd d [.sca a, .sca b] beats fun s c g k => f (ssrc s c g a k) (ssrc s c g b k)

/-- One scalar source. -/
def scalar1 (gd : Guard) (d : SReg) (a : Operand) (f : Word64 → Word64) :
    State → Host.Outcome State Fault Refusal :=
  scalarOp gd d [.sca a] 1 fun s c g k => f (ssrc s c g a k)

/-- An S operation that lands a condition in every effective group (R132). -/
def condOp (gd : Guard) (d : Flag) (srcs : List Src) (f : State → Cur → Gang → Nat → Bool) (s : State) :
    Host.Outcome State Fault Refusal :=
  runOp (fun _ c g => checkScalar gd srcs c g)
    (fun s c g =>
      let eff := g.effConds gd
      if eff.isEmpty then s
      else s.land c 1 (.c d.val) (eff.map fun k => (k, (f s c g k).toNat)) [] false) s

/-- A compare of two scalars (R132). -/
def compare2 (gd : Guard) (d : Flag) (a b : Operand) (f : Word64 → Word64 → Bool) :
    State → Host.Outcome State Fault Refusal :=
  condOp gd d [.sca a, .sca b] fun s c g k => f (ssrc s c g a k) (ssrc s c g b k)

/-- A logic operation on two conditions (R132). -/
def condLogic (gd : Guard) (d : Flag) (a b : Operand) (f : Bool → Bool → Bool) :
    State → Host.Outcome State Fault Refusal :=
  condOp gd d [.cnd a, .cnd b] fun _ _ g k => f (condSrc g a k) (condSrc g b k)

/-- The high half of the signed product (R128). -/
def mulHigh (a b : Word64) : Word64 := ((a.signExtend 128 * b.signExtend 128).extractLsb' 64 64)

/-- The high half of the unsigned product (R128). -/
def mulHighW (a b : Word64) : Word64 := ((a.setWidth 128 * b.setWidth 128).extractLsb' 64 64)

/-- Leading zero bits (R128, R159). -/
def leadingZeros {w : Nat} (a : BitVec w) : Nat := w - bitLength a.toNat

/-- The lesser or greater of two words under an order. -/
def pickBy {w : Nat} (less : BitVec w → BitVec w → Bool) (greater : Bool) (a b : BitVec w) : BitVec w :=
  if less a b != greater then a else b

def execAdd (gd : Guard) (d : SReg) (a b : Operand) := scalar2 gd d a b 1 fun x y => x + y
def execSub (gd : Guard) (d : SReg) (a b : Operand) := scalar2 gd d a b 1 fun x y => x - y
def execMul (gd : Guard) (d : SReg) (a b : Operand) := scalar2 gd d a b 2 fun x y => x * y
def execMulh (gd : Guard) (d : SReg) (a b : Operand) := scalar2 gd d a b 2 mulHigh
def execMulhw (gd : Guard) (d : SReg) (a b : Operand) := scalar2 gd d a b 2 mulHighW
def execAnd (gd : Guard) (d : SReg) (a b : Operand) := scalar2 gd d a b 1 fun x y => x &&& y
def execOr (gd : Guard) (d : SReg) (a b : Operand) := scalar2 gd d a b 1 fun x y => x ||| y
def execXor (gd : Guard) (d : SReg) (a b : Operand) := scalar2 gd d a b 1 fun x y => x ^^^ y
def execAndn (gd : Guard) (d : SReg) (a b : Operand) := scalar2 gd d a b 1 fun x y => x &&& ~~~y
def execShl (gd : Guard) (d : SReg) (a b : Operand) := scalar2 gd d a b 1 fun x y => x <<< (y.toNat % 64)
def execShr (gd : Guard) (d : SReg) (a b : Operand) := scalar2 gd d a b 1 fun x y => x >>> (y.toNat % 64)
def execSar (gd : Guard) (d : SReg) (a b : Operand) := scalar2 gd d a b 1 fun x y => x.sshiftRight (y.toNat % 64)
def execRol (gd : Guard) (d : SReg) (a b : Operand) := scalar2 gd d a b 1 fun x y => x.rotateLeft (y.toNat % 64)
def execMin (gd : Guard) (d : SReg) (a b : Operand) := scalar2 gd d a b 1 (pickBy BitVec.slt false)
def execMax (gd : Guard) (d : SReg) (a b : Operand) := scalar2 gd d a b 1 (pickBy BitVec.slt true)
def execMinw (gd : Guard) (d : SReg) (a b : Operand) := scalar2 gd d a b 1 (pickBy BitVec.ult false)
def execMaxw (gd : Guard) (d : SReg) (a b : Operand) := scalar2 gd d a b 1 (pickBy BitVec.ult true)
def execClz (gd : Guard) (d : SReg) (a : Operand) := scalar1 gd d a fun x => BitVec.ofNat 64 (leadingZeros x)
def execCnt (gd : Guard) (d : SReg) (a : Operand) := scalar1 gd d a fun x => BitVec.ofNat 64 (popCount x)
def execMov (gd : Guard) (d : SReg) (a : Operand) := scalar1 gd d a fun x => x

/-- SEL (R131). -/
def execSel (gd : Guard) (d : SReg) (a b cn : Operand) :=
  scalarOp gd d [.sca a, .sca b, .cnd cn] 1 fun s c g k =>
    if condSrc g cn k then ssrc s c g a k else ssrc s c g b k

/-- LI (R131). -/
def execLi (gd : Guard) (d : SReg) (k : ImmSlot) := scalarOp gd d [] 1 fun _ c _ _ => c.imm k.val

/-- LIH (R131). -/
def execLih (gd : Guard) (d : SReg) (a : Operand) (k : ImmSlot) :=
  scalarOp gd d [.sca a] 1 fun s c g p =>
    ((c.imm k.val).setWidth 32 : Word32) ++ ((ssrc s c g a p).setWidth 32 : Word32)

def execCeq (gd : Guard) (d : Flag) (a b : Operand) := compare2 gd d a b fun x y => x == y
def execCne (gd : Guard) (d : Flag) (a b : Operand) := compare2 gd d a b fun x y => x != y
def execClt (gd : Guard) (d : Flag) (a b : Operand) := compare2 gd d a b fun x y => x.slt y
def execCle (gd : Guard) (d : Flag) (a b : Operand) := compare2 gd d a b fun x y => x.sle y
def execCltw (gd : Guard) (d : Flag) (a b : Operand) := compare2 gd d a b fun x y => x.ult y
def execClew (gd : Guard) (d : Flag) (a b : Operand) := compare2 gd d a b fun x y => x.ule y
def execCand (gd : Guard) (d : Flag) (a b : Operand) := condLogic gd d a b fun x y => x && y
def execCor (gd : Guard) (d : Flag) (a b : Operand) := condLogic gd d a b fun x y => x || y
def execCxor (gd : Guard) (d : Flag) (a b : Operand) := condLogic gd d a b fun x y => x != y

/-- CANY (R133). -/
def execCany (gd : Guard) (d : Flag) (a : Operand) :=
  condOp gd d [] fun _ _ g k => (g.lanes k).any fun p => predSrc g a p

/-- CEVERY (R133). -/
def execCevery (gd : Guard) (d : Flag) (a : Operand) :=
  condOp gd d [] fun _ _ g k => (g.lanes k).all fun p => predSrc g a p

/-! ## Division -/

/-- Quotient and remainder of R129. -/
def divide (signed : Bool) (a b : Word64) : Word64 × Word64 :=
  if b = 0 then (BitVec.allOnes 64, a)
  else if signed then
    if a = BitVec.intMin 64 ∧ b = BitVec.allOnes 64 then (BitVec.intMin 64, 0)
    else (BitVec.ofInt 64 (a.toInt.tdiv b.toInt), BitVec.ofInt 64 (a.toInt.tmod b.toInt))
  else (BitVec.ofNat 64 (a.toNat / b.toNat), BitVec.ofNat 64 (a.toNat % b.toNat))

/-- The bundles waiting in front of the divider (R130). DEDUCED, log 99. -/
def Core.divWaiting (c : Core) (now : Nat) : Nat := c.divider.countP fun j => now < j.accept

/-- The cycle the divider accepts a bundle that issues now: one bundle in each beat, in issue order, and a bundle that waits in
the cycle of a later beat that its own issue had in its beat (R130). DEDUCED, log 99. -/
def Core.divAccept (c : Core) (now : Nat) : Nat :=
  c.divider.foldl (fun t j => if t / 4 ≤ j.accept / 4 then 4 * (j.accept / 4 + 1) + now % 4 else t) now

/-- A division: the destination is empty from issue until 48 cycles after acceptance (R129, R130). DEDUCED, log 99. -/
def divOp (gd : Guard) (d : SReg) (a b : Operand) (f : Word64 → Word64 → Word64) (s : State) :
    Host.Outcome State Fault Refusal :=
  runOp
    (fun s c g => (holdIf (!(g.effConds gd).isEmpty && 4 ≤ (s.core g.core).divWaiting s.time) .unitFull).andThen
      fun _ => checkScalar gd [.sca a, .sca b] c g)
    (fun s c g =>
      let eff := g.effConds gd
      if eff.isEmpty then s
      else
        let vals := eff.map fun k => (k, (f (ssrc s c g a k) (ssrc s c g b k)).toNat)
        let (id, s) := s.beginLong c.gid c.seq (.s d.val) eff 1 false
        let s := s.updGang c.gid fun g => { g with longs := g.longs.upd id fun l => { l with vals := vals } }
        let at_ := (s.core g.core).divAccept s.time
        let job : DivJob := { gid := c.gid, long := id, accept := at_, due := at_ + 48 }
        (s.updCore g.core fun k => { k with divider := k.divider ++ [job] }).atEnd (at_ + 48) (.dividerResult g.core)) s

def execDiv (gd : Guard) (d : SReg) (a b : Operand) := divOp gd d a b fun x y => (divide true x y).1
def execDivw (gd : Guard) (d : SReg) (a b : Operand) := divOp gd d a b fun x y => (divide false x y).1
def execRem (gd : Guard) (d : SReg) (a b : Operand) := divOp gd d a b fun x y => (divide true x y).2
def execRemw (gd : Guard) (d : SReg) (a b : Operand) := divOp gd d a b fun x y => (divide false x y).2

/-! ## Special registers -/

/-- RDSR (R134). -/
def execRdsr (gd : Guard) (d : SReg) (a : Special) :=
  scalarOp gd d [] 1 fun s _ g k => specialRegister s g k a.val

/-- WRSR: the write lands one beat later (R135). It goes to no scalar register, and leaves L.S. DEDUCED, log 122. -/
def execWrsr (gd : Guard) (d : Special) (a : Operand) (s : State) : Host.Outcome State Fault Refusal :=
  runOp (fun _ c g => checkScalar gd [.sca a] c g)
    (fun s c g =>
      let eff := g.effConds gd
      if eff.isEmpty then s
      else s.land c 1 (.special d.val) (eff.map fun k => (k, (ssrc s c g a k).toNat)) [] false) s

/-! ## Control flow -/

/-- The bits of the active mask that hold a group. -/
def Gang.activeMask (g : Gang) : Nat := groupMask g.activeGroups

/-- What a gang-wide guard decides (R136): execute, do nothing, or trap. -/
inductive GangWide where
  | run | skip | diverge
deriving DecidableEq, Repr

/-- Whether a test agrees in every active group: `some` its value, or nothing when groups disagree. -/
def agree (l : List Bool) : Option Bool :=
  if l.all id then some true else if l.any id then none else some false

/-- The guard of a gang-wide control operation (R136). -/
def Gang.gangWide (g : Gang) (gd : Guard) : GangWide :=
  match agree (g.activeGroups.map fun k => (g.effConds gd).contains k) with
  | some true => .run
  | some false => .skip
  | none => .diverge

/-- DIVERGE raised by the active groups. -/
def divergeTrap (c : Cur) (g : Gang) : Trap := c.trap trapDIVERGE g.activeMask 0 0 0

/-- A gang-wide control operation: pending guard, mixed guard, then its own check and effect (R136). -/
def controlOp (gd : Guard) (srcs : List Src) (check : State → Cur → Gang → Verdict)
    (effect : State → Cur → Gang → State) (s : State) : Host.Outcome State Fault Refusal :=
  runOp
    (fun s c g =>
      (holdIf (guardPending g gd) .pending).andThen fun _ =>
        match g.gangWide gd with
        | .skip => .go
        | .diverge => .trap (divergeTrap c g)
        | .run => (checkSources c g g.activeGroups srcs).andThen fun _ => check s c g)
    (fun s c g =>
      match g.gangWide gd with
      | .run => effect s c g
      | _ => s) s

/-- A stream position moved by a signed offset (R137). -/
def offsetPos (pos : Nat) (imm : Word64) : Nat := (BitVec.ofNat 64 pos + imm).toNat

/-- Sends the gang to a position, leaving one empty beat (R30, R138). -/
def Gang.branchTo (g : Gang) (beat pos : Nat) : Gang :=
  { g with pos := pos, emptyUntil := 4 * (beat + 2) }

/-- BR (R139). -/
def execBr (gd : Guard) (k : ImmSlot) :=
  controlOp gd [] (fun _ _ _ => .go) fun s c _ =>
    s.updGang c.gid fun g => g.branchTo s.beat (offsetPos c.pos (c.imm k.val))

/-- The value BRC tests in each active group. -/
def brcTests (g : Gang) (inv : Bool) (a : Operand) : List Bool := g.activeGroups.map fun k => condSrc g a k != inv

/-- BRC (R139). -/
def execBrc (gd : Guard) (inv : Bool) (a : Operand) (k : ImmSlot) :=
  controlOp gd [.cnd a]
    (fun _ c g => trapIf (agree (brcTests g inv a)).isNone (divergeTrap c g))
    fun s c g =>
      if agree (brcTests g inv a) = some true then
        s.updGang c.gid fun g => g.branchTo s.beat (offsetPos c.pos (c.imm k.val))
      else s

/-- The groups a BRD sends to its taken path (R142). -/
def brdTaken (g : Gang) (gd : Guard) (a : Operand) : List Nat :=
  (g.effConds gd).filter fun k => condSrc g a k

/-- BRD (R32, R142). -/
def execBrd (gd : Guard) (a : Operand) (kt kj : ImmSlot) (s : State) : Host.Outcome State Fault Refusal :=
  runOp
    (fun _ c g =>
      (holdIf (guardPending g gd) .pending).andThen fun _ =>
      (checkSources c g (g.effConds gd) [.cnd a]).andThen fun _ =>
        let t := brdTaken g gd a
        let f := g.activeGroups.filter fun k => !t.contains k
        trapIf (!t.isEmpty && !f.isEmpty && decide (2 < g.reconv.length)) (c.trap trapSTACK g.activeMask 0 0 0))
    (fun s c g =>
      let t := brdTaken g gd a
      let f := g.activeGroups.filter fun k => !t.contains k
      let taken := offsetPos c.pos (c.imm kt.val)
      let join := offsetPos c.pos (c.imm kj.val)
      if t.isEmpty then s
      else if f.isEmpty then s.updGang c.gid fun g => g.branchTo s.beat taken
      else
        let outer : Reconv := { mask := g.active, pos := join, tag := join, resolve := true }
        let inner : Reconv := { mask := BitVec.ofNat 4 (groupMask t), pos := taken, tag := join, resolve := false }
        s.updGang c.gid fun g =>
          { g with reconv := inner :: outer :: g.reconv, active := BitVec.ofNat 4 (groupMask f) }) s

/-- Drops the entries on top whose groups have all ended, and answers the first that holds a group. -/
def popEmptied : List Reconv → Option (Reconv × List Reconv)
  | [] => none
  | e :: rest => if e.mask = 0 then popEmptied rest else some (e, rest)

/-- An entry resumes directly after the reference that stands at `pos` with its next at `next`: it names that position,
or it was pushed for a join at `pos` (R32, R43). -/
def Reconv.follows (e : Reconv) (pos next : Nat) : Bool := if e.resolve then e.tag == pos else e.pos == next

/-- Continues the gang at the first stack entry that holds a group, or ends it when none does (R143, R145,
R258). The position of an entry pushed for the join is resolved by fetch at its tag (R32). An entry that resumes directly
after the JOIN given, by its position and its next, costs no beat; any other leaves one empty beat (R43, R258). -/
def Gang.continueFrom (g : Gang) (beat : Nat) (join : Option (Nat × Nat)) (stack : List Reconv) : Gang :=
  match popEmptied stack with
  | none => { g with active := 0, reconv := [], park := .ending }
  | some (e, rest) =>
    let g := { g with active := e.mask, reconv := rest }
    match join.filter fun j => e.follows j.1 j.2 with
    | some j => { g with pos := j.2, resolving := false }
    | none => { g with pos := e.pos, resolving := e.resolve, emptyUntil := 4 * (beat + 2) }

/-- JOIN (R32, R43, R143). -/
def execJoin (gd : Guard) :=
  controlOp gd [] (fun _ _ _ => .go) fun s c g =>
    match g.reconv with
    | [] => s
    | e :: rest =>
      if e.tag = c.pos then s.updGang c.gid fun g => g.continueFrom s.beat (some (c.pos, c.next)) (e :: rest) else s

/-- CALL (R33, R144). -/
def execCall (gd : Guard) (k : ImmSlot) :=
  controlOp gd []
    (fun _ c g => trapIf (decide (8 ≤ g.returns.length)) (c.trap trapSTACK g.activeMask 0 1 0))
    fun s c _ => s.updGang c.gid fun g =>
      { (g.branchTo s.beat (offsetPos c.pos (c.imm k.val))) with returns := c.next :: g.returns }

/-- RET (R33, R144). -/
def execRet (gd : Guard) :=
  controlOp gd []
    (fun _ c g => trapIf g.returns.isEmpty (c.trap trapSTACK g.activeMask 0 1 0))
    fun s c g =>
      match g.returns with
      | [] => s
      | p :: rest => s.updGang c.gid fun g => { (g.branchTo s.beat p) with returns := rest }

/-- The counts of LOOP by active group (R140). DEDUCED, log 92. -/
def loopCounts (s : State) (c : Cur) (g : Gang) (a : Operand) : List (Nat × Word64) :=
  g.activeGroups.map fun k => (k, ssrc s c g a k - 1)

/-- LOOP (R140). -/
def execLoop (gd : Guard) (d : SReg) (a : Operand) (k : ImmSlot) :=
  controlOp gd [.sca a]
    (fun s c g => trapIf (agree ((loopCounts s c g a).map fun p => p.2 == 0)).isNone (divergeTrap c g))
    fun s c g =>
      let ns := loopCounts s c g a
      let s := s.land c 1 (.s d.val) (ns.map fun p => (p.1, p.2.toNat)) [] true
      if ns.all fun p => p.2 != 0 then
        s.updGang c.gid fun g => g.branchTo s.beat (offsetPos c.pos (c.imm k.val))
      else s

/-- The kernel stream address of a gang's launch (R102); the handler image's for a handler run (R331). -/
def State.streamBase (s : State) (g : Gang) : Nat :=
  match s.launch g.launch with
  | some l => if g.handler then (match l.handler with | some h => h.1 | none => 0) else l.stream
  | none => 0

/-- The positions BRX takes from the active groups (R141). DEDUCED, log 29, 92. -/
def brxTargets (s : State) (c : Cur) (g : Gang) (a : Operand) : List Nat :=
  g.activeGroups.map fun k => (ssrc s c g a k).toNat

/-- BRX (R141). DEDUCED, log 29. -/
def execBrx (gd : Guard) (a : Operand) :=
  controlOp gd [.sca a]
    (fun s c g =>
      match brxTargets s c g a with
      | [] => .go
      | t :: ts =>
        if ts.any fun x => x != t then .trap (divergeTrap c g)
        else trapIf (decide (2 ^ 48 ≤ s.streamBase g + t))
          { code := trapSTREAM, gmask := g.activeMask, detail1 := 3 })
    fun s c g =>
      match brxTargets s c g a with
      | [] => s
      | t :: _ => s.updGang c.gid fun g => g.branchTo s.beat t

/-! ## Ending, freezing and waiting -/

/-- The groups of a gang that have not ended: active, or held in stack entries. -/
def Gang.liveGroups (g : Gang) : List Nat :=
  g.groups.keys.filter fun k => g.active.getLsbD k || g.reconv.any fun e => e.mask.getLsbD k

/-- GUARD for the groups given that have touched a guard granule; the lowest names the touch (R68, R73, R329).
DEDUCED, log 91. -/
def guardTrap (c : Cur) (g : Gang) (groups : List Nat) : Option Trap :=
  let hit := groups.filter fun k => match g.group k with | some x => x.guardPend | none => false
  match hit with
  | [] => none
  | k :: _ =>
    let t := (g.group k).bind fun x => x.touch
    let lane := (t.map fun t => t.lane).getD 0
    let pos := (t.map fun t => t.position).getD 0
    let bank := (t.map fun t => t.bank).getD 0
    some (c.trap trapGUARD (groupMask hit) 0 pos (lane + 256 * bank))

/-- GUARD, when one of the groups has it pending. -/
def checkGuard (c : Cur) (g : Gang) (groups : List Nat) : Verdict :=
  match guardTrap c g groups with
  | some t => .trap t
  | none => .go

/-- The opcode of a copy (R202), and of CSEAL (R206). -/
def isCopyOp (sh : Shape) : Bool := sh.cls == .C && decide (0x40 ≤ sh.op.toNat ∧ sh.op.toNat ≤ 0x45)
def isSealOp (sh : Shape) : Bool := sh.cls == .C && sh.op.toNat == 0x47

/-- What the C slots of a bundle leave of a group's open batch: the batches they seal, and whether a copy stands in it
at the bundle's end (R136, R206). -/
def batchAfter (ops : List (Slot × Instr)) (g : Gang) (k : Nat) (copies : Bool) : Nat × Bool :=
  ops.foldl (fun a x =>
    match x.2.shape with
    | some sh =>
      if !(g.effective sh).contains k then a
      else if isCopyOp sh then (a.1, true)
      else if isSealOp sh then (a.1 + 1, false)
      else a
    | none => a) (0, copies)

/-- Some of these groups have a copy to seal at the end of a bundle with these operations and no place for one more
sealed batch (R101, R145, R206). -/
def Gang.sealsFull (g : Gang) (ops : List (Slot × Instr)) (groups : List Nat) : Bool :=
  groups.any fun k =>
    match g.group k with
    | some x =>
      let own := batchAfter ops g k (!x.openBatch.isEmpty)
      own.2 && decide (16 ≤ x.sealed.length + own.1)
    | none => false

/-- Seals a group's open batch under the next number (R206). -/
def Group.sealBatch (x : Group) (order : Nat) : Group :=
  let b : Batch := { number := (x.batch + 1).toNat, copies := x.openBatch, retireAt := none, releasing := false, order := order }
  { x with sealed := x.sealed ++ [b], openBatch := [], batch := x.batch + 1 }

/-- Seals the open batch of a group of the gang, after those sealed before (R206, R289). -/
def Gang.sealGroup (g : Gang) (k : Nat) : Gang :=
  let last := (g.groups.vals.flatMap fun x => x.sealed.map Batch.order).foldl Nat.max 0
  g.updGroup k fun x => x.sealBatch (last + 1)

/-- Seals the open batch of a group that ends, where it holds a copy (R145). -/
def Gang.sealAtEnd (g : Gang) (k : Nat) : Gang :=
  if (g.group k).all fun x => x.openBatch.isEmpty then g else g.sealGroup k

/-- Ends groups of the gang: cleared from the active mask and from every stack entry, their open batches
sealed (R32, R145). -/
def Gang.endGroups (g : Gang) (groups : List Nat) : Gang :=
  let keep := ~~~(BitVec.ofNat 4 (groupMask groups))
  { (groups.foldl Gang.sealAtEnd g) with
    active := g.active &&& keep
    reconv := g.reconv.map fun e => { e with mask := e.mask &&& keep } }

/-- Goes on after groups have ended: nothing more when some are active, else from the stack (R145). -/
def Gang.afterEnd (g : Gang) (beat : Nat) : Gang :=
  if g.active = 0 then g.continueFrom beat none g.reconv else g

/-- EXIT (R145). -/
def execExit (gd : Guard) (s : State) : Host.Outcome State Fault Refusal :=
  runOp
    (fun _ c g =>
      (holdIf (guardPending g gd) .pending).andThen fun _ =>
      (checkGuard c g (g.effConds gd)).andThen fun _ =>
        holdIf (g.sealsFull c.ops (g.effConds gd)) .other)
    (fun s c g =>
      let eff := g.effConds gd
      if eff.isEmpty then s
      else s.updGang c.gid fun g => (g.endGroups eff).afterEnd s.beat) s

/-- FREEZE is allowed to the prologue group, and to group 0 of a team prologue (R38, R146). -/
def Gang.mayFreeze (g : Gang) : Bool := (g.prologue || g.teamPrologue) && !g.handler

/-- FREEZE: seals the open batch and parks the gang until its snapshot (R34, R146). -/
def execFreeze (gd : Guard) :=
  controlOp gd []
    (fun _ c g =>
      (trapIf (!g.mayFreeze) (c.trap trapFREEZEDEPTH g.activeMask 0 0 0)).andThen fun _ =>
      (checkGuard c g g.activeGroups).andThen fun _ =>
        holdIf (g.sealsFull c.ops g.activeGroups) .other)
    fun s c _ => s.updGang c.gid fun g =>
      { (g.activeGroups.foldl Gang.sealAtEnd g) with park := .freezing }

/-- YIELD (R147); in the handler seat nothing beyond the beat. -/
def execYield (gd : Guard) :=
  controlOp gd [] (fun _ _ _ => .go) fun s c g =>
    if g.handler then s
    else (s.updGang c.gid fun g =>
      { g with yieldTo := c.ready, yieldUntil := some (s.time + Config.yieldCycles) }).at
        (s.time + Config.yieldCycles) (.yieldExpiry c.gid)

/-- SLEEP (R148). -/
def execSleep (gd : Guard) (a : Operand) :=
  controlOp gd [.sca a] (fun _ _ _ => .go) fun s c g =>
    let most := (g.activeGroups.map fun k => (ssrc s c g a k).toNat).foldl Nat.max 0
    let t := s.time + Nat.min most (2 ^ 32 - 1)
    (s.updGang c.gid fun g => { g with wake := t }).at t (.sleepWake c.gid)

/-- TRAP (R149). -/
def execTrap (gd : Guard) (k : ImmSlot) (s : State) : Host.Outcome State Fault Refusal :=
  runOp
    (fun _ c g =>
      (holdIf (guardPending g gd) .pending).andThen fun _ =>
        trapIf (!(g.effConds gd).isEmpty)
          (c.trap trapTRAP (groupMask (g.effConds gd)) 0 ((c.imm k.val).toNat % 2 ^ 16) 0))
    (fun s _ _ => s) s

end Sys2Proof.Machine
end

