-- ==== Sys2Proof/Machine/Barriers.lean ====
section
/-! DEFINITION. Barriers of a team (R212 to R216, R346, R347). -/

namespace Sys2Proof.Machine

/-! ## The barrier itself -/

/-- The flip: one more phase, the counts reloaded, the mask cleared (R214). -/
def Barrier.flip (b : Barrier) (t : Nat) : Barrier :=
  { b with phase := (b.phase + 1) % 2 ^ 16, leftG := b.expectG, leftN := b.expectN, arrived := 0, flipAt := t,
           phaseWas := if b.flipAt = t then b.phaseWas else b.phase }

/-- Flips when both counts are zero (R214). -/
def Barrier.settle (b : Barrier) (t : Nat) : Barrier := if b.leftG = 0 ∧ b.leftN = 0 then b.flip t else b

/-- `n` bytes land one after another (R210, R215): bytes beyond the count are discarded and set the overrun flag,
unless the count reaching zero flips the barrier, which reloads it. DEDUCED, log 94. -/
def Barrier.land (b : Barrier) (n t : Nat) : Barrier :=
  if n = 0 then b
  else if n ≤ b.leftN then ({ b with leftN := b.leftN - n } : Barrier).settle t
  else if b.leftG ≠ 0 then { b with leftN := 0, overrun := true }
  else
    let m := n - b.leftN
    let b := b.flip t
    if b.expectG ≠ 0 then
      if m ≤ b.leftN then { b with leftN := b.leftN - m } else { b with leftN := 0, overrun := true }
    else
      { b with phase := (b.phase + m / b.expectN) % 2 ^ 16, leftN := b.expectN - m % b.expectN }

/-- How many of `n` bytes that land the barrier counts: all but those it discards (R215). -/
def Barrier.counts (b : Barrier) (n t : Nat) : Nat :=
  if n ≤ b.leftN then n
  else if b.leftG ≠ 0 then b.leftN
  else if (b.flip t).expectG ≠ 0 then b.leftN + Nat.min (n - b.leftN) (b.flip t).leftN
  else n

/-- One group arrives whose bit is clear (R214). -/
def Barrier.arrive (b : Barrier) (group t : Nat) : Barrier :=
  ({ b with leftG := b.leftG - 1, arrived := putBit b.arrived group true } : Barrier).settle t

/-- A barrier as dispatch leaves it (R212). -/
def Barrier.atDispatch (groups : Nat) : Barrier :=
  { expectG := groups, expectN := 0, leftG := groups, leftN := 0, phase := 0, overrun := false, arrived := 0,
    flipAt := 0, phaseWas := 0 }

/-- A barrier of a team. -/
def Team.bar (t : Team) (b : Nat) : Barrier := t.bars.getD b (Barrier.atDispatch 0)

def State.bar (s : State) (team b : Nat) : Barrier :=
  match s.team team with
  | some t => t.bar b
  | none => Barrier.atDispatch 0

/-- Changes a barrier; arrivals that wait for its flip are tried again when its phase changes. -/
def State.updBar (s : State) (team b : Nat) (f : Barrier → Barrier) : State :=
  let old := s.bar team b
  let new := f old
  let s := s.updTeam team fun t => { t with bars := t.bars.put b new }
  if new.phase = old.phase then s
  else
    (s.arrivals.filter fun p => p.2.team == team && p.2.bar == b && p.2.stuck).foldl (fun s p =>
      ({ s with arrivals := s.arrivals.put p.1 { p.2 with stuck := false } } : State).at s.time
        (.barrierArrival p.1)) s

/-- A group's token for a barrier (R212). -/
def Group.token (x : Group) (b : Nat) : Nat := x.tokens.getD b 0

def Group.setToken (x : Group) (b phase : Nat) : Group := { x with tokens := x.tokens.put b phase }

/-- The number of a group position within the team. -/
def Gang.groupNumber (g : Gang) (k : Nat) : Nat :=
  match g.group k with
  | some x => x.number
  | none => 0

/-- An arrival of a group is on its way (R216). -/
def State.arriving (s : State) (team b group : Nat) : Bool :=
  s.arrivals.vals.any fun a => a.team == team && a.bar == b && a.group == group

/-- A group has already arrived in this phase, or its arrival is on its way (R214). -/
def State.hasArrived (s : State) (team b group : Nat) : Bool :=
  (s.bar team b).arrived.getLsbD group || s.arriving team b group

/-- The phase has differed from a token since before this cycle: waits end in the cycle after the flip (R214, R216). -/
def Barrier.passed (b : Barrier) (now token : Nat) : Bool :=
  b.phase != token && (decide (b.flipAt < now) || b.phaseWas != token)

/-- The wait on a barrier is over for the groups given (R214, R216). -/
def State.waitOver (s : State) (g : Gang) (b : Nat) (groups : List Nat) : Bool :=
  groups.all fun k =>
    match g.group k with
    | some x => !s.arriving g.team b x.number && (s.bar g.team b).passed s.time (x.token b)
    | none => true

/-- The wait of groups on a barrier: copy deadlock looks through it only while one of them has the barrier's phase as its
token, and so waits for arrivals or bytes (R40, R214). -/
def State.barWait (s : State) (g : Gang) (b : Nat) (groups : List Nat) : Wait :=
  if groups.any fun k => match g.group k with | some x => x.token b == (s.bar g.team b).phase | none => false then .barrier b
  else .other

/-- The wait of a BARSYN has ended (R214). -/
def State.syncBarOver (s : State) (g : Gang) : Bool :=
  !g.syncBar.isEmpty && g.syncBar.all fun p => s.waitOver g p.1 (maskGroups p.2)

/-- The end of a wait is an acquire at team scope: it drops for a team on a pair, else orders (R214, R281). -/
def State.waitEnded (s : State) (gid : Nat) (g : Gang) (seq : Nat) : State :=
  if s.onPair g then s.beginSync gid seq false true [] else s.orderLog gid seq false

/-! ## Arrivals -/

/-- What an arrival waits for is done (R216, R289, R347). -/
def State.arrivalReady (s : State) (a : Arrival) : Bool :=
  a.released && a.due.isNone && !a.stuck &&
    (match s.gang a.gid with
     | none => true
     | some g => !(a.stls.any fun i => g.stls.contains i) && !g.awaits a.pubs)

/-- Cycles from a core to its pair's barrier unit (R216). -/
def unitCycles (core : Nat) : Nat := if core % 2 = 0 then 8 else 16

/-- An arrival leaves for the unit once nothing holds it (R216). -/
def State.sendArrival (s : State) (id : Nat) : State :=
  match s.arrivals.find id with
  | none => s
  | some a =>
    if s.arrivalReady a then
      let t := s.time + unitCycles a.core
      ({ s with arrivals := s.arrivals.put id { a with due := some t } } : State).at t (.barrierArrival id)
    else s

/-- One group arrives: its token takes the phase, and its arrival waits for what R216 and the release of R281 ask.
DEDUCED, log 40. -/
def State.arriveGroup (s : State) (c : Cur) (g : Gang) (b k : Nat) : State :=
  let n := g.groupNumber k
  let s := s.updGang c.gid fun g => g.updGroup k fun x => x.setToken b (s.bar g.team b).phase
  let live := (s.gang c.gid).getD g
  let (id, s) := s.fresh
  let a : Arrival := { team := g.team, bar := b, group := n, gid := c.gid, core := g.core, stls := live.stls,
                       pubs := live.pubs, released := !s.onPair g, stuck := false, due := none }
  let s := { s with arrivals := s.arrivals.put id a }
  if s.onPair g then
    let (w, s) := s.fresh
    let s := { s with afters := s.afters.put w (.arrival id) }
    s.beginSync c.gid c.seq true false [w]
  else (s.orderLog c.gid c.seq true).sendArrival id

/-- BARRIER_ARRIVAL (R214, R216): at the unit the group's bit is set and the count falls; a group whose bit is set
waits for the flip. The event also sends off an arrival that nothing holds any longer.
DESIGN CHOICE, log 13; DEDUCED, log 40. -/
def execBarrierArrival (arrival : Nat) (s : State) : Host.Outcome State Fault Refusal :=
  match s.arrivals.find arrival with
  | none => .next s
  | some a =>
    match a.due with
    | none => .next (s.sendArrival arrival)
    | some t =>
      if s.time < t then .next s
      else if (s.bar a.team a.bar).arrived.getLsbD a.group then
        .next { s with arrivals := s.arrivals.put arrival { a with stuck := true } }
      else
        let phase := (s.bar a.team a.bar).phase
        let s := { s with arrivals := s.arrivals.del arrival }
        let s := s.updGang a.gid fun g =>
          { g with groups := g.groups.mapAll fun x => if x.number = a.group then x.setToken a.bar phase else x }
        .next (s.updBar a.team a.bar fun b => b.arrive a.group s.time)

/-! ## The instructions -/

/-- A barrier operation of a group: a handler run has no barriers (R212). -/
def barrierOp (gd : Guard) (b : Nat) (srcs : List Src) (check : State → Cur → Gang → List Nat → Verdict)
    (effect : State → Cur → Gang → List Nat → State) (s : State) : Host.Outcome State Fault Refusal :=
  runOp
    (fun s c g =>
      let eff := g.effGroups gd
      if eff.isEmpty then .go
      else (checkSources c g eff srcs).andThen fun _ =>
        (trapIf g.handler (c.trap trapSPACE (groupMask eff) 0 b (2 ^ 62))).andThen fun _ => check s c g eff)
    (fun s c g =>
      let eff := g.effGroups gd
      if eff.isEmpty then s else effect s c g eff) s

/-- OVERRUN is pending on a barrier (R215). -/
def checkOverrun (s : State) (c : Cur) (g : Gang) (b : Nat) (eff : List Nat) : Verdict :=
  trapIf (s.bar g.team b).overrun (c.trap trapOVERRUN (groupMask eff) 0 b 0)

/-- The values of BARINIT for a group: G and N. -/
def barValues (s : State) (c : Cur) (g : Gang) (b cc : Operand) (k : Nat) : Nat × Nat :=
  ((ssrc s c g b k).toNat, (ssrc s c g cc k).toNat)

/-- BARINIT (R213). A pending GUARD comes before BOUNDS, as it comes before OVERRUN (R73, R215). DEDUCED, log 27. -/
def execBarinit (gd : Guard) (a : Bar) (b cc : Operand) :=
  barrierOp gd a.val [.sca b, .sca cc]
    (fun s c g eff =>
      (checkGuard c g eff).andThen fun _ =>
        let vals := eff.map fun k => (k, barValues s c g b cc k)
        let bad := vals.filter fun x =>
          decide (s.groupCount g < x.2.1) || decide (2 ^ 32 ≤ x.2.2) || (x.2.1 == 0 && x.2.2 == 0)
        match bad with
        | [] => .go
        | x :: _ =>
          let value := if 2 ^ 32 ≤ x.2.2 ∧ x.2.1 ≤ s.groupCount g then x.2.2 else x.2.1
          .trap (c.trap trapBOUNDS (groupMask (bad.map Prod.fst)) 0 value 2))
    fun s c g eff =>
      match eff.reverse with
      | [] => s
      | k :: _ =>
        let (n, m) := barValues s c g b cc k
        let phase := (s.bar g.team a.val).phase
        let s := s.updBar g.team a.val fun x =>
          { x with expectG := n, expectN := m, leftG := n, leftN := m, arrived := 0, overrun := false }
        { s with gangs := s.gangs.mapAll fun x =>
            if x.team = g.team && !x.handler then
              { x with groups := x.groups.mapAll fun y => y.setToken a.val phase }
            else x }

/-- A group that has arrived in this phase holds the bundle, with a wait of its own: copy deadlock looks through that of a
BARSYN alone (R40, R214). -/
def checkArrive (s : State) (g : Gang) (b : Nat) (eff : List Nat) (w : Wait) : Verdict :=
  holdIf (eff.any fun k => s.hasArrived g.team b (g.groupNumber k)) w

/-- BARARV (R214). -/
def execBararv (gd : Guard) (a : Bar) :=
  barrierOp gd a.val [] (fun s c g eff => (checkGuard c g eff).andThen fun _ => checkArrive s g a.val eff .other)
    fun s c g eff => eff.foldl (fun s k => s.arriveGroup c g a.val k) s

/-- BARWT (R214, R215). -/
def execBarwt (gd : Guard) (a : Bar) :=
  barrierOp gd a.val []
    (fun s c g eff =>
      (checkGuard c g eff).andThen fun _ =>
      (checkOverrun s c g a.val eff).andThen fun _ => holdIf (!s.waitOver g a.val eff) (s.barWait g a.val eff))
    fun s c g _ => s.waitEnded c.gid g c.seq

/-- BARSYN (R214, R215). -/
def execBarsyn (gd : Guard) (a : Bar) :=
  barrierOp gd a.val []
    (fun s c g eff =>
      (checkGuard c g eff).andThen fun _ =>
      (checkOverrun s c g a.val eff).andThen fun _ => checkArrive s g a.val eff (.barrier a.val))
    fun s c g eff =>
      (eff.foldl (fun s k => s.arriveGroup c g a.val k) s).updGang c.gid fun g =>
        { g with syncBar := g.syncBar ++ [(a.val, groupMask eff)] }

end Sys2Proof.Machine
end

