-- ==== Sys2Proof/Machine/Copies.lean ====
section
/-! DEFINITION. The copy instructions, copies in flight, and batches (R200 to R211, R229, R284). -/

namespace Sys2Proof.Machine

/-! ## Shapes (R201) -/

def shapeRows (x : Nat) : Nat := bitsOf x 7 0 + 1
def shapeRow0 (x : Nat) : Nat := bitsOf x 15 8
def shapeBytes (x : Nat) : Nat := 16 * (bitsOf x 23 16 + 1)
def shapeOfs (x : Nat) : Nat := 16 * bitsOf x 31 24

/-- A rectangle of rows and bytes fits a tile. -/
def fitsTile (row0 ofs rows bytes : Nat) : Bool := decide (rows ≤ 64 ∧ row0 + rows ≤ 64 ∧ ofs + bytes ≤ 256)

def shapeOk (x : Nat) : Bool := fitsTile (shapeRow0 x) (shapeOfs x) (shapeRows x) (shapeBytes x)

/-- CPYL's placement word is valid for a shape. DEDUCED, log 50. -/
def placeOk (shape place : Nat) : Bool :=
  bitsOf place 7 0 == 0 && bitsOf place 23 16 == 0 &&
    fitsTile (shapeRow0 place) (shapeOfs place) (shapeRows shape) (shapeBytes shape)

/-- The address of row i on the global side. -/
def rowAddr (a : Word64) (stride : Word64) (i : Nat) : Word64 := a + stride * BitVec.ofNat 64 i

/-! ## Checks -/

/-- Copies of a core in flight (R200). -/
def State.copiesInFlight (s : State) (core : Nat) : Nat :=
  s.copies.vals.countP fun x => x.core == core && decide (x.stage < 4) && x.hsn.isNone

/-- Copies that the bundle's slots before the issuing one make. -/
def copiesBefore (c : Cur) (g : Gang) : Nat :=
  sumNat (c.ops.map fun (sl, i) =>
    match i.shape with
    | some sh => if sl.order < c.slot.order && isCopyOp sh then (g.effective sh).length else 0
    | none => 0)

/-- A handle's record awaits a publication, so that no further copy into it is ready (R203, R255). -/
def State.publishPending (s : State) (g : Gang) (h : Nat) : Bool :=
  match (g.handle h).ref with
  | .record id =>
    (match s.record g.team id with | some r => !r.publishing.isEmpty | none => false) ||
      s.copies.vals.any fun x => x.record == some id && x.publish && decide (x.stage ≤ 5)
  | _ => false

/-- A handle as the destination of a copy: free, then a forbidden state or space (R203). DEDUCED, log 90. -/
def checkCopyDest (s : State) (c : Cur) (g : Gang) (h : Nat) (space : Option Bool) (noTemplate : Bool)
    (eff : List Nat) : Verdict :=
  let e := g.handle h
  (checkDead c g h eff).andThen fun _ =>
    trapIf (e.state == .aliasRO || space.any (fun b => s.spaceOf g e != b) || (noTemplate && e.state == .template))
      (handleTrap c g trapSPACE h eff)

/-- BOUNDS for the groups whose value fails a test, with the lowest one's value (R201). -/
def checkValue (c : Cur) (eff : List Nat) (val : Nat → Nat) (ok : Nat → Bool) (code : Nat) : Verdict :=
  let bad := eff.filter fun k => !ok k
  match bad with
  | [] => .go
  | k :: _ => .trap (c.trap trapBOUNDS (groupMask bad) 0 (val k) code)

/-- ALIGN for the groups whose address or stride is no multiple of 16 (R201). -/
def checkCopyAlign (c : Cur) (eff : List Nat) (addr stride : Nat → Word64) : Verdict :=
  let bad := eff.filter fun k => (addr k).toNat % 16 != 0 || (stride k).toNat % 16 != 0
  match bad with
  | [] => .go
  | k :: ks =>
    .trap (c.trap trapALIGN (groupMask bad) 0 (ks.foldl (fun a k => Nat.min a (addr k).toNat) (addr k).toNat) 0)

/-- TEMPLATE for the groups whose destination touches a sealed segment (R42). -/
def checkCopyTemplate (s : State) (c : Cur) (g : Gang) (eff : List Nat) (ranges : Nat → List (Nat × Nat)) : Verdict :=
  let bad := eff.filter fun k => (ranges k).any fun r => decide (0 < r.2) && s.inSealed g.context r.1 r.2
  trapIf (!bad.isEmpty) (c.trap trapTEMPLATE (groupMask bad) 0 0 0)

/-! ## Issue -/

/-- Joins a copy to its group's open batch, with the chain and the barrier then in force (R206, R209, R210). -/
def State.issueCopy (s : State) (gid k : Nat) (x : Copy) : State :=
  let (id, s) := s.fresh
  match (s.gang gid).bind fun g => g.group k with
  | none => s
  | some grp =>
    let x := { x with bind := grp.bind, after := if grp.chain then grp.lastCopy else none }
    let s := ({ s with copies := s.copies.put id x } : State).tally x.core 0x0D 1
    let s := s.updGang gid fun g => g.updGroup k fun y =>
      { y with openBatch := y.openBatch ++ [id], chain := false, lastCopy := some id }
    let s := if x.publish then s.updGang gid fun g => { g with pubs := g.pubs ++ [id] } else s
    s.at s.time (.copyCompletion id)

/-- A copy before its fields are set. -/
def Copy.start (c : Cur) (g : Gang) (k op : Nat) (kind : CopyKind) : Copy :=
  { core := g.core, gid := c.gid, group := k, context := g.context, team := g.team, seq := c.seq, pos := c.pos,
    slot := c.slot, kind := kind, src := 0, dst := 0, bytes := 0, stride := 0, rows := 0, rowBytes := 0,
    srcRow := 0, srcOfs := 0, dstRow := 0, dstOfs := 0, srcTile := none, record := none, bspace := false,
    shadows := [], fresh := false, cow := false, publish := false, bind := none, after := none, stage := 0,
    due := 0, gct := 0, data := [], landed := false, hsn := none, batchNo := 0, pages := [], checked := 0, opcode := op }

/-- Makes the shadow of a record on every core that holds it, filled from the current slots (R203, R247). -/
def State.makeShadows (s : State) (g : Gang) (id : Nat) : State :=
  match s.record g.team id with
  | none => s
  | some r =>
    r.slots.foldl (fun s p =>
      let (n, s) := s.takeRecordSlot g.team g.context p.1 r.bspace id
      let s := s.fillSlot r.bspace p.1 p.2 p.1 n
      s.updRecord g.team id fun r => { r with shadows := r.shadows.put p.1 n }) s

/-- Makes a copy's destination handle ready to take it: a copy-on-write of a template, then a shadow; what the
copy had to do first, with the record (R41, R203). -/
def State.copyDest (s : State) (gid : Nat) (g : Gang) (h : Nat) : (Bool × Bool × Option Nat) × State :=
  let e := g.handle h
  let live := (s.gang gid).getD g
  let cow := (live.handle h).state == .template && !s.soleRef live (live.handle h)
  let s := s.ownTile gid h
  let live := (s.gang gid).getD g
  let e' := if (live.handle h).state = .free then e else live.handle h
  match e'.ref with
  | .record id =>
    match s.record g.team id with
    | some r =>
      if r.shadows.isEmpty then
        let s := s.makeShadows g id
        let s := s.updGang gid fun g =>
          if (g.handle h).state = .live then g.putHandle h { g.handle h with state := .shadowPending } else g
        ((cow, true, some id), s)
      else ((cow, false, some id), s)
    | none => ((cow, false, none), s)
  | _ => ((cow, false, none), s)

/-- Issues one copy into a tile for a group. -/
def State.issueToTile (s : State) (gid : Nat) (g : Gang) (k h : Nat) (x : Copy) : State :=
  let ((cow, fresh, rec), s) := s.copyDest gid g h
  match rec.bind fun id => (s.record g.team id).map fun r => (id, r) with
  | some (id, r) =>
    s.issueCopy gid k { x with record := some id, bspace := r.bspace, shadows := r.shadows, cow := cow, fresh := fresh }
  | none => s

/-- A group-level copy: its place among the copies in flight, its sources, its own checks (R17, R185, R200).
DEDUCED, log 24. -/
def copyOp (gd : Guard) (srcs : List Src) (check : State → Cur → Gang → List Nat → Verdict)
    (issue : State → Cur → Gang → Nat → State) (s : State) : Host.Outcome State Fault Refusal :=
  runOp
    (fun s c g =>
      let eff := g.effGroups gd
      if eff.isEmpty then .go
      else
        (holdIf (decide (Config.copiesInFlight < s.copiesInFlight g.core + copiesBefore c g + eff.length))
          .unitFull).andThen fun _ => (checkSources c g eff srcs).andThen fun _ => check s c g eff)
    (fun s c g => (g.effGroups gd).foldl (fun s k => issue s c g k) s) s

/-- CPY, CPYB and CPYM: global rows into the shadow of a tile (R202, R203). -/
def copyIn (op : Nat) (i : Instr) (gd : Guard) (space : Bool) (noTemplate pub : Bool) (h : Handle) (a b cc : Operand) :=
  copyOp gd [.sca a, .sca b, .sca cc]
    (fun s c g eff =>
      let shape := fun k => (ssrc s c g b k).toNat % 2 ^ 32
      (checkCopyDest s c g h.val (some space) noTemplate eff).andThen fun _ =>
      (checkValue c eff shape (fun k => shapeOk (shape k)) 1).andThen fun _ =>
      (checkCopyAlign c eff (ssrc s c g a) (ssrc s c g cc)).andThen fun _ =>
      (checkQuota s c g i h.val eff).andThen fun _ => holdIf (s.publishPending g h.val) .other)
    fun s c g k =>
      let shape := (ssrc s c g b k).toNat % 2 ^ 32
      let x := Copy.start c g k op .toTile
      s.issueToTile c.gid g k h.val
        { x with src := (ssrc s c g a k).toNat, stride := (ssrc s c g cc k).toInt, rows := shapeRows shape,
                 rowBytes := shapeBytes shape, dstRow := shapeRow0 shape, dstOfs := shapeOfs shape,
                 bytes := shapeRows shape * shapeBytes shape, publish := pub }

/-- CPY. -/
def execCpy (gd : Guard) (pub : Bool) (h : Handle) (a b cc : Operand) :=
  copyIn 0x40 (.cpy gd pub h a b cc) gd false false pub h a b cc

/-- CPYB. -/
def execCpyb (gd : Guard) (pub : Bool) (h : Handle) (a b cc : Operand) :=
  copyIn 0x41 (.cpyb gd pub h a b cc) gd true false pub h a b cc

/-- CPYM. -/
def execCpym (gd : Guard) (pub : Bool) (h : Handle) (a b cc : Operand) :=
  copyIn 0x42 (.cpym gd pub h a b cc) gd false true pub h a b cc

/-- The bytes a CPYO writes, row by row. -/
def outRanges (s : State) (c : Cur) (g : Gang) (d : SReg) (b cc : Operand) (k : Nat) : List (Nat × Nat) :=
  let shape := (ssrc s c g b k).toNat % 2 ^ 32
  (List.range (shapeRows shape)).map fun i =>
    ((rowAddr (g.sreg k d.val) (ssrc s c g cc k) i).toNat, shapeBytes shape)

/-- CPYO (R202). -/
def execCpyo (gd : Guard) (d : SReg) (h : Handle) (b cc : Operand) :=
  copyOp gd [.sreg d.val, .sca b, .sca cc]
    (fun s c g eff =>
      let shape := fun k => (ssrc s c g b k).toNat % 2 ^ 32
      (checkDead c g h.val eff).andThen fun _ =>
      (checkValue c eff shape (fun k => shapeOk (shape k)) 1).andThen fun _ =>
      (checkCopyAlign c eff (fun k => g.sreg k d.val) (ssrc s c g cc)).andThen fun _ =>
        checkCopyTemplate s c g eff (outRanges s c g d b cc))
    fun s c g k =>
      let shape := (ssrc s c g b k).toNat % 2 ^ 32
      match s.tileOf g (g.handle h.val) with
      | none => s
      | some t =>
        let x := Copy.start c g k 0x43 .fromTile
        (s.updGang c.gid fun g => g.setVisible [k]).issueCopy c.gid k
          { x with dst := (g.sreg k d.val).toNat, stride := (ssrc s c g cc k).toInt, rows := shapeRows shape,
                   rowBytes := shapeBytes shape, srcRow := shapeRow0 shape, srcOfs := shapeOfs shape,
                   bytes := shapeRows shape * shapeBytes shape, srcTile := some (t.bspace, t.slot, t.record) }

/-- CPYG (R202): 2^40 bytes or more raise BOUNDS. -/
def execCpyg (gd : Guard) (d : SReg) (a b : Operand) :=
  copyOp gd [.sreg d.val, .sca a, .sca b]
    (fun s c g eff =>
      let n := fun k => (ssrc s c g b k).toNat
      (checkValue c eff n (fun k => decide (n k < 2 ^ 40)) 6).andThen fun _ =>
        checkCopyTemplate s c g eff fun k => [((g.sreg k d.val).toNat, n k)])
    fun s c g k =>
      let n := (ssrc s c g b k).toNat
      let x := Copy.start c g k 0x44 .global
      (s.updGang c.gid fun g => g.setVisible [k]).issueCopy c.gid k
        { x with src := (ssrc s c g a k).toNat, dst := (g.sreg k d.val).toNat, bytes := n, rows := 1, rowBytes := n }

/-- CPYL (R202). DEDUCED, log 50. -/
def execCpyl (gd : Guard) (h : Handle) (hs : Handle) (b cc : Operand) :=
  copyOp gd [.sca b, .sca cc]
    (fun s c g eff =>
      let shape := fun k => (ssrc s c g b k).toNat % 2 ^ 32
      let place := fun k => (ssrc s c g cc k).toNat % 2 ^ 32
      (checkDead c g hs.val eff).andThen fun _ =>
      (checkCopyDest s c g h.val none false eff).andThen fun _ =>
      (checkValue c eff shape (fun k => shapeOk (shape k)) 1).andThen fun _ =>
      (checkValue c eff place (fun k => placeOk (shape k) (place k)) 1).andThen fun _ =>
      (checkQuota s c g (.cpyl gd h hs b cc) h.val eff).andThen fun _ => holdIf (s.publishPending g h.val) .other)
    fun s c g k =>
      let shape := (ssrc s c g b k).toNat % 2 ^ 32
      let place := (ssrc s c g cc k).toNat % 2 ^ 32
      match s.tileOf g (g.handle hs.val) with
      | none => s
      | some t =>
        let x := Copy.start c g k 0x45 .tileTile
        s.issueToTile c.gid g k h.val
          { x with rows := shapeRows shape, rowBytes := shapeBytes shape, srcRow := shapeRow0 shape,
                   srcOfs := shapeOfs shape, dstRow := shapeRow0 place, dstOfs := shapeOfs place,
                   bytes := shapeRows shape * shapeBytes shape, srcTile := some (t.bspace, t.slot, t.record) }

/-- CCHAIN (R209). -/
def execCchain (gd : Guard) (s : State) : Host.Outcome State Fault Refusal :=
  runOp (fun _ _ _ => .go)
    (fun s c g => (g.effGroups gd).foldl (fun s k => s.updGang c.gid fun g => g.updGroup k fun x =>
      if x.lastCopy.any s.copyUnfinished then { x with chain := true } else x) s) s

/-- CBIND (R210, R212). -/
def execCbind (gd : Guard) (a : BarOff) :=
  barrierOp gd a.b.val [] (fun _ _ _ _ => .go)
    fun s c _ eff => eff.foldl (fun s k => s.updGang c.gid fun g => g.updGroup k fun x =>
      { x with bind := if a.unbind then none else some a.b.val }) s

/-! ## Batches -/

/-- Every copy of a batch is complete. DEDUCED, log 51. -/
def State.batchComplete (s : State) (b : Batch) : Bool := !b.copies.any s.copyUnfinished

/-- Schedules the retirement of a group's oldest sealed batch once it is complete: four cycles later (R207). -/
def State.checkBatch (s : State) (gid k : Nat) : State :=
  match (s.gang gid).bind fun g => g.group k with
  | none => s
  | some x =>
    match x.sealed with
    | [] => s
    | b :: rest =>
      if b.retireAt.isNone && !b.releasing && s.batchComplete b then
        let t := s.time + 4
        (s.updGang gid fun g => g.updGroup k fun x =>
          { x with sealed := { b with retireAt := some t } :: rest }).at t (.batchRetirement gid k)
      else s

/-- Looks at the batches of every group of a gang. -/
def State.checkBatches (s : State) (gid : Nat) : State :=
  (List.range 4).foldl (fun s k => s.checkBatch gid k) s

/-- A copy has completed: publications and batches that waited for it go on (R207, R255). One issued again after a restore may
be of a batch that has retired (R342). -/
def State.finishCopy (s : State) (id : Nat) : State :=
  match s.copies.find id with
  | none => s
  | some x =>
    let batched := ((s.gang x.gid).bind fun g => g.group x.group).any fun y =>
      y.openBatch.contains id || y.sealed.any fun b => b.copies.contains id
    let s := { s with copies := s.copies.put id { x with stage := if batched || x.hsn.isSome then 4 else 7, data := [] } }
    let s := match x.record with | some r => s.fixPublications x.team r | none => s
    (s.sweep x.team).checkBatch x.gid x.group

/-- Retires a group's oldest sealed batch (R207): its auto-publish copies publish eight cycles later; the tile copies left in a
shadow are kept for a save until that is published (R338), the others are done with. -/
def State.retireBatch (s : State) (gid k : Nat) : State :=
  match (s.gang gid).bind fun g => (g.group k).map fun x => (g, x) with
  | none => s
  | some (g, x) =>
    match x.sealed with
    | [] => s
    | b :: rest =>
      let s := s.updGang gid fun g => g.updGroup k fun x => { x with sealed := rest }
      let t := s.time + 8
      let s := b.copies.foldl (fun s id =>
        match s.copies.find id with
        | none => s
        | some y =>
          match y.publish, y.record with
          | true, some r =>
            let p : Publish := { id := id, gid := gid, released := true, waits := [], pubs := [], since := s.time, due := some t }
            let s := { s with copies := s.copies.put id { y with stage := 5, due := t, batchNo := b.number } }
            (s.updRecord g.team r fun r => { r with publishing := r.publishing ++ [p] }).at t (.autoPublish id)
          | false, some _ => { s with copies := s.copies.put id { y with stage := 7 } }
          | _, none => { s with copies := s.copies.del id }) s
      (s.sweep g.team).checkBatch gid k

/-- The scope at which a batch's retirement releases (R207). -/
def State.batchScope (s : State) (b : Batch) : Scope :=
  if b.copies.any fun id => match s.copies.find id with
    | some x => x.kind == .fromTile || x.kind == .global
    | none => false
  then .package else .team

/-- The auto-publish copies of a gang that are published only after the retirement of a batch sealed no earlier than `order`,
or not sealed yet. -/
def State.publishedLater (s : State) (g : Gang) (order id : Nat) : Bool :=
  (s.copies.find id).any (fun x => x.stage != 5) &&
    !g.groups.vals.any fun x => x.sealed.any fun b => decide (b.order < order) && b.copies.contains id

/-- The publications that a batch's retirement awaits, as a release: those asked for so far, but for what can be published only
after it (R289). DEDUCED, log 112. -/
def State.pubsToRetire (s : State) (gid : Nat) (g : Gang) (b : Batch) : List Nat :=
  let later := s.publishedLater g b.order
  let asked : List Publish := match s.team g.team with
    | some t => t.records.vals.flatMap fun (r : TileRecord) => r.publishing.filter fun p => p.gid == gid
    | none => []
  g.pubs.filter fun i => !later i &&
    !asked.any fun p => p.id == i && p.pubs.any fun j => later j && g.pubs.contains j

/-- A group's oldest sealed batch is to retire now (R207, R289). -/
def State.retireDue (s : State) (gid : Nat) (g : Gang) (x : Group) : Bool :=
  match x.sealed with
  | [] => false
  | b :: _ => b.retireAt.any (fun t => decide (t ≤ s.time)) &&
      (s.acts g (s.batchScope b) || (s.pubsToRetire gid g b).isEmpty)

/-- BATCH_RETIREMENT (R207): the release of the retirement is performed first where its scope acts (R281). -/
def execBatchRetirement (gid group : Nat) (s : State) : Host.Outcome State Fault Refusal :=
  match (s.gang gid).bind fun g => (g.group group).map fun x => (g, x) with
  | none => .next s
  | some (g, x) =>
    match x.sealed with
    | [] => .next s
    | b :: rest =>
      if !s.retireDue gid g x then .next s
      else if s.acts g (s.batchScope b) then
        let pubs := s.pubsToRetire gid g b
        let s := s.updGang gid fun g => g.updGroup group fun x =>
          { x with sealed := { b with retireAt := none, releasing := true } :: rest }
        let (w, s) := s.fresh
        let s := { s with afters := s.afters.put w (.retire gid group b.number) }
        .next (s.joinSync gid (s.bundles * 8) true false [w] pubs)
      else .next ((s.orderLog gid (s.bundles * 8) false).retireBatch gid group)

/-- CSEALs for a group in the bundle's slots before the issuing one. -/
def sealsBefore (c : Cur) (g : Gang) (k : Nat) : Nat :=
  c.ops.countP fun (sl, i) => decide (sl.order < c.slot.order) &&
    match i with
    | .cseal gd _ => (g.effGroups gd).contains k
    | _ => false

/-- CSEAL (R206): the number lands after one beat. -/
def execCseal (gd : Guard) (d : SReg) (s : State) : Host.Outcome State Fault Refusal :=
  runOp
    (fun _ c g => holdIf ((g.effGroups gd).any fun k => match g.group k with
      | some x => decide (16 ≤ x.sealed.length + sealsBefore c g k) | none => false) .other)
    (fun s c g =>
      let eff := g.effGroups gd
      if eff.isEmpty then s
      else
        let s := s.updGang c.gid fun g => eff.foldl (fun g k => g.sealGroup k) g
        let live := (s.gang c.gid).getD g
        s.land c 1 (.s d.val) (eff.map fun k =>
          (k, match live.group k with | some x => x.batch.toNat | none => 0)) [] true) s

/-- Batches of a group that CWAIT counts: sealed and not retired, or retired with a publication to be made (R208,
R229). -/
def State.batchesOut (s : State) (gid k : Nat) (x : Group) : Nat :=
  let pending := (s.copies.vals.filter fun y => y.gid == gid && y.group == k && y.stage == 5).map fun y => y.batchNo
  x.sealed.length + pending.eraseDups.length

/-- CWAIT (R208). -/
def execCwait (gd : Guard) (a : ImmSlot) (s : State) : Host.Outcome State Fault Refusal :=
  runOp
    (fun s c g => holdIf ((g.effGroups gd).any fun k => match g.group k with
      | some x => decide ((c.imm a.val).toNat < s.batchesOut c.gid k x) | none => false) .other)
    (fun s _ _ => s) s

/-! ## Moving the bytes -/

/-- The 64 KiB granules of `n` bytes from an address, each by the first byte reached and how many of its bytes are. -/
def granules (a n : Nat) : List (Nat × Nat) :=
  if n = 0 then []
  else (List.range ((a % 2 ^ 16 + n + 2 ^ 16 - 1) / 2 ^ 16)).map fun i =>
    let from_ := Nat.max a ((a / 2 ^ 16 + i) * 2 ^ 16)
    (from_ % 2 ^ 64, Nat.min (a + n) ((a / 2 ^ 16 + i + 1) * 2 ^ 16) - from_)

/-- Row addresses of a copy on its global side. -/
def Copy.rowAt (x : Copy) (base i : Nat) : Nat := (rowAddr (BitVec.ofNat 64 base) (BitVec.ofInt 64 x.stride) i).toNat

/-- What a copy has to translate, in order: runs of bytes within 64 KiB, by address and length. -/
def Copy.touches (x : Copy) : List (Nat × Nat × Need) :=
  let rows := fun (base : Nat) (n : Need) =>
    (List.range x.rows).flatMap fun i => (granules (x.rowAt base i) x.rowBytes).map fun a => (a.1, a.2, n)
  match x.kind with
  | .toTile => rows x.src .read
  | .fromTile => rows x.dst .write
  | .global => rows x.src .read ++ rows x.dst .write
  | .tileTile => []

/-- The memory key of an address of a copy, by the pages translated. -/
def Copy.key (x : Copy) (va : Nat) : Nat :=
  match x.pages.find? fun e => decide (e.base ≤ va ∧ va < e.base + e.size) with
  | some e => e.key va
  | none => 0

/-- Translates what a copy touches, in order; a miss waits, and a byte that may not be reached ends it (R205, R381 to R383). -/
def State.translateCopy (s : State) (id : Nat) (x : Copy) : List (Nat × Nat × Need) → (Copy × Option Nat × Bool) × State
  | [] => ((x, none, true), s)
  | (a, len, n) :: rest =>
    match s.translate x.core x.context a n (.copy id) with
    | (.ok e, s) =>
      match s.firstBad e a len n with
      | some b => ((x, some b, false), s)
      | none =>
        State.translateCopy s id
          { x with pages := if x.pages.contains e then x.pages else e :: x.pages, checked := x.checked + 1 } rest
    | (.wait, s) => ((x, none, false), s)
    | (.bad, s) => ((x, some a, false), s)

/-- The bytes a copy reads, row after row. -/
def State.copyData (s : State) (x : Copy) : List Byte :=
  match x.srcTile with
  | some (b, n, _) =>
    (List.range x.rows).flatMap fun i =>
      s.tiles.getRun (tileKey x.core b n (256 * (x.srcRow + i) + x.srcOfs)) x.rowBytes
  | none =>
    (List.range x.rows).flatMap fun i =>
      (List.range x.rowBytes).map fun j => s.byte (x.key ((x.rowAt x.src i + j) % 2 ^ 64))

/-- The lines of the global side of a copy. -/
def Copy.lines (x : Copy) (base : Nat) : List Nat :=
  ((List.range x.rows).flatMap fun i =>
    (List.range x.rowBytes).map fun j => lineOf (x.key ((x.rowAt base i + j) % 2 ^ 64))).eraseDups

/-- The largest number of bytes of a CPYG dealt to one of the die's sixteen engines in pieces of 4 KiB (R211). -/
def engineBytes (n : Nat) : Nat :=
  let p := (n + 4095) / 4096
  ((List.range 16).map fun e =>
    let count := (p + 15 - e) / 16
    if 0 < p ∧ (p - 1) % 16 = e then 4096 * count - (4096 * p - n) else 4096 * count).foldl Nat.max 0

/-- The cycles of a copy's transfer (R211). -/
def Copy.transfer (x : Copy) : Nat :=
  match x.kind with
  | .global => (engineBytes x.bytes + 63) / 64
  | _ => (x.bytes + 127) / 128

/-- The time a copy takes from its start until its last byte lands (R41, R211). -/
def State.copyTime (s : State) (x : Copy) : Nat :=
  let die := dieOf x.core
  let source := match x.kind with
    | .toTile | .global => if x.bytes = 0 then 0 else s.pathTo die (lineOf (x.key x.src))
    | _ => 0
  let dest := match x.kind with
    | .fromTile | .global => if x.bytes = 0 then 0 else s.writePathTo die (lineOf (x.key x.dst))
    | _ => 0
  source + x.transfer + (if x.fresh then 16 else 0) + (if x.cow then 16 else 0) +
    (if 1 < x.shadows.length then 16 else 0) + dest

/-- Tile writes and matrix operations issued before a copy that its source tile awaits (R202, R244). -/
def State.sourceBusy (s : State) (x : Copy) : Bool :=
  match x.srcTile with
  | none => false
  | some (b, n, rec) =>
    let t : TileAt := { bspace := b, slot := n, record := rec }
    ((s.opsOn x.core t).any fun o => sameTile t o.dst && decide (o.seq < x.seq)) ||
    decide (0 < s.tileLanding x.core x.seq t) ||
    (match rec with
     | some r => s.bridges.vals.any fun j => j.record == r && j.core == x.core
     | none => false)

/-- A write or fill over the pair bridge is still to come to a shadow that a copy writes (R198, R203, R247, R248). -/
def State.shadowAwaits (s : State) (x : Copy) : List BridgeJob :=
  s.bridges.vals.filter fun j => j.bspace == x.bspace && x.shadows.contains (j.core, j.slot)

/-- The landing of the last tile write issued before a copy to the tile that it overwrites, that over the pair bridge included
(R198, R203). -/
def State.destLanding (s : State) (x : Copy) : Nat :=
  match x.record with
  | some id => (s.shadowAwaits x).foldl (fun t j => Nat.max t j.due)
      (s.tileLanding x.core x.seq { bspace := x.bspace, slot := 0, record := some id })
  | none => 0

/-- A copy waits for a translation. -/
def State.copyWalks (s : State) (id : Nat) : Bool :=
  (s.walks.vals.any fun w => w.clients.contains (.copy id)) || s.faults.vals.any fun f => f.clients.contains (.copy id)

/-- A copy that has not started may start now (R202, R205, R209). -/
def State.copyCanStart (s : State) (id : Nat) (x : Copy) : Bool :=
  x.stage == 0 && !x.after.any s.copyUnfinished && !s.sourceBusy x && !s.copyWalks id

/-- PAGE for a copy, with its batch (R205, R329); the copy of a ring command ends at the address instead (R375).
DEDUCED, log 51. -/
def State.copyFault (s : State) (id : Nat) (x : Copy) (a : Nat) : State :=
  if x.hsn.isSome then { s with copies := s.copies.put id { x with stage := 6, due := a, data := [] } } else
  let s := s.updGang x.gid fun g =>
    match g.group x.group with
    | none => g
    | some y =>
      let batch := match y.sealed.find? fun b => b.copies.contains id with
        | some b => b.number
        | none => (y.batch + 1).toNat
      let t : Trap := { code := trapPAGE, slot := x.slot.order, gmask := groupMask [x.group], detail0 := a,
                        detail1 := 0xFF + batch * 2 ^ 16 }
      { g with page := g.page ++ [(x.pos, t)] }
  s.finishCopy id

/-- Starts a copy: its pages are translated, and its source is read as it then stands (R200, R279). -/
def State.startCopy (s : State) (id : Nat) (x : Copy) : State :=
  match s.translateCopy id x (x.touches.drop x.checked) with
  | ((x, some a, _), s) => ({ s with copies := s.copies.put id x } : State).copyFault id x a
  | ((x, none, false), s) => { s with copies := s.copies.put id x }
  | ((x, none, true), s) =>
    let due := s.time + s.copyTime x
    let x := { x with stage := 1, due := due, data := s.copyData x }
    let s := match x.kind with
      | .toTile | .global => (x.lines x.src).foldl State.keepInL2 s
      | _ => s
    ({ s with copies := s.copies.put id x } : State).at due (.copyCompletion id)

/-- What a copy writes: row, byte, value. -/
def Copy.cells (x : Copy) : List (Nat × Nat × Byte) :=
  if x.rowBytes = 0 then []
  else ((List.range x.data.length).zip x.data).map fun (n, b) => (n / x.rowBytes, n % x.rowBytes, b)

/-- The tile offset of a byte of a copy's destination rectangle. -/
def Copy.tileOfs (x : Copy) (i j : Nat) : Nat := 256 * (x.dstRow + i) + x.dstOfs + j

/-- A later copy of the same group has written a byte of a slot already, which remains (R204). DEDUCED, log 93. -/
def State.coveredTile (s : State) (x : Copy) (core slot off : Nat) : Bool :=
  s.copies.vals.any fun y => y.gid == x.gid && y.group == x.group && decide (x.seq < y.seq) && y.landed &&
    y.shadows.contains (core, slot) && y.bspace == x.bspace &&
    decide (y.dstRow ≤ off / 256 ∧ off / 256 < y.dstRow + y.rows ∧ y.dstOfs ≤ off % 256 ∧
            off % 256 < y.dstOfs + y.rowBytes)

/-- A later copy of the same group has written a byte of memory already, which remains (R204). DEDUCED, log 93. -/
def State.coveredGlobal (s : State) (x : Copy) (va : Nat) : Bool :=
  x.hsn.isNone && s.copies.vals.any fun y => y.hsn.isNone && y.gid == x.gid && y.group == x.group &&
    decide (x.seq < y.seq) && y.landed && (y.kind == .fromTile || y.kind == .global) &&
    (List.range y.rows).any fun i => decide (y.rowAt y.dst i ≤ va ∧ va < y.rowAt y.dst i + y.rowBytes)

/-- The last bytes of a copy into a tile have landed in every shadow, and count at its barrier (R210): once each, whether
the record has one shadow or one on each core of a pair. DEDUCED, log 93, 94. -/
def State.landTile (s : State) (id : Nat) (x : Copy) : State :=
  let s := x.shadows.foldl (fun s (core, slot) =>
    let cells := x.cells.filterMap fun (i, j, b) =>
      let off := x.tileOfs i j
      if s.coveredTile x core slot off then none else some (tileKey core x.bspace slot off, b)
    { s with tiles := s.tiles.setAll cells }) s
  let n := match x.bind with | some b => (s.bar x.team b).counts x.data.length s.time | none => 0
  let s := { s with copies := s.copies.put id { x with landed := true, counted := n } }
  let s := match x.bind with
    | some b => s.updBar x.team b fun y => y.land x.data.length s.time
    | none => s
  s.finishCopy id

/-- The last bytes of a copy to memory are written at their home slices; it completes four cycles after the
largest completion time they received (R284). DEDUCED, log 93. -/
def State.landGlobal (s : State) (id : Nat) (x : Copy) : State :=
  let cells := x.cells.filterMap fun (i, j, b) =>
    let va := (x.rowAt x.dst i + j) % 2 ^ 64
    if s.coveredGlobal x va then none else some (x.key va, b)
  let lines := x.lines x.dst
  let gct := lines.foldl (fun t l => Nat.max t (s.anyExpiry l)) s.time
  let s := lines.foldl State.keepInL2 (s.writeCells cells)
  let s := match x.bind with
    | some b => s.updBar x.team b fun y => y.land x.data.length s.time
    | none => s
  let t := gct + Config.horizonMargin
  ({ s with copies := s.copies.put id { x with stage := 3, due := t, gct := gct, landed := true } } : State).at t (.copyCompletion id)

/-- COPY_COMPLETION (R207, R211, R284): carries a copy from its start to its last byte and its completion.
DESIGN CHOICE, log 13. -/
def execCopyCompletion (copyId : Nat) (s : State) : Host.Outcome State Fault Refusal :=
  match s.copies.find copyId with
  | none => .next s
  | some x =>
    if s.copyCanStart copyId x then .next (s.startCopy copyId x)
    else if x.stage = 1 ∧ x.due ≤ s.time then
      match x.kind with
      | .toTile | .tileTile =>
        let t := s.destLanding x
        if s.time < t || !(s.shadowAwaits x).isEmpty then .next (s.at (Nat.max t s.time) (.copyCompletion copyId))
        else .next (s.landTile copyId x)
      | .fromTile | .global => .next (s.landGlobal copyId x)
    else if x.stage = 3 ∧ x.due ≤ s.time then .next (s.finishCopy copyId)
    else .next s

end Sys2Proof.Machine
end

