-- ==== Sys2Proof/Machine/Landing.lean ====
section
/-! DEFINITION. Results: fixed-latency results landing (R20, R21, R24, R27, R182, R198), long-latency results
written (R25, R71), the divider and the register-index port (R130, R179 to R183). -/

namespace Sys2Proof.Machine

/-! ## What a landing writes -/

/-- Of two slots of one bundle, the one numbered `q` stands later in field order than `seq` (R182). -/
def laterSlot (seq q : Nat) : Bool := q / 8 == seq / 8 && decide (seq < q)

/-- Whether a result with number `seq` is written where a write with number `q` is awaited, and whether the place
stays empty: one issued after the write awaited is written, and the place stays empty for that (R27, R182). `port` names
the index jobs that land in this beat. -/
def landing (seq : Nat) (port : List Nat) : Option Nat → Bool × Bool
  | none => (true, false)
  | some q =>
    if q = seq then (true, false)
    else if decide (q < seq) || laterSlot seq q || port.contains q then (true, true)
    else (false, true)

/-- Writes lanes of a vector register as a landing does; answers the lanes written. -/
def Gang.landV (g : Gang) (seq : Nat) (port : List Nat) (r : Nat) (vals : List (Nat × Nat)) : Gang × Bool :=
  let (write, stays) := landing seq port (g.vAwait.find r)
  if write then
    let g := vals.foldl (fun g p => g.setV r p.1 (BitVec.ofNat 32 p.2)) g
    (if stays then g else { g with vAwait := g.vAwait.del r }, true)
  else (g, false)

/-- Writes a scalar of a group as a landing does. -/
def Group.landS (x : Group) (seq r v : Nat) : Group × Bool :=
  let (write, stays) := landing seq [] (x.sAwait.find r)
  if write then
    ({ x with s := x.s.set r (BitVec.ofNat 64 v), sAwait := if stays then x.sAwait else x.sAwait.del r }, true)
  else (x, false)

/-- Writes a condition of a group as a landing does. -/
def Group.landC (x : Group) (seq k v : Nat) : Group × Bool :=
  let (write, stays) := landing seq [] (x.cAwait.find k)
  if write then
    ({ x with c := putBit x.c k (v % 2 == 1), cAwait := if stays then x.cAwait else x.cAwait.del k }, true)
  else (x, false)

/-- A place a result lands on, as one number: a kind and an index (R21). -/
def placeKey (kind index : Nat) : Nat := kind * 2 ^ 20 + index

/-- The number of a unit's latch. -/
def latchIndex : Slot → Nat
  | .s => 0 | .v0 => 1 | .v1 => 2 | .c0 => 3 | .c1 => 4 | .m => 5

/-- Updates the last-result latch of a unit with a vector result (R24). -/
def Gang.latchV (g : Gang) (u : Slot) (vals : List (Nat × Nat)) : Gang :=
  let put := fun (c : Cells 32) => vals.foldl (fun c p => c.set p.1 (BitVec.ofNat 32 p.2)) c
  let tags := BitVec.ofNat 4 (groupMask (g.groupsOf (vals.map Prod.fst)))
  match u with
  | .v0 => { g with lV0 := put g.lV0 }
  | .v1 => { g with lV1 := put g.lV1 }
  | .c0 => { g with lC0 := put g.lC0, lC0tag := g.lC0tag &&& ~~~tags }
  | .c1 => { g with lC1 := put g.lC1, lC1tag := g.lC1tag &&& ~~~tags }
  | .s | .m => g

/-- Updates the last-result latch of a unit with a scalar result (R24, R99). -/
def Gang.latchS (g : Gang) (u : Slot) (vals : List (Nat × Nat)) : Gang :=
  let put := fun (c : Cells 64) => vals.foldl (fun c p => c.set p.1 (BitVec.ofNat 64 p.2)) c
  let lanes := fun (c : Cells 32) =>
    vals.foldl (fun c p => (g.lanes p.1).foldl (fun c l => c.set l (BitVec.ofNat 32 p.2)) c) c
  let tags := BitVec.ofNat 4 (groupMask (vals.map Prod.fst))
  match u with
  | .s => { g with lS := put g.lS }
  | .c0 => { g with lC0 := lanes g.lC0, lC0s := put g.lC0s, lC0tag := g.lC0tag ||| tags }
  | .c1 => { g with lC1 := lanes g.lC1, lC1s := put g.lC1s, lC1tag := g.lC1tag ||| tags }
  | .v0 | .v1 | .m => g

/-- Sets COLLIDE in groups (R21, R53). -/
def Gang.setCollide (g : Gang) (groups : List Nat) : Gang :=
  groups.foldl (fun g k => g.updGroup k fun x => { x with collide := true }) g

/-- A register-index write that a later one has cancelled: the register awaits neither it nor a later slot of its own
bundle (R27, R182). DEDUCED, log 47. -/
def Flight.cancelledIn (f : Flight) (g : Gang) (r : Nat) : Bool :=
  f.indexed && match g.vAwait.find r with
    | some q => q != f.seq && !laterSlot f.seq q
    | none => true

/-- Lands one result; answers the places it wrote, each with its group position (R21), a latch among them. A field of CVTN
(R172) goes into the word that an earlier-issued result of its beat has left. DEDUCED, log 46, 124.
The latch takes the value of a result that R27 discards as well: R72 states it. -/
def Gang.landOne (g : Gang) (port : List Nat) (f : Flight) : Gang × List (Nat × Nat) :=
  let lanesOf := fun (r : Nat) => f.vals.map fun p => (placeKey 0 (r * 64 + p.1), g.grp p.1)
  let latchKeys := if f.latch then f.vals.map fun p => (placeKey 4 (latchIndex f.unit * 64 + p.1), g.grp p.1) else []
  let latchKeysS := if f.latch then f.vals.map fun p => (placeKey 4 (latchIndex f.unit * 64 + p.1), p.1) else []
  match f.dest with
  | .v r =>
    let (g', ok) := if f.cancelledIn g r then (g, false) else g.landV f.seq port r f.vals
    (if f.latch then g'.latchV f.unit f.vals else g', (if ok then lanesOf r else []) ++ latchKeys)
  | .pair r =>
    let low := f.vals.map fun p => (p.1, p.2 % 2 ^ 32)
    let (g1, ok1) := g.landV f.seq port r low
    let (g2, ok2) := g1.landV f.seq port (r + 1) (f.vals.map fun p => (p.1, p.2 / 2 ^ 32))
    (if f.latch then g2.latchV f.unit low else g2,
      (if ok1 then lanesOf r else []) ++ (if ok2 then lanesOf (r + 1) else []) ++ latchKeys)
  | .field r lo width =>
    let merged := f.vals.map fun p =>
      let old := (g.vreg r p.1).toNat
      (p.1, old - bitsOf old (lo + width - 1) lo * 2 ^ lo + p.2 % 2 ^ width * 2 ^ lo)
    let (g', ok) := g.landV f.seq port r merged
    (if f.latch then g'.latchV f.unit merged else g', (if ok then lanesOf r else []) ++ latchKeys)
  | .s r =>
    let (g', ok) := f.vals.foldl (fun (a : Gang × List Nat) p =>
      match a.1.group p.1 with
      | none => a
      | some x =>
        let (x', w) := x.landS f.seq r p.2
        (a.1.updGroup p.1 fun _ => x', if w then a.2 ++ [p.1] else a.2)) (g, [])
    (if f.latch then g'.latchS f.unit f.vals else g', (ok.map fun k => (placeKey 2 (r * 4 + k), k)) ++ latchKeysS)
  | .c n =>
    let (g', ok) := f.vals.foldl (fun (a : Gang × List Nat) p =>
      match a.1.group p.1 with
      | none => a
      | some x =>
        let (x', w) := x.landC f.seq n p.2
        (a.1.updGroup p.1 fun _ => x', if w then a.2 ++ [p.1] else a.2)) (g, [])
    (g', ok.map fun k => (placeKey 3 (n * 4 + k), k))
  | .p n =>
    ({ g with p := f.vals.foldl (fun c v => c.set n (putBit (c.get n) v.1 (v.2 % 2 == 1))) g.p },
      f.vals.map fun v => (placeKey 1 (n * 64 + v.1), g.grp v.1))
  | .special _ | .tile _ | .tileLoad _ _ => (g, [])

/-- Sets the flags that a result raises, in the beat in which it lands (R51, R156). A result that R27 discards raises its
flags all the same: the spec names no exception. DEDUCED, log 45. -/
def Gang.landFlags (g : Gang) (f : Flight) : Gang :=
  f.flags.foldl (fun g p => g.updGroup p.1 fun x => { x with fpflags := x.fpflags ||| p.2 }) g

/-- WRSR lands (R135). DEDUCED, log 45. -/
def Gang.landSpecial (g : Gang) (f : Flight) : Gang :=
  match f.dest with
  | .special n => f.vals.foldl (fun g p => g.updGroup p.1 fun x => x.writeSpecial n (BitVec.ofNat 64 p.2)) g
  | _ => g

/-- Lands results in the order of issue; where two reach one place, the later remains and COLLIDE is set in the
group that owns it (R21). DEDUCED, log 45, 46. -/
def Gang.landAll (g : Gang) (port : List Nat) : List Flight → List Nat → Gang
  | [], _ => g
  | f :: fs, seen =>
    let (g, places) := g.landOne port f
    let hit := (places.filter fun p => seen.contains p.1).map Prod.snd
    Gang.landAll (g.setCollide (hit ++ maskGroups f.collide)) port fs
      (places.map Prod.fst ++ seen)

/-! ## A beat of landings -/

/-- Tile writes that land, in the order of issue: gang, lane, address, value. -/
def State.tileWrites (s : State) (core : Nat) : List (Nat × Nat × Nat × Nat) :=
  let fs := s.gangs.flatMap fun p =>
    if p.2.core = core then (p.2.flights.filter fun f => decide (f.land ≤ s.beat)).map fun f => (p.1, f) else []
  (sortBy (fun x => x.2.seq) fs).flatMap fun (gid, f) =>
    match f.dest with
    | .tile ws => (ws.zip f.vals).map fun x => (gid, x.1.1, x.1.2, x.2.2)
    | _ => []

/-- Lands tile writes (R198): where two reach one word the later remains, and COLLIDE is set in the group whose
write was discarded (R21). -/
def State.landTiles (s : State) : List (Nat × Nat × Nat × Nat) → State
  | [] => s
  | (gid, lane, a, v) :: rest =>
    if rest.any fun x => x.2.2.1 == a then
      State.landTiles (s.updGang gid fun g => g.setCollide [g.grp lane]) rest
    else State.landTiles { s with tiles := s.tiles.setRun a (bytesLE 4 v) } rest

/-- A tile load reads its words (R198). -/
def State.readTile (s : State) (f : Flight) : Flight :=
  match f.dest with
  | .tileLoad r ws =>
    { f with dest := .v r, vals := ws.map fun w => (w.1, natOfBytes (s.tiles.getRun w.2 4)) }
  | _ => f

/-- The results of a gang due by a beat, in the order of issue. -/
def Gang.dueBy (g : Gang) (beat : Nat) : List Flight := sortBy Flight.seq (g.flights.filter fun f => decide (f.land ≤ beat))

/-- Lands what is due of one gang, but for its special registers and tile writes. -/
def State.landGang (s : State) (g : Gang) : Gang :=
  let due := (g.dueBy s.beat).map s.readTile
  let g := { g with flights := g.flights.filter fun f => decide (s.beat < f.land) }
  let g := due.foldl Gang.landFlags g
  g.landAll ((due.filter fun f => f.indexed).map Flight.seq) due []

/-- A result that holds a tile while it is in flight (R246). -/
def Flight.binds (f : Flight) : Bool :=
  match f.dest with
  | .tile _ | .tileLoad _ _ => true
  | _ => false

/-- The teams whose tile accesses land on a core in this beat: what only those still held returns (R246, R251). -/
def State.tileTeams (s : State) (core : Nat) : List Nat :=
  (s.gangs.vals.filterMap fun g =>
    if g.core = core ∧ ((g.dueBy s.beat).any Flight.binds) = true then some g.team else none).eraseDups

/-- The results of a core's gangs due in this beat land: special registers first (R135), then tile writes, then the
rest (R198). DEDUCED, log 45. -/
def State.landBeat (s : State) (core : Nat) : State :=
  let teams := s.tileTeams core
  let on := fun (s : State) (f : Gang → Gang) =>
    { s with gangs := s.gangs.mapAll fun g => if g.core = core then f g else g }
  let s := on s fun g => (g.dueBy s.beat).foldl Gang.landSpecial g
  let s := s.landTiles (s.tileWrites core)
  let s := on s s.landGang
  teams.foldl State.sweep s

/-- RESULT_LANDING (R20, R21). -/
def execResultLanding (core : Nat) (s : State) : Host.Outcome State Fault Refusal := .next (s.landBeat core)

/-! ## Long-latency results -/

/-- The values a long write brings its gang: those an access loaded for a group that has ended are discarded
(R145). -/
def Long.kept (l : Long) (g : Gang) : List (Nat × Nat) :=
  if l.logged then l.vals.filter fun p => g.liveGroups.contains (if l.dest.byGroup then p.1 else g.grp p.1) else l.vals

/-- Writes a long result where its destination still awaits it (R25, R27): groups and lanes without a value keep
what they had. -/
def Gang.fillLong (g : Gang) (l : Long) (beat : Nat) : Gang :=
  let vals := l.kept g
  let v := fun (g : Gang) (r : Nat) (vals : List (Nat × Nat)) =>
    if g.vAwait.find r = some l.seq then
      { (vals.foldl (fun g p => g.setV r p.1 (BitVec.ofNat 32 p.2)) g) with
        vAwait := g.vAwait.del r, vFilled := g.vFilled.put r beat }
    else g
  let groups := maskGroups l.groups
  match l.dest with
  | .v r => v g r vals
  | .pair r =>
    v (v g r (vals.map fun p => (p.1, p.2 % 2 ^ 32))) (r + 1) (vals.map fun p => (p.1, p.2 / 2 ^ 32))
  | .s r => groups.foldl (fun g k => g.updGroup k fun x =>
      if x.sAwait.find r = some l.seq then
        let w := match vals.find? fun p => p.1 == k with
          | some p => x.s.set r (BitVec.ofNat 64 p.2)
          | none => x.s
        { x with s := w, sAwait := x.sAwait.del r }
      else x) g
  | .c n => groups.foldl (fun g k => g.updGroup k fun x =>
      if x.cAwait.find n = some l.seq then
        let w := match vals.find? fun p => p.1 == k with
          | some p => putBit x.c n (p.2 % 2 == 1)
          | none => x.c
        { x with c := w, cAwait := x.cAwait.del n }
      else x) g
  | .none => g

/-- Writes a long result that has all its values. -/
def State.fillLong (s : State) (gid write : Nat) : State :=
  match (s.gang gid).bind fun g => (g.longs.find write).map fun l => (g, l) with
  | none => s
  | some (g, l) =>
    let s := s.putGang gid { (g.fillLong l s.beat) with longs := g.longs.del write }
    if l.acquire then s.beginSync gid l.seq false true [] else s

/-- LONG_WRITE_FILL (R25, R71): at its cycle the destination is written, and is full from the next. -/
def execLongWriteFill (gid write : Nat) (s : State) : Host.Outcome State Fault Refusal :=
  match (s.gang gid).bind fun g => g.longs.find write with
  | none => .next s
  | some l => if l.want = 0 ∧ l.due ≤ s.time then .next (s.fillLong gid write) else .next s

/-- DIVIDER_RESULT (R129, R130): the divisions due now are written. -/
def execDividerResult (core : Nat) (s : State) : Host.Outcome State Fault Refusal :=
  let jobs := (s.core core).divider
  let s := (jobs.filter fun j => decide (j.due ≤ s.time)).foldl (fun s j => s.fillLong j.gid j.long) s
  .next (s.updCore core fun c => { c with divider := c.divider.filter fun j => decide (s.time < j.due) })

/-! ## The index port -/

/-- What the port finds at the beat of a job's next bank: what it delivers, or nothing while the job is held (R180).
In the beat of its issue the job reads as its bundle found the registers. -/
def IndexJob.find (j : IndexJob) (g : Gang) (beat : Nat) : Option (List (Nat × Nat)) :=
  if !j.started && j.issued == beat then j.first else if j.held g then none else some (j.bankVals g)

/-- The job has been found held at its bank's beat, and is so still (R180, R183). -/
def IndexJob.heldNow (j : IndexJob) (g : Gang) : Bool := j.blocked && j.held g

/-- The results of a job that has read its banks, to land in the beat after next (R179, R180, R182). COLLIDE of the
same-bundle cases is set as they land. DEDUCED, log 109. -/
def IndexJob.flights (j : IndexJob) (land : Nat) : List Flight :=
  let f : Flight := { seq := j.seq, unit := .v0, land := land, dest := .v 0, vals := [], flags := [],
                      latch := false, collide := j.collide, indexed := true }
  match j.dest with
  | some d => [{ f with dest := .v d, vals := j.vals }]
  | none =>
    let regs := (List.range 64).filter fun r =>
      !j.skip.contains r && j.names.any fun p => p.2 == r && j.effective.getLsbD p.1
    -- a job whose every register another slot writes still sets COLLIDE
    if regs.isEmpty then [f]
    else regs.map fun r => { f with dest := .v r, vals := j.vals.filter fun v => j.names.contains (v.1, r) }

/-- One beat of the index port: the oldest job reads its next bank, or is held (R180). DEDUCED, log 69. -/
def State.indexBeat (s : State) (core : Nat) : State :=
  let c := s.core core
  if s.beat < c.indexAt then s
  else
    match c.index with
    | [] => s
    | j :: rest =>
      match s.gang j.gid with
      | none => s.putCore core { c with index := rest, indexAt := s.beat + 1 }
      | some g =>
        match j.banks with
        | [] => s.putCore core { c with index := rest, indexAt := s.beat + 1 }
        | _ :: bs =>
          match j.find g s.beat with
          | none =>
            s.putCore core { c with index := { j with started := true, blocked := true } :: rest, indexAt := s.beat + 1 }
          | some vals =>
            let j' := { j with started := true, blocked := false, banks := bs, vals := j.vals ++ vals }
            if bs.isEmpty then
              let fs := j'.flights (s.beat + 2)
              let s := s.putCore core { c with index := rest, indexAt := s.beat + 1 }
              (s.updGang j.gid fun g => { g with flights := g.flights ++ fs }).atOnce (4 * (s.beat + 2))
                (.resultLanding core)
            else s.putCore core { c with index := j' :: rest, indexAt := s.beat + 1 }

/-- INDEX_JOB_LAND (R180): a beat of the register-index port, at the end of which a finished job's writes are on
their way to land. -/
def execIndexJobLand (core : Nat) (s : State) : Host.Outcome State Fault Refusal :=
  -- registers are read as they stand after the landings of the beat (R180)
  let s := (s.landBeat core).indexBeat core
  let s := if (s.core core).index.isEmpty then s else s.atOnce (4 * (s.beat + 1)) (.indexJobLand core)
  .next s

end Sys2Proof.Machine
end

