-- ==== Sys2Proof/Machine/Fetch.lean ====
section
/-! DEFINITION. Fetch: the stream cache (R101 to R103), the decode table and its refills (R105 to R111), and the
look-ahead nullifier (R29). -/

namespace Sys2Proof.Machine

/-! ## Where a gang fetches from -/

/-- The dictionary address of a gang: its launch's, or the handler image's (R105, R331). -/
def State.dictBase (s : State) (g : Gang) : Nat :=
  match s.launch g.launch with
  | some l => if g.handler then (match l.handler with | some h => h.2.1 | none => 0) else l.dict
  | none => 0

/-- Whether a decode entry is of a launch, dictionary and index (R107). -/
def DecodeEntry.is (e : DecodeEntry) (launch dict index : Nat) : Bool :=
  e.launch == launch && e.dict == dict && e.index == index

/-- The widths of the immediates of an entry's references (R102). -/
def Decoded.widths : Decoded → List Nat
  | .refused _ w => w
  | .usable e => e.widths

/-- The table a gang decodes through: the handler's own, or the core's (R107). -/
def Core.table (c : Core) (handler : Bool) : List DecodeEntry := if handler then c.handlerTable else c.decode

def Core.setTable (c : Core) (handler : Bool) (t : List DecodeEntry) : Core :=
  if handler then { c with handlerTable := t } else { c with decode := t }

/-- Counts an event of the decode table (R356). -/
def Core.count (c : Core) (code : Nat) : Core :=
  ({ c with counts := c.counts.put code (c.counts.getD code 0 + 1) } : Core).tally code 1

/-! ## Positions -/

/-- A position moved on; positions are byte offsets modulo 2^64, so that a branch may go below the kernel stream address
(R102, R103). -/
def posAfter (pos n : Nat) : Nat := (pos + n) % 2 ^ 64

/-- The address of a gang's position (R102, R103). -/
def State.streamAt (s : State) (g : Gang) : Nat := (s.streamBase g + g.pos) % 2 ^ 64

/-! ## Walks and lines on behalf of fetch -/

/-- A trap that fetch finds (R103, R329). DEDUCED, log 28, 29. -/
def streamTrap (detail0 detail1 : Nat) (groups : Nat) : Trap :=
  { code := trapSTREAM, gmask := groups, detail0 := detail0, detail1 := detail1 }

def State.setFetch (s : State) (gid : Nat) (f : Fetch) : State := s.updGang gid fun g => { g with fetch := f }

/-- Asks for the stream line that holds an address, for a reference that ends at `next` (R103). DEDUCED, log 32. -/
def State.requestLine (s : State) (gid : Nat) (g : Gang) (va next : Nat) : State :=
  let c := s.core g.core
  match s.translate g.core g.context va .fetch (.fetch gid) with
  | (.bad, s) =>
    let code := match c.tlbFind g.context va with
      | some e => if e.exec then 4 else 2
      | none => 4
    s.setFetch gid (.trap (streamTrap va code g.activeMask) next)
  | (.wait, s) => s.setFetch gid (.walk next)
  | (.ok e, s) =>
    let s := s.setFetch gid .stream
    let line := va / Config.lineBytes
    if c.streamFills.vals.any fun f => f.context == g.context && f.line == line then s
    else
      let key := e.key (line * Config.lineBytes)
      let t := s.time + s.pathTo (dieOf g.core) (lineOf key)
      let (id, s) := s.fresh
      let fill : StreamFill := { context := g.context, line := line, key := key, due := t }
      (s.updCore g.core fun c => { c with streamFills := c.streamFills.put id fill }).at t (.streamCacheFill g.core id)

/-- A byte of the stream as the core's stream cache holds it. -/
def Core.streamByte (c : Core) (ctx va : Nat) : Option Byte :=
  match c.streamCache.find? fun l => l.context == ctx && l.line == va / Config.lineBytes with
  | some l => l.bytes[va % Config.lineBytes]?
  | none => none

/-- Bytes of the stream from an address, or the first address that the cache does not hold. -/
def Core.streamRun (c : Core) (ctx va : Nat) : Nat → Except Nat (List Byte)
  | 0 => .ok []
  | n + 1 =>
    match c.streamByte ctx va with
    | none => .error va
    | some b =>
      match Core.streamRun c ctx (va + 1) n with
      | .ok bs => .ok (b :: bs)
      | .error a => .error a

/-! ## Refills -/

/-- Ends a refill that cannot read its bytes: nothing is installed, the gangs that wait for the entry are to trap (R108),
and a pre-warm passes it over (R355). DETAIL1 is 5 for a page with X = 0 as for an unrecoverable fault. DESIGN CHOICE, log
111. -/
def State.dropRefill (s : State) (core id : Nat) (r : Refill) (va : Nat) : State :=
  let s := s.updCore core fun c => { c with refills := c.refills.del id }
  { s with gangs := s.gangs.mapAll fun g =>
      if g.core = core ∧ g.launch = r.launch ∧ g.handler = r.handler ∧ g.fetch = .entry r.index then
        { g with fetch := .trap (streamTrap va 5 g.activeMask) g.pos }
      else g }

/-- Starts a refill: the header's count and the entry's bytes are read and judged, to be installed 46 cycles after
they arrive (R108). A page of the dictionary that may not be executed ends it with DETAIL1 5, as any other fault of a refill
does. A refused entry keeps the widths of its header's fields, which give the length of a reference to it. DEDUCED, log 32, 123;
DESIGN CHOICE, log 111. -/
def State.startRefill (s : State) (core id : Nat) (r : Refill) : State :=
  let a := r.dict + 0x40 + 40 * r.index
  let addrs := [r.dict, a, a + 39]
  let step := fun (acc : Option Nat × Bool × List Nat × State) (va : Nat) =>
    match acc with
    | (none, true, keys, s) =>
      match s.translate core r.context va .fetch (.refill core id) with
      | (.ok e, s) => (none, true, keys ++ [e.key va], s)
      | (.wait, s) => (none, false, keys, s)
      | (.bad, s) => (some va, false, keys, s)
    | x => x
  match addrs.foldl step (none, true, [], s) with
  | (some va, _, _, s) => s.dropRefill core id r va
  | (none, false, _, s) => s
  | (none, true, keys, s) =>
    match keys with
    | [h, k, l] =>
      let count := s.natAt (h + 6) 2
      let lines := [lineOf k, lineOf l].eraseDups
      -- the entry's bytes by page: it may run over the end of one
      let first := Nat.min 40 (2 ^ 16 - a % 2 ^ 16)
      let bs := s.bytesAt k first ++ s.bytesAt (l + 1 - (40 - first)) (40 - first)
      let widths := (Header.of ((BitVec.ofNat 320 (wordOfBytes bs)).extractLsb' 288 32)).widths
      let d := match decodeEntryBytes r.handler (decide (r.index < count)) bs with
        | .ok e => Decoded.usable e
        | .error e => .refused e.code widths
      let path := (lines.map fun x => s.pathTo (dieOf core) x).foldl Nat.max 0
      let s := lines.foldl State.keepInL2 (s.keepInL2 (lineOf h))
      let t := s.time + path + Config.refillCycles
      let r := { r with running := true, due := some t, decoded := some d }
      (s.updCore core fun c => { c with refills := c.refills.put id r }).at t (.refillInstall core id)
    | _ => s

/-- A refill waits for a translation. -/
def State.refillWalks (s : State) (core id : Nat) : Bool :=
  (s.walks.vals.any fun w => w.clients.contains (.refill core id)) ||
    s.faults.vals.any fun f => f.clients.contains (.refill core id)

/-- Starts waiting refills while fewer than four are in flight, in the order they were asked for (R108). -/
def State.startRefills (s : State) (core : Nat) : State :=
  (s.core core).refills.foldl (fun s (id, r) =>
    if r.running then s
    else
      let busy := (s.core core).refills.vals.countP fun x => x.running
      if busy < Config.refillsInFlight then
        let s := s.updCore core fun c => { c with refills := c.refills.put id { r with running := true } }
        s.startRefill core id { r with running := true }
      else s) s

/-- Asks for an entry, or joins the refill of its key (R108). -/
def State.requestRefill (s : State) (core : Nat) (g : Gang) (index : Nat) : State :=
  let dict := s.dictBase g
  let count := fun (c : Core) (code : Nat) => if g.handler then c else c.count code
  let s := s.updCore core fun c => count c 0x20
  if (s.core core).refills.vals.any fun r =>
      r.launch == g.launch && r.dict == dict && r.index == index && r.handler == g.handler then
    s.updCore core fun c => count c 0x21
  else
    let (id, s) := s.fresh
    let r : Refill := { launch := g.launch, context := g.context, dict := dict, index := index, handler := g.handler,
                        running := false, due := none, stalled := false, prewarm := false, teams := [], decoded := none }
    (s.updCore core fun c => { c with refills := c.refills.put id r }).startRefills core

/-! ## The nullifier (R29) -/

/-- A slot's guard is known false in every active lane or group. DEDUCED, log 30. -/
def Gang.knownFalse (g : Gang) (sh : Shape) : Bool :=
  match sh.cls with
  | .S | .M => !guardPending g sh.g && (g.effConds sh.g).isEmpty
  | _ => (g.effLanes sh.g).isEmpty

/-- The bundle is nullified. DEDUCED, log 30. -/
def Gang.nullifies (g : Gang) (e : Entry) : Bool :=
  decide (g.folded < 2) && !e.nofold && e.pop == 0 && !g.inFlight &&
    e.ops.all fun x => match x.2.shape with
      | some sh => g.knownFalse sh
      | none => false

/-! ## Fetch -/

/-- The reference read at the gang's position: one step of fetch. The flag says whether fetch goes on. A trap found here keeps
the position after the reference as fetch knows it: the position itself where the length is not known (R102, R345). A BREAK
taken before a bundle that is nullified counts for no later bundle (R326). DEDUCED, log 28, 30, 31. -/
def State.fetchStep (s : State) (gid : Nat) (g : Gang) : State × Bool :=
  let c := s.core g.core
  let va := s.streamAt g
  if 2 ^ 48 ≤ va then (s.setFetch gid (.trap (streamTrap va 4 g.activeMask) g.pos), false)
  else
    match c.streamByte g.context va with
    | none => (s.requestLine gid g va g.pos, false)
    | some b0 =>
      let two := decide (0x80 ≤ b0.toNat)
      match (if two then c.streamByte g.context (va + 1) else some 0) with
      | none => (s.requestLine gid g (va + 1) g.pos, false)
      | some b1 =>
        let skip := fun (n : Nat) => (s.updGang gid fun g => { g with pos := posAfter g.pos n, resolving := false }, true)
        match readRef [b0, b1] with
        | .error _ =>
          if g.resolving then skip 2
          else (s.setFetch gid (.trap (streamTrap b1.toNat 1 g.activeMask) (posAfter g.pos 2)), false)
        | .ok .pad => skip 2
        | .ok .stop => if g.resolving then skip 2 else (s.setFetch gid .stop, false)
        | .ok (.index i len) =>
          let dict := s.dictBase g
          match (c.table g.handler).find? fun e => e.is g.launch dict i with
          | none =>
            let s := s.updGang gid fun g => { g with fetch := .entry i, dictmiss := (g.dictmiss + 1) % 2 ^ 32 }
            (s.requestRefill g.core g i, false)
          | some e =>
            -- the entry is now the most recently used
            let s := s.updCore g.core fun c =>
              c.setTable g.handler ((c.table g.handler).filter (fun x => x != e) ++ [e])
            let widths := e.entry.widths
            let n := sumNat widths
            if g.resolving then (s.updGang gid fun g => { g with pos := posAfter g.pos (len + n), resolving := false }, true)
            else
              let hold := fun (imms : List Word64) =>
                s.setFetch gid (.bundle { index := i, next := posAfter g.pos (len + n), entry := e.entry, imms := imms, lost := false })
              match e.entry with
              | .refused _ _ => (hold [], false)
              | .usable x =>
                match c.streamRun g.context (va + len) n with
                | .error a => (s.requestLine gid g a (posAfter g.pos (len + n)), false)
                | .ok bs =>
                  if g.nullifies x then
                    ((s.updCore g.core fun c => c.tally 0x03 1).updGang gid fun g =>
                      { g with pos := posAfter g.pos (len + n), folded := g.folded + 1, breakDone := false }, true)
                  else (hold ((readImms widths bs).getD []), false)

/-- Fetches for a gang until its next bundle is there or something is waited for; `fuel` bounds the references
passed over in one go. DEDUCED, log 31. -/
def State.fetchFor (s : State) (gid : Nat) : Nat → State
  | 0 => s
  | fuel + 1 =>
    match s.gang gid with
    | none => s
    | some g =>
      if g.fetch = .idle ∧ g.park = .none ∧ g.active ≠ 0 then
        match s.fetchStep gid g with
        | (s, true) => State.fetchFor s gid fuel
        | (s, false) => s
      else s

/-- Fetches for a gang. -/
def State.fetchNext (s : State) (gid : Nat) : State := s.fetchFor gid 64

/-- Fetch is due for a gang (R102): it looks again at the end of the cycle. DEDUCED, log 110. -/
def Gang.fetchDue (g : Gang) : Bool := g.fetch == .idle && g.park == .none && g.active != 0 && g.seated

/-- STREAM_FETCH (R102, R103): fetch goes on for a gang whose next bundle is not there, at the end of a cycle and after
what may have stopped the gang in it (R360). DESIGN CHOICE, log 13; DEDUCED, log 110. -/
def execStreamFetch (gid : Nat) (s : State) : Host.Outcome State Fault Refusal := .next (s.fetchNext gid)

/-- The gangs that a test selects are to look again. DEDUCED, log 110. -/
def State.fetchAll (s : State) (p : Gang → Bool) : State :=
  { s with gangs := s.gangs.mapAll fun g => if p g then { g with fetch := .idle } else g }

/-- STREAM_CACHE_FILL (R103): a stream line arrives, and the gangs that wait for stream bytes look again. DEDUCED, log 32. -/
def execStreamCacheFill (core fill : Nat) (s : State) : Host.Outcome State Fault Refusal :=
  match (s.core core).streamFills.find fill with
  | none => .next s
  | some f =>
    let l : StreamLine := { context := f.context, line := f.line, bytes := s.bytesAt f.key Config.lineBytes }
    let s := s.keepInL2 (lineOf f.key)
    let s := s.updCore core fun c =>
      { c with streamFills := c.streamFills.del fill,
               streamCache := (l :: c.streamCache.filter fun x => !(x.context == f.context && x.line == f.line)).take
                 Config.streamLines }
    .next (s.fetchAll fun g => g.core == core && g.fetch == .stream)

/-! ## Installing an entry (R109, R111) -/

/-- A ready gang holds an entry as its next bundle (R109): it was found ready when last judged. -/
def Gang.pins (g : Gang) (launch index : Nat) : Bool :=
  match g.fetch with
  | .bundle b => g.launch == launch && b.index == index && g.wait.isNone && g.park == .none
  | _ => false

/-- A team holds resources of its cores. -/
def Team.resident (t : Team) : Bool :=
  t.phase == .placed || t.phase == .stopping || t.phase == .restoring || t.phase == .killed

/-- An entry is pinned (R109): a ready gang holds it, or it stands in its dictionary's pin list while its launch has a
team on the core. The handler table's entries go by the handler image's dictionary (R107). -/
def State.pinned (s : State) (core : Nat) (handler : Bool) (e : DecodeEntry) : Bool :=
  (s.gangs.vals.any fun g => g.core == core && g.handler == handler && g.pins e.launch e.index) ||
  (match s.launch e.launch with
    | some l => (if handler then l.handlerPins else l.pins).contains e.index &&
        s.teams.vals.any fun t => t.launch == e.launch && t.resident && t.cores.contains core
    | none => false)

/-- The places an entry of a launch may take on a core: its quota, or the handler table's 32 (R107). -/
def Core.places (c : Core) (handler : Bool) (launch : Nat) : Nat :=
  if handler then Config.handlerTableSize
  else match c.quotas.find? fun q => q.1 == launch with
    | some q => q.2
    | none => 0

/-- Makes place for an entry of a launch: nothing where all its places are pinned (R109). -/
def State.makePlace (s : State) (core : Nat) (handler : Bool) (launch : Nat) : Option State :=
  let c := s.core core
  let t := c.table handler
  let own := if handler then t else t.filter fun e => e.launch == launch
  if own.length < c.places handler launch then some s
  else
    match own.find? fun e => !s.pinned core handler e with
    | none => none
    | some e =>
      let s := s.updCore core fun c =>
        let c := c.setTable handler ((c.table handler).filter fun x => x != e)
        if handler then c else c.count 0x25
      -- a gang that was not ready and holds the entry misses again when it becomes ready
      some { s with gangs := s.gangs.mapAll fun g =>
        match g.fetch with
        | .bundle b =>
          if g.core = core ∧ g.handler = handler ∧ g.launch = e.launch ∧ b.index = e.index then
            { g with fetch := .bundle { b with lost := true } }
          else g
        | _ => g }

/-- Installs the entry of a refill that is due (R108, R109, R111). -/
def State.install (s : State) (core id : Nat) (r : Refill) (d : Decoded) : State :=
  match s.makePlace core r.handler r.launch with
  | none => s.updCore core fun c => { c with refills := c.refills.put id { r with stalled := true } }
  | some s =>
    let e : DecodeEntry := { launch := r.launch, dict := r.dict, index := r.index, entry := d }
    let s := s.updCore core fun c =>
      let c := { c.setTable r.handler (c.table r.handler ++ [e]) with refills := c.refills.del id }
      if r.handler then c
      else
        let c := c.count 0x22
        let c := match d with | .refused _ _ => c.count 0x23 | .usable _ => c
        if r.prewarm then c.count 0x24 else c
    let s := s.startRefills core
    s.fetchAll fun g => g.core == core && g.handler == r.handler && g.launch == r.launch && g.fetch == .entry r.index

/-- REFILL_INSTALL (R108, R109). The event also goes on with a refill that waited for its translation. DEDUCED, log 32. -/
def execRefillInstall (core refill : Nat) (s : State) : Host.Outcome State Fault Refusal :=
  match (s.core core).refills.find refill with
  | none => .next s
  | some r =>
    match r.due, r.decoded with
    | some t, some d => if t ≤ s.time then .next (s.install core refill r d) else .next s
    | _, _ =>
      if r.running && !s.refillWalks core refill then .next ((s.startRefill core refill r).startRefills core) else .next s

end Sys2Proof.Machine
end

