-- ==== Sys2Proof/Machine/HostEvents.lean ====
section
/-! DEFINITION. Events for the host, MSI-X, the status mirror and the mailboxes (R226, R373, R378, R380, R384). -/

namespace Sys2Proof.Machine

/-- The event ring's host address and its log2 size (R373). -/
def State.eventBase (s : State) : Nat := s.evCfg / 2 ^ 12 * 2 ^ 12
def State.eventLog (s : State) : Nat := s.evCfg % 32

/-- RINGSTATE (R373). -/
def State.ringStateWord (s : State) : Nat := s.ringState + s.haltCause * 256

/-- The status page's registers at 0x100 to 0x1FF (R373). -/
def State.statusPage (s : State) : List Byte :=
  bytesLE 8 s.consumedSeq ++ bytesLE 8 s.completedSeq ++ bytesLE 8 s.eventSeq ++ bytesLE 8 s.ringStateWord ++
    List.replicate 224 0

/-- Writes the status mirror in host memory, where there is one (R373). -/
def State.mirror (s : State) : State :=
  if s.statusAddr = 0 then s else s.writeMem (memKey kindHost s.statusAddr) s.statusPage

/-- A supervisor leads: one that finds TIME at its lease's expiry has stopped leading, whether or not it has been noted
(R384). -/
def State.leads (s : State) : Bool := s.leading && decide (s.time < s.queenExpiry)

/-- Signals an MSI-X vector; one that is masked is left pending, and nothing is sent while MSI-X is not enabled (R373).
PRESUMED, log 118. -/
def State.signal (s : State) (v : Nat) : State :=
  if !s.msixEnable then s
  else if s.msixHold || s.msixMask.getLsbD v then { s with msixPending := putBit s.msixPending v true }
  else { s with vectors := s.vectors.put v (s.vectors.getD v 0 + 1) }

/-- Signals the pending vectors that are no longer masked (R373). PRESUMED, log 118. -/
def State.signalPending (s : State) : State :=
  (List.range 64).foldl (fun s v =>
    if s.msixEnable && s.msixPending.getLsbD v && !s.msixHold && !s.msixMask.getLsbD v then
      ({ s with msixPending := putBit s.msixPending v false } : State).signal v
    else s) s

/-- The host sets MSI-X's enable and function mask (R373). PRESUMED, log 118. -/
def execMsixControl (enable hold : Bool) (s : State) : Host.Outcome State Fault Refusal :=
  .next ({ s with msixEnable := enable, msixHold := hold } : State).signalPending

/-- The host masks or unmasks a vector (R373). PRESUMED, log 118. -/
def execMsixVector (vector : Nat) (masked : Bool) (s : State) : Host.Outcome State Fault Refusal :=
  .next ({ s with msixMask := putBit s.msixMask vector masked } : State).signalPending

/-- The 64 bytes of an event (R380). -/
def HostEvent.bytes (e : HostEvent) (dsn : Nat) : List Byte :=
  bytesLE 8 dsn ++ bytesLE 4 e.type ++ bytesLE 4 e.context ++ bytesLE 8 e.hsn ++
    (e.detail ++ List.replicate 40 0).take 40

/-- An event may be written now: a supervisor leads, the ring is configured and has its slot (R380, R385). -/
def State.mayWrite (s : State) (n : Nat) : Bool :=
  s.leads && s.eventBase != 0 && decide (n ≤ s.ackSeq + 2 ^ s.eventLog)

/-- Writes one event to its slot of the event ring (R380, R388). -/
def State.writeEvent (s : State) (n : Nat) (e : HostEvent) : State :=
  let s := s.writeMem (memKey kindHost (s.eventBase + 64 * (n % 2 ^ s.eventLog))) (e.bytes n)
  ({ s with eventSeq := Nat.max s.eventSeq n, rewrites := s.rewrites.filter (· != n) } : State).mirror.signal e.type

/-- A held event is still to be written, for the first time or again after a RESYNC (R380). -/
def State.toWrite (s : State) (n : Nat) : Bool := decide (s.eventSeq < n) || s.rewrites.contains n

/-- Writes the held events that may be written, in order (R380, R385). -/
def State.flushEvents (s : State) : State :=
  s.events.foldl (fun s (n, e) => if s.toWrite n && s.mayWrite n then s.writeEvent n e else s) s

/-- Gives an event its number and holds it until it is acknowledged; beyond 4,096 it is dropped and counted
(R380). -/
def State.emit (s : State) (e : HostEvent) : State :=
  if 4096 ≤ s.events.length then { s with eventsLost := s.eventsLost + 1 }
  else ({ s with dsn := s.dsn + 1, events := s.events ++ [(s.dsn + 1, e)] } : State).flushEvents

/-- An error event (R380): its first detail word says which, and the rest names what it concerns. DEDUCED, log 64. -/
def State.errorEvent (s : State) (what ctx : Nat) (detail : List Byte) : State :=
  s.emit { type := 2, context := ctx, hsn := 0, detail := bytesLE 4 what ++ detail }

/-! ## A core's mailbox (R226, R394) -/

/-- Whether an exchange waits for the release before its outgoing word; a handler run that has ended leaves none to wait
for. DEDUCED, log 48. -/
def State.mboxHeld (s : State) (gid k : Nat) : Bool :=
  (s.gang gid).isSome && s.afters.vals.any fun a => a == .mbox gid k

/-- Carries the exchanges of a core's mailbox on: outgoing words go once the last has been read, and incoming words fill
the destinations, in order. -/
def State.mboxGo (s : State) (core : Nat) : Nat → State
  | 0 => s
  | fuel + 1 =>
    let c := s.core core
    match c.mbox with
    | [] => s
    | (gid, k, long, some w) :: rest =>
      if c.dbg.outFull || s.mboxHeld gid k then s
      else
        let d := { c.dbg with outw := w, outFull := true }
        State.mboxGo (s.putCore core { c with mbox := (gid, k, long, none) :: rest, dbg := d }) core fuel
    | (gid, k, long, none) :: rest =>
      if c.dbg.inFull then
        let d := { c.dbg with inFull := false }
        let s := s.putCore core { c with mbox := rest, dbg := d }
        State.mboxGo (s.deliver gid long (some (k, c.dbg.inw.toNat)) s.time) core fuel
      else s

def State.mboxStep (s : State) (core : Nat) : State := s.mboxGo core (2 * (s.core core).mbox.length)

/-- Drops the exchanges of some gangs from a core's mailbox, and carries the others on (R226). -/
def State.dropMbox (s : State) (core : Nat) (gangs : List Nat) : State :=
  (s.updCore core fun c => { c with mbox := c.mbox.filter fun m => !gangs.contains m.1 }).mboxStep core

/-! ## The Cicada monitor's words (R396, R399) -/

/-- The next word of a monitor's answer goes into OUTW once the last has been read (R394, R396). DEDUCED, log 86. -/
def State.monitorOut (s : State) (core : Nat) : State :=
  let c := s.core core
  match c.monitor with
  | none => s
  | some m =>
    match m.out with
    | [] => s
    | w :: rest =>
      if c.dbg.outFull then s
      else s.updCore core fun c =>
        { c with monitor := some { m with out := rest }, dbg := { c.dbg with outw := w, outFull := true } }

/-- A word of the protocol. -/
def monitorWord (op seq operand : Nat) : Word64 := BitVec.ofNat 64 (op * 2 ^ 56 + seq * 2 ^ 48 + operand)

/-- HELLO: code, seat and slot of the trap record (R399). -/
def helloWord (g : Gang) : Word64 :=
  let t := g.trap.getD { code := 0, slot := 0 }
  monitorWord 0x80 0 (t.code * 2 ^ 16 + g.seat * 2 ^ 8 + t.slot)

/-- The monitor on entry: HELLO is to be sent, and no word has come. DEDUCED, log 86. -/
def Monitor.entered (g : Gang) : Monitor := { seq := none, reply := [], pending := none, out := [helloWord g], waits := false }

/-- A monitor run begins: its HELLO goes out, where mailboxes are in use (R392, R396). DEDUCED, log 86. -/
def State.enterMonitor (s : State) (core : Nat) (g : Gang) : State :=
  let m := Monitor.entered g
  (s.updCore core fun c => { c with monitor := some (if s.debugOpen then m else { m with out := [] }) }).monitorOut core

/-! ## Commands (R373, R375, R385) -/

/-- COMPLETED_SEQ as the commands not yet complete leave it: nothing is completed while no supervisor leads. -/
def State.advanceCompleted (s : State) : State :=
  if !s.leads then s
  else
    let commands := s.commands.filter fun p => !p.2.complete
    let newest := match commands with
      | [] => s.consumedSeq
      | (h, _) :: _ => h - 1
    let s' := { s with commands := commands }
    if s.completedSeq < newest then ({ s' with completedSeq := newest } : State).mirror.signal 0 else s'

/-- A command has completed. -/
def State.completeCommand (s : State) (hsn : Nat) : State :=
  ({ s with commands := s.commands.upd hsn fun c => { c with complete := true, started := true } } : State).advanceCompleted

/-- A command has failed: it completes with an event of type 1, with its code and, for a fault, the address. -/
def State.failCommand (s : State) (hsn code addr : Nat) : State :=
  let ctx := match s.commands.find hsn with | some c => c.context | none => 0
  let e : HostEvent := { type := 1, context := ctx, hsn := hsn,
                         detail := bytesLE 4 code ++ bytesLE 4 0 ++ bytesLE 8 addr }
  (s.emit e).completeCommand hsn

end Sys2Proof.Machine
end

