-- ==== Sys2Proof/Machine/Hive.lean ====
section
/-! DEFINITION. The Hive's queues: records, refill bursts, claims, latches, back-pressure, spill faults and the
status block (R217 to R222, R291 to R298, R305 to R309, R312), with the queue instructions. -/

namespace Sys2Proof.Machine

/-! ## Queues -/

/-- A queue with no configuration. -/
def HiveQueue.empty : HiveQueue :=
  { cfg := none, recs := [], nextSeq := 0, nextPlace := 0, burst := none, landedAt := none, burstFrom := 0, firing := 0,
    inProgress := 0, pressure := false, fcode := 0, fplace := 0, faultTime := 0, held := [], waiting := [],
    pushed := 0, claimedCount := 0, discarded := 0, spilled := 0, refills := 0, ageFired := 0, pressures := 0,
    done := 0, statusWaits := [], launch := none, recovering := false }

def State.queue (s : State) (q : Nat) : HiveQueue := s.queues.getD q HiveQueue.empty
def State.putQueue (s : State) (q : Nat) (x : HiveQueue) : State := { s with queues := s.queues.put q x }
def State.updQueue (s : State) (q : Nat) (f : HiveQueue → HiveQueue) : State := s.putQueue q (f (s.queue q))

/-- The die of a queue (R291). -/
def queueDie (q : Nat) : Nat := q / Config.queuesPerDie

/-- A queue belongs to a context's partition (R217, R291). -/
def State.ownsQueue (s : State) (ctx q : Nat) : Bool :=
  decide (q < Config.queueCount) &&
    match (s.context ctx).bind fun c => s.partitions.find c.partition with
    | some p => decide (p.queueBase ≤ q ∧ q < p.queueBase + p.queueCount)
    | none => false

/-- The path between a core and a queue's Hive (R218, R298). DEDUCED, log 105. -/
def hivePath (core q : Nat) : Nat := if dieOf core = queueDie q then Config.hiveCycles else Config.hiveOtherDieCycles

/-- D: records stored and not yet reserved by a firing (R293); one claimed from the head counts until it is consumed.
DEDUCED, log 113. -/
def HiveQueue.depth (x : HiveQueue) : Nat := x.recs.countP fun r => r.status == .unreserved || r.status == .claimed true

/-- Records that a firing may reserve: neither reserved nor claimed. DEDUCED, log 113. -/
def HiveQueue.free (x : HiveQueue) : Nat := x.recs.countP fun r => r.status == .unreserved

/-- Occupied places on chip. -/
def HiveQueue.chip (x : HiveQueue) : Nat := x.recs.countP fun r => r.place == .chip

/-- Occupied ring places; records of a burst in flight count as in the ring (R296). DEDUCED, log 58. -/
def HiveQueue.ring (x : HiveQueue) : Nat := x.recs.countP fun r => r.place != .chip && r.place != .returned

/-- Frees the places of the oldest records that are consumed or discarded (R293). -/
def HiveQueue.trim (x : HiveQueue) : HiveQueue := { x with recs := x.recs.dropWhile fun r => r.status == .gone }

/-- A queue takes no push (R298). -/
def HiveQueue.refuses (x : HiveQueue) : Bool :=
  match x.cfg with
  | none => true
  | some c => x.fcode != 0 || x.pressure || decide (2 ^ c.ringLog ≤ x.ring)

/-- Changes the status of one record. -/
def HiveQueue.setStatus (x : HiveQueue) (seq : Nat) (st : RecStatus) : HiveQueue :=
  { x with recs := x.recs.map fun r => if r.seq = seq then { r with status := st } else r }

def HiveQueue.rec? (x : HiveQueue) (seq : Nat) : Option QRec := x.recs.find? fun r => r.seq == seq

/-! ## The status block (R308) -/

/-- The 64 bytes of the status block. -/
def HiveQueue.statusBytes (x : HiveQueue) : List Byte :=
  bytesLE 4 x.done ++ bytesLE 4 x.firing ++ bytesLE 1 x.fcode ++ bytesLE 3 0 ++
  bytesLE 4 (if x.fcode = 0 ∨ x.fcode = 4 then 0 else x.fplace) ++ bytesLE 8 x.pushed ++ bytesLE 8 x.claimedCount ++
  bytesLE 8 x.discarded ++ bytesLE 4 x.spilled ++ bytesLE 4 x.refills ++ bytesLE 4 x.ageFired ++
  bytesLE 4 x.pressures ++ bytesLE 8 x.faultTime

/-- Reports a recoverable fault of a queue to its die's supervisor (R264, R306). -/
def State.queueFaultRec (s : State) (q ctx va : Nat) : State :=
  let (id, s) := s.fresh
  let f : FaultRec := { core := queueDie q * Config.coresPerDie, context := ctx, addr := va, clients := [.queue q] }
  { s with faults := s.faults.put id f }

/-- Writes a status block now, or answers that it waits for its page; a page that cannot be written drops it (R308). -/
def State.putStatus (s : State) (q ctx addr : Nat) (bs : List Byte) : State × Bool :=
  match s.walkHost ctx addr with
  | .page e _ =>
    if e.write && s.allows e addr .write then (s.writeMem (e.key addr) bs, true)
    else (s.errorEvent 4 ctx (bytesLE 4 q), true)
  | .absent _ => (s, false)
  | .bad _ => (s.errorEvent 4 ctx (bytesLE 4 q), true)

/-- Writes the status block, where the queue has one; the writes of one block stay in order (R308). -/
def State.writeStatus (s : State) (q : Nat) : State :=
  let x := s.queue q
  match x.cfg with
  | none => s
  | some c =>
    if c.statusBlock = 0 then s
    else
      let bs := x.statusBytes
      let wait := fun (s : State) =>
        s.updQueue q fun x => { x with statusWaits := x.statusWaits ++ [(c.context, c.statusBlock, bs)] }
      if x.statusWaits.any fun w => w.2.1 == c.statusBlock then wait s
      else match s.putStatus q c.context c.statusBlock bs with
        | (s, true) => s
        | (s, false) => wait (s.queueFaultRec q c.context c.statusBlock)

/-! ## Back-pressure and faults -/

/-- Enters or leaves back-pressure as D stands (R305); leaving it lets held pushes in. -/
def State.pressureOf (s : State) (q : Nat) : State :=
  let x := s.queue q
  match x.cfg with
  | none => s
  | some c =>
    if c.hw = 0 then s
    else if !x.pressure && decide (c.hw ≤ x.depth) then
      s.putQueue q { x with pressure := true, pressures := x.pressures + 1 }
    else if x.pressure && decide (x.depth ≤ c.lw) then
      (s.putQueue q { x with pressure := false }).at s.time (.heldPushAccept q)
    else s

/-- A queue enters FAULTED: the status block is written, and the supervisor and, for codes 2 to 4, the host hear of it
(R306, R308). A queue that is FAULTED already is not entering it: only a code 1 gives way to another, of which the host hears.
DEDUCED, log 114. -/
def State.faultQueue (s : State) (q code place va : Nat) : State :=
  let x := s.queue q
  let ctx := match x.cfg with | some c => c.context | none => 0
  let s :=
    if x.fcode = 0 then
      (s.putQueue q { x with fcode := code, fplace := place, faultTime := s.time, recovering := false }).writeStatus q
    else if x.fcode = 1 ∧ code ≠ 1 then s.putQueue q { x with fcode := code, fplace := place, recovering := false }
    else s
  if code = 1 then
    if s.faults.vals.any fun f => f.clients.contains (.queue q) && f.addr == va then s else s.queueFaultRec q ctx va
  else if x.fcode ≤ 1 then s.errorEvent 2 ctx (bytesLE 4 q ++ bytesLE 4 code)
  else s

/-- The key of a ring place, or the fault code of its translation (R306): a host page is no page of KIND device, whatever ATS
answers. DEDUCED, log 44. -/
def State.ringKey (s : State) (c : QueueCfg) (place : Nat) : Except Nat Nat :=
  let va := c.ring + 32 * place
  match s.walkTable c.context va with
  | .page e _ =>
    if e.kind != kindDevice || !e.write then .error 2
    else if !s.allows e va .write then .error 3
    else .ok (e.key va)
  | .absent _ => .error 1
  | .bad _ => .error 3

/-! ## Claims -/

/-- A record may be claimed by a claim. -/
def Claim.takes (c : Claim) (r : QRec) : Bool :=
  match c.team with
  | some t => r.status == .reserved t
  | none => r.status == .unreserved

/-- Binds a claim to the oldest record it may take, and the record sets out; one in the ring or in a burst in flight is
waited for until it has landed on chip (R219, R297, R312). DEDUCED, log 41. -/
def State.bindClaim (s : State) (id : Nat) (c : Claim) : State × Bool :=
  let x := s.queue c.queue
  match x.recs.find? c.takes with
  | none => (s, false)
  | some r =>
    if r.place == .chip || r.place == .returned then
      let s := s.putQueue c.queue { x.setStatus r.seq (.claimed c.team.isNone) with claimedCount := x.claimedCount + 1 }
      let due := s.time + hivePath c.core c.queue
      let s := { s with claims := s.claims.put id { c with seq := some r.seq, due := some due } }
      (s.atEnd due (.latchDelivery id), true)
    else (s, false)

/-- A team was fired from this queue, so that it claims from its reservation (R219). -/
def State.reservationTeam (s : State) (g : Gang) (q : Nat) : Option Nat :=
  match s.team g.team, (s.queue q).cfg with
  | some t, some c =>
    if t.qbatch ≠ 0 ∧ t.qbatch % 4096 = q ∧ c.consumer ≠ 0 then some g.team else none
  | _, _ => none

/-- Makes a claim; with no record to take, it waits behind the claims before it (R219). DEDUCED, log 41. -/
def State.claim (s : State) (c : Claim) : State :=
  let (id, s) := s.fresh
  let s := { s with claims := s.claims.put id c }
  let busy := match c.team with
    | some t => match s.team t with | some x => !x.claimWaits.isEmpty | none => false
    | none => !(s.queue c.queue).waiting.isEmpty
  let wait := fun (s : State) =>
    match c.team with
    | some t => s.updTeam t fun x => { x with claimWaits := x.claimWaits ++ [id] }
    | none => s.updQueue c.queue fun x => { x with waiting := x.waiting ++ [id] }
  if busy then wait s
  else match s.bindClaim id c with
    | (s, true) => s
    | (s, false) => wait s

/-- Serves the claims that wait at a queue's head, oldest first. DEDUCED, log 41. -/
def State.serveHead (s : State) (q : Nat) : Nat → State
  | 0 => s
  | fuel + 1 =>
    match (s.queue q).waiting with
    | [] => s
    | id :: rest =>
      match s.claims.find id with
      | none => State.serveHead (s.updQueue q fun x => { x with waiting := rest }) q fuel
      | some c =>
        match s.bindClaim id c with
        | (s, true) => State.serveHead (s.updQueue q fun x => { x with waiting := rest }) q fuel
        | (s, false) => s

/-- Serves the claims that wait for a team's reservation, oldest first. -/
def State.serveTeam (s : State) (t : Nat) : Nat → State
  | 0 => s
  | fuel + 1 =>
    match (s.team t).map fun x => x.claimWaits with
    | some (id :: rest) =>
      let drop := fun (s : State) => s.updTeam t fun x => { x with claimWaits := rest }
      match s.claims.find id with
      | none => State.serveTeam (drop s) t fuel
      | some c =>
        match s.bindClaim id c with
        | (s, true) => State.serveTeam (drop s) t fuel
        | (s, false) => s
    | _ => s

/-- Serves whatever waits for records of a queue. -/
def State.serve (s : State) (q : Nat) : State :=
  let s := s.serveHead q (s.queue q).waiting.length
  s.teams.foldl (fun s (t, x) => s.serveTeam t x.claimWaits.length) s

/-- A record is consumed (R293); a burst that may start through it starts in the following cycle (R312), and a team that may
be restarted keeps note of the record (R344). -/
def State.consume (s : State) (q seq : Nat) (team : Option Nat) : State :=
  let s := match team, (s.queue q).rec? seq with
    | some t, some r => s.updTeam t fun x => { x with taken := x.taken ++ [r] }
    | _, _ => s
  (s.updQueue q fun x => { (x.setStatus seq .gone).trim with burstFrom := s.time + 1 }).pressureOf q

/-- A claimed record that is to return: its queue, its number, and the team from whose reservation it was claimed. -/
abbrev Returned : Type := Nat × Nat × Option Nat

/-- Returns claimed records to the front of their reservations or heads, all at once, and then serves the claims that
wait (R220, R293). DEDUCED, log 58. -/
def State.returnRecords (s : State) (l : List Returned) : State :=
  let s := l.foldl (fun s (q, seq, team) =>
    s.updQueue q fun x => x.setStatus seq (match team with | some t => RecStatus.reserved t | none => .unreserved)) s
  (l.map Prod.fst).eraseDups.foldl (fun s q => (s.pressureOf q).serve q) s

/-- Takes a claim out of the machine, and out of those that wait: the record it had, if any. -/
def State.dropClaim (s : State) (id : Nat) : List Returned × State :=
  match s.claims.find id with
  | none => ([], s)
  | some c =>
    let s := { s with claims := s.claims.del id }
    if c.stat then ([], s)
    else
      let s := s.updQueue c.queue fun x => { x with waiting := x.waiting.filter fun i => i != id }
      let s := match c.team with
        | some t => s.updTeam t fun x => { x with claimWaits := x.claimWaits.filter fun i => i != id }
        | none => s
      ((c.seq.map fun n => (c.queue, n, c.team)).toList, s)

/-- Takes the claims that a test selects out of the machine, with the records they had. -/
def State.dropClaims (s : State) (p : Claim → Bool) : List Returned × State :=
  ((s.claims.filter fun x => p x.2).map Prod.fst).foldl (fun acc id =>
    let (l, s) := acc.2.dropClaim id
    (acc.1 ++ l, s)) ([], s)

/-! ## Pushes -/

/-- A push is accepted. -/
def State.pushDone (s : State) (id : Nat) (p : Push) : State :=
  let s := { s with pushes := s.pushes.del id }
  match p.hsn with | some h => s.completeCommand h | none => s

/-- A push is held at the Hive (R298). -/
def State.isHeld (s : State) (id : Nat) : Bool := s.queues.vals.any fun q => q.held.contains id

/-- The records of a gang that are held at the Hive (R218, R298). -/
def State.heldOf (s : State) (gid : Nat) : Nat :=
  s.pushes.countP fun p => p.2.gid == some gid && s.isHeld p.1

/-- The records of a parked gang that are held have changed: it stays parked until none is (R218). -/
def State.recountHeld (s : State) (gid : Option Nat) : State :=
  match gid with
  | some gid => s.updGang gid fun g => if g.heldPushes = 0 then g else { g with heldPushes := s.heldOf gid }
  | none => s

/-- Puts a record into a queue that does not refuse it: on chip, or in the ring (R292, R296, R309). A fault of the
ring place is answered instead. DEDUCED, log 43. -/
def State.enqueue (s : State) (q : Nat) (words : List Word32) : State × Bool :=
  let x := s.queue q
  match x.cfg with
  | none => (s, false)
  | some c =>
    let r : QRec := { seq := x.nextSeq, arrival := s.time, words := words, place := .chip, status := .unreserved }
    let add := fun (x : HiveQueue) (r : QRec) =>
      { x with recs := x.recs ++ [r], nextSeq := x.nextSeq + 1, pushed := x.pushed + 1 }
    if decide (x.chip < 32) && x.ring == 0 && x.landedAt != some s.time then (((s.putQueue q (add x r)).pressureOf q).serve q, true)
    else
      match s.ringKey c x.nextPlace with
      | .error code => (s.faultQueue q code x.nextPlace (c.ring + 32 * x.nextPlace), false)
      | .ok key =>
        let bs := words.flatMap fun w => bytesLE 4 w.toNat
        let x' := { add x { r with words := [], place := .ring x.nextPlace } with
                      nextPlace := (x.nextPlace + 1) % 2 ^ c.ringLog, spilled := x.spilled + 1 }
        ((((s.writeMem key bs).putQueue q x').pressureOf q).serve q, true)

/-- A held push is accepted; one whose refusal is still on its way stays until that has arrived (R218). -/
def State.heldDone (s : State) (id : Nat) (p : Push) : State :=
  (if p.gid.isSome && !p.refused then s else s.pushDone id p).recountHeld p.gid

/-- Puts the record of the oldest held push into its queue (R298); answers whether it is in. -/
def State.acceptFirst (s : State) (q : Nat) : State × Bool :=
  match (s.queue q).held with
  | [] => (s, true)
  | id :: rest =>
    let drop := fun (s : State) => s.updQueue q fun x => { x with held := rest }
    match s.pushes.find id with
    | none => (drop s, true)
    | some p =>
      match s.enqueue q p.words with
      | (s, true) => ((drop s).heldDone id p, true)
      | (s, false) => (s, false)

/-- Accepts held pushes in the order of their arrival while the queue takes them (R298). -/
def State.acceptHeld (s : State) (q : Nat) : Nat → State
  | 0 => s
  | fuel + 1 =>
    let x := s.queue q
    if x.held.isEmpty || x.refuses then s
    else match s.acceptFirst q with
      | (s, true) => State.acceptHeld s q fuel
      | (s, false) => s

/-- HELD_PUSH_ACCEPT (R298). -/
def execHeldPushAccept (queue : Nat) (s : State) : Host.Outcome State Fault Refusal :=
  .next (s.acceptHeld queue (s.queue queue).held.length)

/-- A push is held at the Hive, and its refusal sets out for the gang's core (R218, R298). -/
def State.holdPush (s : State) (id : Nat) (p : Push) : State :=
  let s := (s.updQueue p.queue fun x => { x with held := x.held ++ [id] }).recountHeld p.gid
  if p.gid.isSome then s.at (s.time + (p.arrival - p.left)) (.pushRefusal id) else s

/-- PUSH_ARRIVAL (R218, R298). DEDUCED, log 43. -/
def execPushArrival (push : Nat) (s : State) : Host.Outcome State Fault Refusal :=
  match s.pushes.find push with
  | none => .next s
  | some p =>
    if s.time < p.arrival then .next s
    else
      let x := s.queue p.queue
      let refused := !x.held.isEmpty || x.refuses
      let answer := fun (s : State) (ok : Bool) =>
        match p.gid, p.long with
        | some gid, some l => s.deliver gid l (some (p.group, ok.toNat)) s.time
        | _, _ => s
      if refused then
        .next (if p.holds then s.holdPush push p else answer { s with pushes := s.pushes.del push } false)
      else
        match s.enqueue p.queue p.words with
        | (s, true) => .next (answer (s.pushDone push p) true)
        | (s, false) =>
          .next (if p.holds then s.holdPush push p else answer { s with pushes := s.pushes.del push } false)

/-- PUSH_REFUSAL (R218): the gang is parked until every record of it that is held has been accepted; that of a record accepted
meanwhile parks it for the others. -/
def execPushRefusal (push : Nat) (s : State) : Host.Outcome State Fault Refusal :=
  match s.pushes.find push with
  | none => .next s
  | some p =>
    if p.refused then .next s
    else
      let s := { s with pushes := if s.isHeld push then s.pushes.put push { p with refused := true } else s.pushes.del push }
      match p.gid with
      | some gid => .next (s.updGang gid fun g => { g with heldPushes := s.heldOf gid })
      | none => .next s

/-- A push leaves its core once its release is complete (R218). -/
def State.leavePush (s : State) (id : Nat) : State :=
  match s.pushes.find id with
  | none => s
  | some p =>
    let core := match p.gid.bind s.gang with | some g => some g.core | none => p.core
    let t := s.time + (match core with | some k => hivePath k p.queue | none => 0)
    ({ s with pushes := s.pushes.put id { p with left := s.time, arrival := t } } : State).at t (.pushArrival id)

/-! ## Refill bursts -/

/-- The place that a burst could not read, in a queue with a code 1 fault: no other burst starts before that is resolved (R306,
R307). A faulting append names a place that no record has. -/
def HiveQueue.burstFaulted (x : HiveQueue) : Bool :=
  x.fcode == 1 && !x.recovering && x.recs.any fun r => r.place == .ring x.fplace

/-- A burst of a queue may start now (R297, R307, R312). -/
def HiveQueue.burstReady (x : HiveQueue) (now : Nat) : Bool :=
  x.burst.isNone && !x.burstFaulted && decide (x.burstFrom ≤ now) && decide (x.chip < 16) &&
    x.recs.any fun r => match r.place with | .ring _ => true | _ => false

/-- The records that a burst takes: the oldest in the ring, at most sixteen, with their places (R297). -/
def HiveQueue.burstRecords (x : HiveQueue) : List (Nat × Nat) :=
  (x.recs.filterMap fun r => match r.place with | .ring p => some (r.seq, p) | _ => none).take 16

/-- The first place that a burst cannot read, with its fault code (R306). -/
def State.burstFault (s : State) (c : QueueCfg) (x : HiveQueue) : Option (Nat × Nat) :=
  x.burstRecords.findSome? fun p => match s.ringKey c p.2 with | .ok _ => none | .error code => some (p.2, code)

/-- A burst of a queue starts, or faults, now: in a queue that is FAULTED already it starts once its places can be read, and
another fault shows where it changes the code or is to be resolved first (R306, R307). DEDUCED, log 114. -/
def State.burstDue (s : State) (x : HiveQueue) : Bool :=
  match x.cfg with
  | none => false
  | some c =>
    x.burstReady s.time &&
    match s.burstFault c x with
    | none => true
    | some (p, 1) => x.fcode == 0 || !s.faults.vals.any fun f => f.context == c.context && f.addr == c.ring + 32 * p
    | some _ => decide (x.fcode ≤ 1)

/-- A queue leaves FAULTED: its status block is written, and held pushes are accepted (R307, R308). -/
def State.leaveFaulted (s : State) (q : Nat) : State :=
  ((s.updQueue q fun x => { x with fcode := 0, fplace := 0, recovering := false }).writeStatus q).at s.time (.heldPushAccept q)

/-- REFILL_BURST_START (R297): the oldest ring records are read as memory then holds them. DEDUCED, log 114. -/
def execRefillBurstStart (queue : Nat) (s : State) : Host.Outcome State Fault Refusal :=
  let x := s.queue queue
  match x.cfg with
  | none => .next s
  | some c =>
    if !s.burstDue x then .next s
    else
      match s.burstFault c x with
      | some (p, code) => .next (s.faultQueue queue code p (c.ring + 32 * p))
      | none =>
        let read := fun (r : QRec) =>
          match r.place with
          | .ring p =>
            if x.burstRecords.any fun q => q.1 == r.seq then
              let key := match s.ringKey c p with | .ok k => k | .error _ => 0
              { r with place := .burst p,
                       words := (List.range 8).map fun i => BitVec.ofNat 32 (s.natAt (key + 4 * i) 4) }
            else r
          | _ => r
        let t := s.time + 520
        .next ((s.putQueue queue { x with recs := x.recs.map read, burst := some t }).atEnd t (.refillBurstLanding queue))

/-- REFILL_BURST_LANDING (R297, R312): at the end of its landing cycle the records are on chip, and the claims that waited
for them take them. -/
def execRefillBurstLanding (queue : Nat) (s : State) : Host.Outcome State Fault Refusal :=
  let x := s.queue queue
  match x.burst with
  | none => .next s
  | some t =>
    if s.time < t then .next s
    else
      let land := fun (r : QRec) => match r.place with | .burst _ => { r with place := .chip } | _ => r
      let s := s.putQueue queue { x with recs := x.recs.map land, burst := none, landedAt := some s.time, refills := x.refills + 1,
                                         burstFrom := s.time + 1, recovering := false }
      .next ((if x.recovering then s.leaveFaulted queue else s).serve queue)

/-! ## Delivery and latches -/

/-- The word of a queue's snapshot (R221). DEDUCED, log 42. -/
def HiveQueue.stat (x : HiveQueue) : Nat :=
  (if x.pressure then 2 ^ 54 else 0) + (if x.fcode = 0 then 0 else 2 ^ 53) + x.inProgress * 2 ^ 48 +
    x.ring * 2 ^ 27 + x.chip * 2 ^ 21 + x.depth

/-- An acquire at package scope by a gang, as a delivery makes it (R219, R281). DEDUCED, log 97. -/
def State.acquirePackage (s : State) (gid : Nat) : State := s.beginSync gid (s.bundles * 8) false true []

/-- LATCH_DELIVERY (R219, R220): a claimed record arrives at its latch or at QPOP's register; a QSTAT's snapshot
is taken. DEDUCED, log 42. -/
def execLatchDelivery (delivery : Nat) (s : State) : Host.Outcome State Fault Refusal :=
  match s.claims.find delivery with
  | none => .next s
  | some c =>
    match c.due with
    | none => .next s
    | some t =>
      if s.time < t then .next s
      else
        let s := { s with claims := s.claims.del delivery }
        if c.stat then
          match c.pop with
          | some l => .next (s.deliver c.gid l (some (c.group, (s.queue c.queue).stat)) s.time)
          | none => .next s
        else
          match c.seq.bind (s.queue c.queue).rec? with
          | none => .next s
          | some r =>
            match c.pop with
            | some l =>
              let lanes := match s.gang c.gid with | some g => g.lanes c.group | none => []
              let vals := lanes.map fun p => (p, ((r.words[(p - lanes.headD 0) % 8]?).getD 0).toNat)
              let s := s.updGang c.gid fun g => { g with longs := g.longs.upd l fun x => { x with vals := x.vals ++ vals } }
              .next ((s.consume c.queue r.seq c.team).deliver c.gid l none s.time)
            | none =>
              let take := fun (q : QLatch) =>
                if q.held.isNone then { q with held := some r.words, heldSeq := r.seq, asked := q.asked - 1 }
                else { q with next := some r.words, nextSeq := r.seq, asked := q.asked - 1 }
              let s := s.updGang c.gid fun g => g.updGroup c.group fun x =>
                { x with qh := x.qh.put c.latch (take (x.latch c.latch)) }
              .next (s.acquirePackage c.gid)

/-- A latch claims one more record (R220). -/
def State.latchClaim (s : State) (gid : Nat) (g : Gang) (k latch q : Nat) : State :=
  let s := s.updGang gid fun g => g.updGroup k fun x =>
    let l := x.latch latch
    { x with qh := x.qh.put latch { l with asked := l.asked + 1 } }
  s.claim { gid := gid, group := k, core := g.core, queue := q, team := s.reservationTeam g q, stat := false,
            pop := none, latch := latch, seq := none, due := none }

/-- A latch with no queue. -/
def QLatch.unbound : QLatch := { queue := none, held := none, next := none, heldSeq := 0, nextSeq := 0, asked := 0 }

/-- A claim that a group's latch waits for. -/
def Claim.forLatch (c : Claim) (gid k latch : Nat) : Bool :=
  c.gid == gid && c.group == k && c.latch == latch && c.pop.isNone && !c.stat

/-- The records a latch holds and prefetches. -/
def QLatch.records (l : QLatch) : List Nat :=
  (if l.held.isSome then [l.heldSeq] else []) ++ (if l.next.isSome then [l.nextSeq] else [])

/-- Takes a latch off its queue, with its held and prefetched records and those on their way (R220). -/
def State.unlatch (s : State) (gid k latch : Nat) : List Returned × State :=
  match (s.gang gid).bind fun g => (g.group k).map fun x => (g, x.latch latch) with
  | none => ([], s)
  | some (g, l) =>
    match l.queue with
    | none => ([], s)
    | some q =>
      let team := s.reservationTeam g q
      let s := s.updGang gid fun g => g.updGroup k fun x => { x with qh := x.qh.put latch QLatch.unbound }
      let (way, s) := s.dropClaims fun c => c.forLatch gid k latch
      (l.records.map (fun n => (q, n, team)) ++ way, s)

/-- Unbinds latches: what they had returns to the front (R220). -/
def State.unbind (s : State) (latches : List (Nat × Nat × Nat)) : State :=
  let (l, s) := latches.foldl (fun (acc : List Returned × State) (gid, k, latch) =>
    let (l, s) := acc.2.unlatch gid k latch
    (acc.1 ++ l, s)) ([], s)
  s.returnRecords l

/-- A pop mask advance of one latch of one group (R95, R220): the held record is consumed, the prefetched one takes
its place and another is claimed. -/
def State.popLatch (s : State) (gid k latch : Nat) : State :=
  match (s.gang gid).bind fun g => (g.group k).map fun x => (g, x) with
  | none => s
  | some (g, x) =>
    let l := x.latch latch
    match l.queue, l.held with
    | some q, some _ =>
      let s := s.consume q l.heldSeq (s.reservationTeam g q)
      let s := s.updGang gid fun g => g.updGroup k fun x =>
        { x with qh := x.qh.put latch { l with held := l.next, heldSeq := l.nextSeq, next := none } }
      s.latchClaim gid g k latch q
    | _, _ => s

/-! ## The end of a firing (R222) -/

/-- Discards records of a queue. -/
def State.discard (s : State) (q : Nat) (p : QRec → Bool) : State :=
  (s.updQueue q fun x =>
    let n := x.recs.countP p
    ({ x with recs := x.recs.map (fun r => if p r then { r with status := .gone } else r),
              discarded := x.discarded + n } : HiveQueue).trim).pressureOf q

/-- Discards what the latches of some gangs on a queue hold, prefetch or await: they stay bound, and claim nothing (R222,
R293). DEDUCED, log 103. -/
def State.emptyLatches (s : State) (gangs : List Nat) (q : Nat) : State :=
  let mine := gangs.filterMap s.gang
  let held := mine.flatMap fun g => g.groups.vals.flatMap fun x =>
    x.qh.vals.flatMap fun l => if l.queue = some q then l.records else []
  let empty := fun (l : QLatch) => if l.queue = some q then { QLatch.unbound with queue := some q } else l
  let clear := fun (x : Group) => { x with qh := x.qh.mapAll empty }
  let s := gangs.foldl (fun s i => s.updGang i fun g => { g with groups := g.groups.mapAll clear }) s
  let (way, s) := s.dropClaims fun c => c.queue == q && gangs.contains c.gid && c.pop.isNone && !c.stat
  let gone := held ++ way.map fun r => r.2.1
  s.discard q fun r => gone.contains r.seq

/-- The queues that the latches of some gangs are bound to. -/
def State.latchQueues (s : State) (gangs : List Nat) : List Nat :=
  ((gangs.filterMap s.gang).flatMap fun g => g.groups.vals.flatMap fun x =>
    x.qh.vals.filterMap fun l => l.queue).eraseDups

/-- Discards what the latches of a team hold, prefetch or await, of whatever queue (R222, R293). DEDUCED, log 103. -/
def State.dropLatches (s : State) (t : Team) : State :=
  (s.latchQueues t.gangs).foldl (fun s q => s.emptyLatches t.gangs q) s

/-- Ends a team's firing: unclaimed and unread records are discarded, the queue has one firing fewer in progress
and its status block is written (R222, R293, R308). DEDUCED, log 103. -/
def State.endFiring (s : State) (team : Nat) : State :=
  match s.team team with
  | none => s
  | some t =>
    if !t.firing then s
    else
      let q := t.qbatch % 4096
      let s := (s.dropLatches t).discard q fun r => r.status == .reserved team
      let s := s.updTeam team fun t => { t with firing := false, taken := [] }
      let s := s.updQueue q fun x => { x with inProgress := x.inProgress - 1, done := x.done + 1 }
      s.writeStatus q

/-! ## The queue instructions -/

/-- The queue id a scalar names (R217). -/
def queueId (s : State) (c : Cur) (g : Gang) (a : Operand) (k : Nat) : Nat := (ssrc s c g a k).toNat % 2 ^ 32

/-- BOUNDS for a queue that does not exist or that the partition does not own (R217). -/
def checkQueue (s : State) (c : Cur) (g : Gang) (a : Operand) (eff : List Nat) : Verdict :=
  checkValue c eff (queueId s c g a) (fun k => s.ownsQueue g.context (queueId s c g a k)) 3

/-- A queue operation of a group. -/
def queueOp (gd : Guard) (srcs : List Src) (check : State → Cur → Gang → List Nat → Verdict)
    (effect : State → Cur → Gang → List Nat → State) (s : State) : Host.Outcome State Fault Refusal :=
  runOp
    (fun s c g =>
      let eff := g.effGroups gd
      if eff.isEmpty then .go else (checkSources c g eff srcs).andThen fun _ => check s c g eff)
    (fun s c g =>
      let eff := g.effGroups gd
      if eff.isEmpty then s else effect s c g eff) s

/-- Pushes one record for each effective group: each leaves the core once the release is complete (R218). -/
def State.pushGroups (s : State) (c : Cur) (g : Gang) (a v : Operand) (eff : List Nat) (long : Option Nat) : State :=
  let s := s.updGang c.gid fun g => g.setVisible eff
  let (s, after) := eff.foldl (fun (acc : State × List Nat) k =>
    let (s, ws) := acc
    let (id, s) := s.fresh
    let p : Push :=
      { queue := queueId s c g a k, words := (List.range 8).map fun i => vsrc s c g v (k * g.width + i),
        gid := some c.gid, group := k, long := long, holds := long.isNone, core := some g.core, arrival := 0,
        left := 0, hsn := none, refused := false }
    let s := { s with pushes := s.pushes.put id p }
    let (w, s) := s.fresh
    ({ s with afters := s.afters.put w (.push id) }, ws ++ [w])) (s, [])
  s.beginSync c.gid c.seq true false after

/-- QPUSH (R218). -/
def execQpush (gd : Guard) (a v : Operand) :=
  queueOp gd [.sca a, .vec v] (fun s c g eff => checkQueue s c g a eff)
    fun s c g eff => s.pushGroups c g a v eff none

/-- QPUSHN (R218): the conditions are pending until the queue has answered. -/
def execQpushn (gd : Guard) (d : Flag) (a v : Operand) :=
  queueOp gd [.sca a, .vec v] (fun s c g eff => checkQueue s c g a eff)
    fun s c g eff =>
      let (id, s) := s.beginLong c.gid c.seq (.c d.val) eff eff.length false
      s.pushGroups c g a v eff (some id)

/-- Makes a claim of the issuing bundle: at once where it is the bundle's only operation, else at the bundle's end (R219). -/
def State.bundleClaim (s : State) (c : Cur) (x : Claim) : State :=
  match c.mode with
  | .commit => { s with cur := s.cur.map fun c => { c with claims := c.claims ++ [x] } }
  | _ => s.claim x

/-- QPOP (R219). -/
def execQpop (gd : Guard) (d : VReg) (a : Operand) :=
  queueOp gd [.sca a] (fun s c g eff => checkQueue s c g a eff)
    fun s c g eff =>
      let (id, s) := s.beginLong c.gid c.seq (.v d.val) eff eff.length true
      eff.foldl (fun s k =>
        let q := queueId s c g a k
        s.bundleClaim c { gid := c.gid, group := k, core := g.core, queue := q, team := s.reservationTeam g q,
                          stat := false, pop := some id, latch := 0, seq := none, due := none }) s

/-- QBIND's value unbinds (R220). -/
def unbinds (s : State) (c : Cur) (g : Gang) (a : Operand) (k : Nat) : Bool := (ssrc s c g a k).getLsbD 63

/-- QBIND (R220, R230): every effective group's held record is claimed before any prefetch record. -/
def execQbind (gd : Guard) (d : Latch) (a : Operand) :=
  queueOp gd [.sca a]
    (fun s c g eff => checkQueue s c g a (eff.filter fun k => !unbinds s c g a k))
    fun s c g eff =>
      let s := s.unbind (eff.map fun k => (c.gid, k, d.val))
      let bound := eff.filter fun k => !unbinds s c g a k
      let s := bound.foldl (fun s k => s.updGang c.gid fun live => live.updGroup k fun x =>
        { x with qh := x.qh.put d.val { x.latch d.val with queue := some (queueId s c g a k) } }) s
      (bound ++ bound).foldl (fun s k => s.latchClaim c.gid g k d.val (queueId s c g a k)) s

/-- QARM (R221, R291). -/
def execQarm (gd : Guard) (a b cc : Operand) :=
  queueOp gd [.sca a, .sca b, .sca cc]
    (fun s c g eff =>
      let t := fun k => (ssrc s c g b k).toNat
      (checkQueue s c g a eff).andThen fun _ =>
      (checkValue c eff (queueId s c g a) (fun k => match (s.queue (queueId s c g a k)).cfg with
        | some x => x.context == g.context
        | none => true) 3).andThen fun _ =>
        checkValue c eff t (fun k => decide (1 ≤ t k ∧ t k ≤ 4096)) 7)
    fun s c g eff => eff.foldl (fun s k =>
      let q := queueId s c g a k
      let (id, s) := s.fresh
      let w : QarmWrite := { queue := q, threshold := (ssrc s c g b k).toNat, age := (ssrc s c g cc k).toNat % 2 ^ 32 }
      ({ s with qarms := s.qarms.put id w } : State).at (s.time + hivePath g.core q) (.qarmUpdate id)) s

/-- QARM_UPDATE (R221): the new values stand from now on; T never exceeds HW. -/
def execQarmUpdate (update : Nat) (s : State) : Host.Outcome State Fault Refusal :=
  match s.qarms.find update with
  | none => .next s
  | some w =>
    let set := fun (c : QueueCfg) =>
      { c with threshold := if c.hw ≠ 0 ∧ c.hw < w.threshold then c.hw else w.threshold, age := w.age }
    .next (({ s with qarms := s.qarms.del update } : State).updQueue w.queue fun x => { x with cfg := x.cfg.map set })

/-- QSTAT (R221): the snapshot is taken as the register is filled. DEDUCED, log 42. -/
def execQstat (gd : Guard) (d : SReg) (a : Operand) :=
  queueOp gd [.sca a] (fun s c g eff => checkQueue s c g a eff)
    fun s c g eff =>
      let (id, s) := s.beginLong c.gid c.seq (.s d.val) eff eff.length false
      eff.foldl (fun s k =>
        let q := queueId s c g a k
        let t := s.time + hivePath g.core q
        let (n, s) := s.fresh
        let x : Claim := { gid := c.gid, group := k, core := g.core, queue := q, team := none, stat := true,
                           pop := some id, latch := 0, seq := none, due := some t }
        ({ s with claims := s.claims.put n x } : State).atEnd t (.latchDelivery n)) s

/-- QDONE (R222). DEDUCED, log 103. -/
def execQdone (gd : Guard) (s : State) : Host.Outcome State Fault Refusal :=
  runOp (fun _ _ _ => .go) (fun s _ g => if (g.effGroups gd).isEmpty then s else s.endFiring g.team) s

end Sys2Proof.Machine
end

