-- ==== Sys2Proof/Machine/Sha.lean ====
section
/-! DEFINITION. SHA-256, as the dictionary digest (R105, R106) and the measurement registers (R383) use it, and the firmware
image's signature (R383). -/

namespace Sys2Proof

/-! The constants are fraction bits of roots of primes, and the model computes them so: no table can hold a wrong digit.
The working variables are kept as two histories, since each round makes one new value of either kind and the other six
are the last values made. -/

/-- The largest number whose `k`-th power is at most `n`, its bits below `b` found one by one, over `x`. -/
def rootBelow (k n : Nat) : Nat → Nat → Nat
  | 0, x => x
  | b + 1, x => rootBelow k n b (if (x + 2 ^ b) ^ k ≤ n then x + 2 ^ b else x)

/-- The first 32 fraction bits of the `k`-th root of a number below 2^10. -/
def rootFraction (k p : Nat) : Word32 := BitVec.ofNat 32 (rootBelow k (p * 2 ^ (32 * k)) 38 0)

/-- The primes below 312, the first 64. -/
def firstPrimes : List Nat :=
  (List.range 312).filter fun n => decide (2 ≤ n) && [2, 3, 5, 7, 11, 13, 17].all fun d => n == d || n % d != 0

/-- The 64 round constants: cube roots. -/
def roundKeys : List Word32 := firstPrimes.map (rootFraction 3)

/-- The two histories of working variables, latest first. -/
structure ShaVars where
  upper : List Word32
  lower : List Word32
  deriving DecidableEq, Repr

/-- Word `n` of a history. -/
def pastWord (l : List Word32) (n : Nat) : Word32 := (l[n]?).getD 0

/-- The hash value before the first block: square roots of the first eight primes. -/
def ShaVars.first : ShaVars :=
  let r := (firstPrimes.take 8).map (rootFraction 2)
  ⟨r.take 4, r.drop 4⟩

/-- The exclusive or of a word's rotations by each of some amounts. -/
def spin (amounts : List Nat) (x : Word32) : Word32 := amounts.foldr (fun n y => x.rotateRight n ^^^ y) 0

/-- A big-endian word of four bytes. -/
def blockWord (l : List Byte) : Word32 := BitVec.ofNat 32 (natOfBytes l.reverse)

/-- The message padded to a whole number of 64-byte blocks: a one bit, zeros, and the length in bits as 8 bytes. -/
def paddedMessage (m : List Byte) : List Byte :=
  m ++ 0x80 :: List.replicate ((119 - m.length % 64) % 64) 0 ++ (bytesLE 8 (8 * m.length)).reverse

/-- Puts `n` more words on a block's schedule, latest word first. -/
def growSchedule : Nat → List Word32 → List Word32
  | 0, w => w
  | n + 1, w =>
    growSchedule n ((pastWord w 15 + pastWord w 6 + (spin [7, 18] (pastWord w 14) ^^^ pastWord w 14 >>> 3) +
      (spin [17, 19] (pastWord w 1) ^^^ pastWord w 1 >>> 10)) :: w)

/-- One round with its constant and schedule word already added: both histories grow by a word. -/
def ShaVars.round (v : ShaVars) (kw : Word32) : ShaVars :=
  let x := pastWord v.lower
  let y := pastWord v.upper
  let mixed := kw + x 3 + spin [6, 11, 25] (x 0) + (x 2 ^^^ (x 0 &&& (x 1 ^^^ x 2)))
  ⟨(mixed + spin [2, 13, 22] (y 0) + ((y 0 &&& (y 1 ||| y 2)) ||| (y 1 &&& y 2))) :: v.upper, (y 3 + mixed) :: v.lower⟩

/-- The hash value after one more block. -/
def ShaVars.block (v : ShaVars) (bytes : List Byte) : ShaVars :=
  let words := (growSchedule 48 ((chunks 4 16 bytes).map blockWord).reverse).reverse
  let u := (List.zipWith (· + ·) roundKeys words).foldl ShaVars.round v
  ⟨List.zipWith (· + ·) v.upper (u.upper.take 4), List.zipWith (· + ·) v.lower (u.lower.take 4)⟩

/-- SHA-256 of a message, 32 bytes. -/
def sha256 (m : List Byte) : List Byte :=
  let p := paddedMessage m
  let v := (chunks 64 (p.length / 64) p).foldl ShaVars.block .first
  (v.upper ++ v.lower).flatMap fun w => (bytesLE 4 w.toNat).reverse

/-! ## The image's signature

HSS of two levels, each LMS_SHA256_M32_H10 with LMOTS_SHA256_N32_W4, by RFC 8554 (R383). PRESUMED, log 119. -/

/-- Big-endian numbers of two and four bytes. -/
def be16 (n : Nat) : List Byte := (bytesLE 2 n).reverse
def be32 (n : Nat) : List Byte := (bytesLE 4 n).reverse

/-- The four-bit digit `i` of bytes, the high half of a byte first. -/
def lmsDigit (bs : List Byte) (i : Nat) : Nat :=
  let b := ((bs[i / 2]?).getD 0).toNat
  if i % 2 = 0 then b / 16 else b % 16

/-- Hash chain `i` from step `j` on, for some steps; `pre` is the tree's identifier and the leaf's number. -/
def otsChain (pre : List Byte) (i : Nat) : Nat → Nat → List Byte → List Byte
  | 0, _, x => x
  | n + 1, j, x => otsChain pre i n (j + 1) (sha256 (pre ++ be16 i ++ bytesLE 1 j ++ x))

/-- The one-time public key that a signature of 32 + 67 * 32 bytes gives for a message. -/
def otsKey (pre sig msg : List Byte) : List Byte :=
  let y := chunks 32 67 (sig.drop 32)
  let q := sha256 (pre ++ [0x81, 0x81] ++ sig.take 32 ++ msg)
  let sum := (List.range 64).foldl (fun n i => n + (15 - lmsDigit q i)) 0
  let digits := q ++ be16 (16 * sum)
  let z := (List.range 67).flatMap fun i => otsChain pre i (15 - lmsDigit digits i) (lmsDigit digits i) ((y[i]?).getD [])
  sha256 (pre ++ [0x80, 0x80] ++ z)

/-- The root reached from a node by its path. -/
def lmsClimb (id : List Byte) : Nat → List Byte → List (List Byte) → List Byte
  | _, x, [] => x
  | n, x, p :: path =>
    lmsClimb id (n / 2) (sha256 (id ++ be32 (n / 2) ++ [0x83, 0x83] ++ if n % 2 = 1 then p ++ x else x ++ p)) path

/-- One level: a public key of 56 bytes and a signature of 2,508. -/
def lmsVerify (key msg sig : List Byte) : Bool :=
  let id := (key.drop 8).take 16
  let q := natOfBytes (sig.take 4).reverse
  let leaf := sha256 (id ++ be32 (1024 + q) ++ [0x82, 0x82] ++ otsKey (id ++ be32 q) ((sig.drop 8).take 2176) msg)
  key.length == 56 && key.take 8 == be32 6 ++ be32 3 && sig.length == 2508 && decide (q < 1024) &&
    (sig.drop 4).take 4 == be32 3 && (sig.drop 2184).take 4 == be32 6 &&
    lmsClimb id (1024 + q) leaf (chunks 32 10 (sig.drop 2188)) == key.drop 24

/-- A signature of 5,076 bytes over a message is good under a public key of 60 bytes. -/
def hssVerify (key msg sig : List Byte) : Bool :=
  let mid := (sig.drop 2512).take 56
  key.length == 60 && key.take 4 == be32 2 && sig.length == 5076 && sig.take 4 == be32 1 &&
    lmsVerify (key.drop 4) mid ((sig.drop 4).take 2508) && lmsVerify mid msg (sig.drop 2568)

end Sys2Proof
end

