-- ==== Sys2Proof/Machine/Launch.lean ====
section
/-! DEFINITION. Launch records: their checks, their acceptance and the LAUNCH instruction (R35, R84, R105, R106,
R223, R301, R313 to R316, R323, R331). -/

namespace Sys2Proof.Machine

/-! ## Reading a context's memory -/

/-- The key of a virtual address by the page table, or whether the fault it meets is recoverable. DEDUCED, log 44. -/
def State.pageKey (s : State) (ctx va : Nat) (need : Need) : Except Bool Nat :=
  match s.walkHost ctx va with
  | .page e _ => if s.allows e va need then .ok (e.key va) else .error false
  | .absent _ => .error true
  | .bad _ => .error false

/-- The key of a run of bytes within 64 KiB, or whether the fault it meets is recoverable, with its address (R381 to R383). -/
def State.runKey (s : State) (ctx va n : Nat) (need : Need) : Except (Bool × Nat) Nat :=
  match s.walkHost ctx va with
  | .page e _ => match s.firstBad e va n need with | none => .ok (e.key va) | some a => .error (false, a)
  | .absent _ => .error (true, va)
  | .bad _ => .error (false, va)

/-- Reads bytes page by page; a fault answers whether it is recoverable, and its address. -/
def State.readPages (s : State) (ctx : Nat) : Nat → Nat → Nat → Except (Bool × Nat) (List Byte)
  | 0, _, _ => .ok []
  | fuel + 1, va, n =>
    if n = 0 then .ok []
    else
      let m := Nat.min n (2 ^ 16 - va % 2 ^ 16)
      match s.runKey ctx va m .read with
      | .error x => .error x
      | .ok key =>
        match State.readPages s ctx fuel (va + m) (n - m) with
        | .ok bs => .ok (s.bytesAt key m ++ bs)
        | .error e => .error e

/-- Reads `n` bytes of a context. DEDUCED, log 44. -/
def State.readCtx (s : State) (ctx va n : Nat) : Except (Bool × Nat) (List Byte) :=
  s.readPages ctx (n / 2 ^ 16 + 2) va n

/-! ## The record's fields -/

/-- Little-endian bytes of a list. -/
def fieldOf (bs : List Byte) (o n : Nat) : Nat := natOfBytes ((bs.drop o).take n)

/-- The width of a launch's groups (R314). -/
def widthOf (flags : Nat) : Nat := 16 * 2 ^ (flags % 4)

/-- P: pad bytes rounded up to a multiple of 256 (R66). -/
def padSize (n : Nat) : Nat := (n + 255) / 256 * 256

/-- Slots the pad takes (R321). -/
def padSlots (p : Nat) : Nat := (p + 16383) / 16384

/-- The launch a record describes (R313, R314). DESIGN CHOICE, log 89. -/
def launchOf (ctx addr : Nat) (bs : List Byte) (handler : Option (Nat × Nat × Nat)) (pins : List Nat) : Launch :=
  let f := fieldOf bs
  let flags := f 0x14 4
  { context := ctx, stream := f 0 8, dict := f 8 8, entry := f 0x10 4, args := f 0x50 8
    nx := f 0x18 4, ny := f 0x1C 2, nz := f 0x1E 2, groups := f 0x20 2, width := widthOf flags
    pair := natBit flags 2, guardMode := natBit flags 3, idempotent := natBit flags 4, cls := bitsOf flags 6 5
    lease := bitsOf flags 10 7, fired := false, teamPro := natBit flags 12,
    strict := natBit flags 11, decodeQuota := f 0x22 2
    quotaA := f 0x24 1, quotaB := f 0x25 1, banks := f 0x26 1, reserve := 8 * f 0x27 1, pad := padSize (f 0x28 4)
    formats := (List.range 8).map fun n => BitVec.ofNat 32 (f (0x30 + 4 * n) 4)
    handlerImage := f 0x68 8, segBase := f 0x58 8, segSize := f 0x60 4, segSealed := false
    completion := f 0x70 4, softLimit := f 0x74 4, pins := pins, handlerPins := []
    count := f 0x18 4 * f 0x1C 2 * f 0x1E 2, span := none, frozenAt := none, stage := 0, cursor := 0, done := 0
    status := 0, qbatch := 0, preempted := false, queue := none, record := addr, handler := handler }

/-- A record of the form R313 and R314 ask; the teams of a consumer's record are not looked at (R301). -/
def recordOk (s : State) (ctx : Nat) (fired : Bool) (bs : List Byte) : Bool :=
  let f := fieldOf bs
  let flags := f 0x14 4
  let p := padSize (f 0x28 4)
  let teams := f 0x18 4 * f 0x1C 2 * f 0x1E 2
  let privileged := match s.context ctx with | some c => c.privileged | none => false
  let cq := f 0x70 4
  f 8 8 % 64 == 0 && flags / 2 ^ 13 == 0 && flags % 4 != 3 && decide (bitsOf flags 10 7 ≤ 8) &&
  (fired || decide (1 ≤ teams ∧ teams ≤ 2 ^ 32)) &&
  decide (1 ≤ f 0x20 2 ∧ f 0x20 2 ≤ 64 ∧ 8 ≤ f 0x22 2 ∧ f 0x22 2 ≤ 1024) &&
  decide (f 0x26 1 ≤ 4 ∧ f 0x27 1 ≤ 128) &&
  decide ((if natBit flags 3 then guardSpan p else p) ≤ 2 ^ 21) &&
  f 0x2C 4 == 0 && f 0x64 4 == 0 && f 0x78 8 == 0 &&
  !((List.range 8).any fun n => slotRejected (BitVec.ofNat 32 (f (0x30 + 4 * n) 4))) &&
  f 0x58 8 % 128 == 0 && f 0x60 4 % 128 == 0 && f 0x68 8 % 64 == 0 &&
  (cq == 0xFFFFFFFF || s.ownsQueue ctx cq) && (!natBit flags 11 || privileged)

/-! ## The dictionary (R105, R106) -/

/-- The device's effective feature set (R352). -/
def State.features (s : State) : Nat := maskOf 7 fun i => !natBit s.withdrawn i

/-- What a check of a record answers: it waits for a page, it fails with a result, or it passes. -/
inductive Judged (α : Type) where
  | wait (va code : Nat)
  | fail (code : Nat)
  | pass (x : α)
deriving Repr

def Judged.bind {α β : Type} (x : Judged α) (f : α → Judged β) : Judged β :=
  match x with
  | .wait va c => .wait va c
  | .fail c => .fail c
  | .pass a => f a

/-- Reads for a check that fails with `code` (R315). DEDUCED, log 37. -/
def State.readFor (s : State) (ctx va n code : Nat) : Judged (List Byte) :=
  match s.readCtx ctx va n with
  | .ok bs => .pass bs
  | .error (true, a) => .wait a code
  | .error (false, _) => .fail code

def judgeIf (b : Bool) (code : Nat) : Judged Unit := if b then .pass () else .fail code

/-- The dictionary passes R106, and its digest. -/
def State.judgeDict (s : State) (ctx addr : Nat) : Judged (Nat × Nat) :=
  (s.readFor ctx addr 64 3).bind fun h =>
    let digest := fieldOf h 0x10 32
    let seen := match s.context ctx with | some c => c.checked.contains (addr, digest) | none => false
    if seen then .pass (addr, digest)
    else
      let count := fieldOf h 6 2
      let pins := fieldOf h 0x30 2
      (judgeIf (fieldOf h 0 4 == 0x43494442 && fieldOf h 4 2 == 1 && decide (1 ≤ count ∧ count ≤ 32512) &&
        decide (pins ≤ 512) && (h.drop 0x32).all (· == 0)) 3).bind fun _ =>
      (s.readFor ctx (addr + 64) (40 * count + 2 * pins) 3).bind fun body =>
        let list := (List.range pins).map fun i => fieldOf body (40 * count + 2 * i) 2
        let features := fieldOf h 8 8
        (judgeIf (list.all (fun i => decide (i < count)) && natOfBytes (sha256 body) == digest &&
          (List.range 64).all fun i => !natBit features i || natBit s.features i) 3).bind fun _ =>
            .pass (addr, digest)

/-- The pin list of a dictionary, as far as it can be read (R105). -/
def State.pinList (s : State) (ctx addr : Nat) : List Nat :=
  match s.readCtx ctx addr 64 with
  | .error _ => []
  | .ok h =>
    let pins := fieldOf h 0x30 2
    match s.readCtx ctx (addr + 64 + 40 * fieldOf h 6 2) (2 * pins) with
    | .ok bs => (List.range pins).map fun i => fieldOf bs (2 * i) 2
    | .error _ => List.replicate pins 0

/-! ## Whether a team can be placed (R323) -/

/-- The gangs of a team (R15). -/
def Launch.gangCount (l : Launch) (groups : Nat) : Nat :=
  let per := 64 / l.width
  (groups + per - 1) / per

/-- The gangs of a team that stand on one side of a pair, or on the only core (R321). -/
def Launch.gangsOn (l : Launch) (groups side : Nat) : Nat :=
  let n := l.gangCount groups
  if l.pair then (n + 1 - side) / 2 else if side = 0 then n else 0

/-- A team can be placed on an otherwise empty core (R323). DEDUCED, log 36. -/
def Launch.placeable (l : Launch) (tilesA tilesB : Nat) : Bool :=
  let n := l.gangsOn l.groups 0
  decide (n ≤ 16) && decide (l.reserve * n ≤ 1024) &&
  decide (l.quotaA + padSlots l.pad + tilesA ≤ 256) && decide (l.quotaB + tilesB ≤ 512) && decide (l.banks * n ≤ 16)

/-! ## Spans of the template area (R35) -/

/-- The bytes of a span. -/
def Launch.spanBytes (l : Launch) : Nat := 20 * 2 ^ 10 + 16 * 2 ^ 10 * (l.quotaA + l.quotaB)

/-- The lowest address of an area where `n` bytes are free. -/
def lowestFree (base size n : Nat) (used : List (Nat × Nat)) : Option Nat :=
  let ok := fun a => decide (base ≤ a ∧ a + n ≤ base + size) &&
    !used.any fun u => decide (a < u.1 + u.2 ∧ u.1 < a + n)
  minBy id ((base :: used.map fun u => u.1 + u.2).filter ok)

/-- Allots a span of a context's template area. -/
def State.allotSpan (s : State) (ctx n : Nat) : Option (Nat × State) :=
  match s.context ctx with
  | none => none
  | some c =>
    match lowestFree c.templateBase c.templateSize n c.spans with
    | none => none
    | some a => some (a, { s with contexts := s.contexts.put ctx { c with spans := c.spans ++ [(a, n)] } })

/-- Frees a span. -/
def State.freeSpan (s : State) (ctx : Nat) (span : Option (Nat × Nat)) : State :=
  match span with
  | none => s
  | some x => { s with contexts := s.contexts.upd ctx fun c => { c with spans := c.spans.filter fun y => y != x } }

/-! ## The checks in order (R315) -/

/-- The handler image's header: stream, dictionary and entry (R331). -/
def State.judgeHandler (s : State) (ctx addr : Nat) : Judged (Option (Nat × Nat × Nat)) :=
  if addr = 0 then .pass none
  else (s.readFor ctx addr 32 2).bind fun h =>
    if (h.drop 20).all (· == 0) then .pass (some (fieldOf h 0 8, fieldOf h 8 8, fieldOf h 16 4)) else .fail 2

/-- Checks 1 and 2 of R315: the launch as its record describes it. DEDUCED, log 37. -/
def State.judgeRecord (s : State) (ctx addr : Nat) (fired : Bool) : Judged Launch :=
  (s.readFor ctx addr 128 1).bind fun bs =>
  (judgeIf (recordOk s ctx fired bs) 2).bind fun _ =>
  (s.judgeHandler ctx (fieldOf bs 0x68 8)).bind fun handler =>
    let pins := s.pinList ctx (fieldOf bs 8 8)
    let l := { launchOf ctx addr bs handler pins with
      fired := fired, handlerPins := match handler with | some h => s.pinList ctx h.2.1 | none => [] }
    (judgeIf (decide (2 * pins.length ≤ l.decodeQuota)) 2).bind fun _ => .pass l

/-- The dictionaries of a launch: its kernel's and its handler image's. -/
def Launch.dicts (l : Launch) : List Nat := l.dict :: match l.handler with | some h => [h.2.1] | none => []

/-- Check 3 of R315, dictionary by dictionary: those that pass before one fails or waits, and what comes of the check. -/
def State.judgeDicts (s : State) (ctx : Nat) : List Nat → List (Nat × Nat) × Judged Unit
  | [] => ([], .pass ())
  | d :: ds =>
    match s.judgeDict ctx d with
    | .pass x => let (l, r) := State.judgeDicts s ctx ds; (x :: l, r)
    | .wait va c => ([], .wait va c)
    | .fail c => ([], .fail c)

/-- Checks 1 to 4 of R315, with the dictionaries that passed, whatever comes of the launch (R106). DEDUCED, log 36, 37. -/
def State.judgeLaunch (s : State) (ctx addr : Nat) (fired : Bool) : List (Nat × Nat) × Judged Launch :=
  match s.judgeRecord ctx addr fired with
  | .pass l =>
    let (passed, r) := s.judgeDicts ctx l.dicts
    (passed, r.bind fun _ => (judgeIf (l.placeable 0 0) 4).bind fun _ => .pass l)
  | .wait va c => ([], .wait va c)
  | .fail c => ([], .fail c)

/-- Dictionaries that have passed are not checked again for their context (R106). -/
def State.noteChecked (s : State) (ctx : Nat) (dicts : List (Nat × Nat)) : State :=
  { s with contexts := s.contexts.upd ctx fun c =>
      { c with checked := c.checked ++ dicts.filter fun d => !c.checked.contains d } }

/-! ## Acceptance (R316) -/

/-- The launch number after `n`: modulo 2^32, never 0. -/
def nextLaunch (n : Nat) : Nat := if (n + 1) % 2 ^ 32 = 0 then 1 else (n + 1) % 2 ^ 32

/-- Stream lines of a context that stand in a core's stream cache are dropped: a launch that begins sees the stores made
before it, while one that goes on may see either contents (R104). DESIGN CHOICE, log 32. -/
def State.dropStreams (s : State) (ctx : Nat) : State :=
  { s with cores := s.cores.mapAll fun c => { c with streamCache := c.streamCache.filter fun l => l.context != ctx } }

/-- Accepts a launch: its number and its span; check 5 of R315. -/
def State.acceptLaunch (s : State) (l : Launch) : Except Nat (Nat × State) :=
  match s.allotSpan l.context l.spanBytes with
  | none => .error 5
  | some (a, s) =>
    let n := nextLaunch s.launchSeq
    let s := { s with
      launchSeq := n
      launches := s.launches.put n { l with span := some (a, l.spanBytes) } }
    .ok (n, s.dropStreams l.context)

/-- The result word of a submission (R223). -/
def resultWord : Except Nat Nat → Nat
  | .ok n => n
  | .error c => 2 ^ 63 + c

/-- A submission is decided: its submitter learns the result. A LAUNCH's word arrives 400 cycles after its release;
a queue's grid that is rejected faults the queue (R223, R301, R315, R376). -/
def State.submitResult (s : State) (sub : Submit) (r : Except Nat Nat) : State :=
  match sub.from_ with
  | .group gid k long => s.deliver gid long (some (k, resultWord r)) (s.time + Config.launchCycles)
  | .host hsn result =>
    let s := if result = 0 then s else s.writeMem (memKey kindHost result) (bytesLE 8 (resultWord r))
    match r with
    | .ok _ => s.completeCommand hsn
    | .error c => s.failCommand hsn (16 + c) 0
  | .queue q =>
    match r with
    | .ok n =>
      let s := s.updQueue q fun x => { x with launch := some n }
      let s := s.updLaunch n fun l => { l with queue := some q }
      { s with teams := s.teams.mapAll fun t =>
          if t.launch = 0 ∧ t.firing ∧ t.qbatch % 4096 = q then { t with launch := n } else t }
    | .error _ =>
      { (s.faultQueue q 4 0 0) with teams := s.teams.filter fun p =>
          !(p.2.launch == 0 && p.2.firing && p.2.qbatch % 4096 == q) }

/-- A launch record that a command of the ring submitted. -/
def Submit.fromHost (x : Submit) : Bool := match x.from_ with | .host _ _ => true | _ => false

/-- A command of the ring is not decided while leadership is vacant: its submission waits for the next leader (R385). -/
def State.waitsForLeader (s : State) (x : Submit) : Bool := x.fromHost && !s.leads

/-- A submission ends with a result (R315). -/
def State.endSubmit (s : State) (id : Nat) (x : Submit) (r : Except Nat Nat) : State :=
  ({ s with submits := s.submits.del id } : State).submitResult x r

/-- A submission fails its check, at once or when a supervisor leads (R315, R385). -/
def State.refuseSubmit (s : State) (id : Nat) (x : Submit) : State :=
  if s.waitsForLeader x then { s with submits := s.submits.put id { x with due := some false } }
  else s.endSubmit id x (.error x.code)

/-- Judges a submission, or leaves it waiting for the page its check lacks, or for a leader (R315, R385). DEDUCED, log 37. -/
def State.decideSubmit (s : State) (id : Nat) : State :=
  match s.submits.find id with
  | none => s
  | some sub =>
    let fired := match sub.from_ with | .queue _ => true | _ => false
    if s.waitsForLeader sub then { s with submits := s.submits.put id { sub with due := some true } }
    else
      let (passed, r) := s.judgeLaunch sub.context sub.addr fired
      let s := s.noteChecked sub.context passed
      match r with
      | .fail c => s.endSubmit id sub (.error c)
      | .wait va c =>
        let die := match sub.from_ with
          | .group gid _ _ => match s.gang gid with | some g => dieOf g.core | none => 0
          | .host _ _ => 0
          | .queue q => queueDie q
        let (f, s) := s.fresh
        let x : FaultRec := { core := die * Config.coresPerDie, context := sub.context, addr := va, clients := [.submit id] }
        { s with faults := s.faults.put f x, submits := s.submits.put id { sub with code := c, due := none } }
      | .pass l =>
        match s.acceptLaunch l with
        | .ok (n, s) => s.endSubmit id sub (.ok n)
        | .error c => s.endSubmit id sub (.error c)

/-- A submission that waited for a leader goes on (R385). -/
def State.settleSubmit (s : State) (id : Nat) (x : Submit) : State :=
  match x.due with
  | some true => s.decideSubmit id
  | some false => s.refuseSubmit id x
  | none => s

/-- Submits a launch record. -/
def State.submitLaunch (s : State) (ctx addr : Nat) (from_ : Submitter) : State :=
  let (id, s) := s.fresh
  ({ s with submits := s.submits.put id { context := ctx, addr := addr, from_ := from_, code := 0 } } : State).decideSubmit id

/-! ## The LAUNCH instruction -/

/-- LAUNCH (R223): a release at package scope, after which each record is read. -/
def execLaunch (gd : Guard) (d : SReg) (a : Operand) (s : State) : Host.Outcome State Fault Refusal :=
  runOp
    (fun s c g =>
      let eff := g.effGroups gd
      if eff.isEmpty then .go
      else (checkSources c g eff [.sca a]).andThen fun _ =>
        let bad := eff.filter fun k => (ssrc s c g a k).toNat % 128 != 0
        match bad with
        | [] => .go
        | k :: ks =>
          let low := ks.foldl (fun m k => Nat.min m (ssrc s c g a k).toNat) (ssrc s c g a k).toNat
          .trap (c.trap trapALIGN (groupMask bad) 0 low 0))
    (fun s c g =>
      let eff := g.effGroups gd
      if eff.isEmpty then s
      else
        let (long, s) := s.beginLong c.gid c.seq (.s d.val) eff eff.length false
        let s := s.updGang c.gid fun g => g.setVisible eff
        let (s, after) := eff.foldl (fun (acc : State × List Nat) k =>
          let (s, ws) := acc
          let (id, s) := s.fresh
          let sub : Submit := { context := g.context, addr := (ssrc s c g a k).toNat, from_ := .group c.gid k long, code := 0 }
          let s := { s with submits := s.submits.put id sub }
          let (w, s) := s.fresh
          ({ s with afters := s.afters.put w (.launch id) }, ws ++ [w])) (s, [])
        s.beginSync c.gid c.seq true false after) s

end Sys2Proof.Machine
end

