-- ==== Sys2Proof/Machine/Placement.lean ====
section
/-! DEFINITION. Placing teams on cores: resources, choice of core and seat, the gangs of a team, templates in the
banks (R36 to R39, R45, R46, R303, R304, R311, R317 to R323, R353, R390). -/

namespace Sys2Proof.Machine

/-! ## What resident work holds (R321) -/

/-- The teams that hold resources of a core. -/
def State.residents (s : State) (core : Nat) : List Team :=
  s.teams.vals.filter fun t => t.resident && t.cores.contains core

/-- A team fired from a queue (R54, R301). -/
def Team.fromQueue (t : Team) : Bool := t.qbatch != 0

/-- The groups of a team: the prologue team has one (R317). -/
def Team.groupsOf (t : Team) (l : Launch) : Nat := if t.prologue then 1 else l.groups

/-- Group 0 of a team prologue has not ended, so that the team template's tiles are still to come (R319). DEDUCED, log 35. -/
def Team.awaitsTemplate (t : Team) (l : Launch) : Bool := l.teamPro && !t.prologue && t.proStage != 2

/-- Slots kept for the tiles of a team template: as many as the quota, which bounds them, where an empty core has as many
beside the quota, the pad and the grid template (R319, R321, R323). DEDUCED, log 35. -/
def Launch.teamTiles (l : Launch) (bspace : Bool) : Nat :=
  let grid := l.frozenAt.getD { pos := 0, tilesA := 0, tilesB := 0 }
  if bspace then Nat.min l.quotaB (Config.slotsB - (l.quotaB + grid.tilesB))
  else Nat.min l.quotaA (Config.slotsA - (l.quotaA + padSlots l.pad + grid.tilesA))

/-- A core that a team uses needs the full quota of the team's launch; for a team prologue, slots for its template
too. -/
def State.heldSlots (s : State) (core : Nat) (bspace : Bool) : Nat :=
  sumNat ((s.residents core).map fun t =>
    match s.launch t.launch with
    | none => 0
    | some l =>
      let q := if bspace then l.quotaB else l.quotaA
      q + (if t.awaitsTemplate l then l.teamTiles bspace else 0) +
        (if !bspace && t.padCore == core then padSlots l.pad else 0)) +
  sumNat ((s.core core).templates.vals.map fun b => b.tiles.countP fun x => x.1 == bspace)

/-- The free gang seats of a core. -/
def Core.freeSeats (c : Core) : List Nat := (List.range Config.seatCount).filter fun n => (c.seats.find n).isNone

/-- A template of a core's bank is referenced by a resident gang, or by a team that may still stamp from it
(R37, R38). -/
def State.templateUsed (s : State) (core : Nat) (k : TemplateKey) : Bool :=
  (s.gangs.vals.any fun g => g.core == core && g.seated && g.template == some k) ||
    (s.residents core).any fun t => k.team.isNone && t.launch == k.launch &&
      (match s.launch t.launch with | some l => t.awaitsTemplate l | none => false)

/-- Places of a core's bank that team prologues will take (R319). DEDUCED, log 35. -/
def State.templatePlacesPromised (s : State) (core : Nat) : Nat :=
  (s.residents core).countP fun t => match s.launch t.launch with | some l => t.awaitsTemplate l | none => false

/-- The templates a core's bank may evict, least recently used first (R37). -/
def State.evictable (s : State) (core : Nat) (keep : Option TemplateKey) : List (Nat × BankTemplate) :=
  sortBy (fun p => p.2.used) ((s.core core).templates.filter fun p =>
    p.2.due.isNone && !s.templateUsed core p.2.key && some p.2.key != keep)

/-- What a team asks of one core: gangs, registers beyond the reserve, the template to install, pad slots. -/
structure CoreNeed where
  launch : Nat
  gangs : Nat
  registers : Nat
  key : Option TemplateKey
  tilesA : Nat
  tilesB : Nat
  pad : Nat
  /-- further places of the bank, for a team template -/
  morePlaces : Nat
deriving DecidableEq, Repr

/-- Decode quotas that the dispatcher may not reclaim: those of launches with a team on the core (R353). -/
def State.keptQuota (s : State) (core launch : Nat) : Nat :=
  sumNat (((s.core core).quotas.filter fun q => q.1 != launch && (s.residents core).any fun t => t.launch == q.1).map
    Prod.snd)

/-- A core has what a team asks of it (R321). DEDUCED, log 35. -/
def State.coreFits (s : State) (core : Nat) (l : Launch) (n : CoreNeed) : Bool :=
  let c := s.core core
  let bank := c.templates.vals
  let installed := n.key.any fun k => bank.any fun b => b.key == k
  let places := (if n.key.isSome && !installed then 1 else 0) + n.morePlaces
  let evict := s.evictable core n.key
  let excess := bank.length + s.templatePlacesPromised core + places - Config.templatesPerCore
  let gone := (evict.take excess).map Prod.snd
  let back := fun (b : Bool) => sumNat (gone.map fun t => t.tiles.countP fun x => x.1 == b)
  let tiles := fun (b : Bool) => if installed || n.key.isNone then 0 else if b then n.tilesB else n.tilesA
  let promised := fun (b : Bool) => if n.morePlaces = 0 then 0 else l.teamTiles b
  decide (n.gangs ≤ c.freeSeats.length) &&
  decide (l.reserve * n.gangs + n.registers ≤ c.pool) &&
  decide (l.quotaA + n.pad + tiles false + promised false + s.heldSlots core false ≤ Config.slotsA + back false) &&
  decide (l.quotaB + tiles true + promised true + s.heldSlots core true ≤ Config.slotsB + back true) &&
  decide (l.banks * n.gangs + c.bankOwner.length ≤ Config.banksPerCore) &&
  decide (l.decodeQuota + s.keptQuota core n.launch ≤ Config.decodeSize) &&
  decide ((s.residents core ++ (s.residents (partnerOf core)).filter fun t => !t.cores.contains core).length < 32) &&
  decide (excess ≤ evict.length)

/-- The key of the template a team's gangs start from. -/
def Team.startKey (t : Team) (l : Launch) : Option TemplateKey :=
  if t.prologue then none
  else if t.frozenAt.isSome then some { launch := t.launch, team := some t.number }
  else if l.frozenAt.isSome then some { launch := t.launch, team := none }
  else none

/-- What a team asks of the cores of one side. DEDUCED, log 34. -/
def Team.need (t : Team) (l : Launch) (side : Nat) : CoreNeed :=
  let f := (if t.frozenAt.isSome then t.frozenAt else l.frozenAt).getD { pos := 0, tilesA := 0, tilesB := 0 }
  { launch := t.launch
    gangs := l.gangsOn (t.groupsOf l) side
    registers := (match t.saved with | some v => (v.privates[side]?).getD 0 + v.extra | none => 0)
    key := t.startKey l
    tilesA := f.tilesA, tilesB := f.tilesB
    pad := if side = 0 then padSlots l.pad else 0
    morePlaces := if t.awaitsTemplate l then 1 else 0 }

/-- A team fits on a core or the cores of a pair, with a span for its own template where it needs one (R35, R321). -/
def State.fits (s : State) (t : Team) (l : Launch) (cores : List Nat) : Bool :=
  (cores.zip (List.range 2)).all (fun p => s.coreFits p.1 l (t.need l p.2)) &&
    (!t.awaitsTemplate l || t.span.isSome || (s.allotSpan l.context l.spanBytes).isSome)

/-! ## Choosing cores and seats (R304, R320, R322) -/

/-- The pairs of a context's partition on a die. -/
def State.pairsOn (s : State) (ctx die : Nat) : List Nat :=
  match (s.context ctx).bind fun c => s.partitions.find c.partition with
  | some p => (List.range 16).filterMap fun k => if p.pairs.contains (16 * die + k) then some (16 * die + k) else none
  | none => []

/-- The cores, or the pairs of cores, that a team may take on a die. DEDUCED, log 34. -/
def State.seatsFor (s : State) (l : Launch) (die : Nat) : List (List Nat) :=
  (s.pairsOn l.context die).flatMap fun p => if l.pair then [[2 * p, 2 * p + 1]] else [[2 * p], [2 * p + 1]]

/-- A team fired from a strict-head queue (R304). -/
def State.strictQueue (s : State) (t : Team) : Bool :=
  t.fromQueue && match (s.queue (t.qbatch % 4096)).cfg with | some c => c.strict | none => false

/-- A team is placed first-fit behind a blocking head (R304, R314). -/
def State.strictTeam (s : State) (t : Team) (l : Launch) : Bool := l.strict || s.strictQueue t

/-- Free seats of some cores. -/
def State.freeSeatCount (s : State) (cores : List Nat) : Nat :=
  sumNat (cores.map fun k => (s.core k).freeSeats.length)

/-- The best of the places that fit: the lowest for a strict team, else the one with the most free seats (R304,
R322). -/
def State.bestPlace (s : State) (t : Team) (l : Launch) (die : Nat) : Option (List Nat) :=
  let fit := (s.seatsFor l die).filter (s.fits t l)
  if s.strictTeam t l then fit.head? else minBy (fun cs => 16 * 2 - s.freeSeatCount cs) fit

/-- The seat a gang takes: in the phase with the fewest occupied seats, the lowest; for a strict team simply the
lowest (R304, R322). -/
def Core.pickSeat (c : Core) (strict : Bool) : Nat :=
  let taken := fun (n : Nat) => (c.seats.keys.filter fun m => decide (m < 16) && m % 4 == n % 4).length
  (minBy (fun n => if strict then n else taken n * 16 + n) c.freeSeats).getD 0

/-! ## Gangs at dispatch (R36, R45, R46) -/

/-- A group as dispatch leaves it. -/
def Group.atDispatch (number : Nat) (args : Nat) : Group :=
  { number := number, s := Cells.set [] 0 (BitVec.ofNat 64 args), sAwait := [], c := 0, cAwait := [], fpflags := 0,
    fpmode := 0, trapcode := 0, guardPend := false, collide := false, visible := false, batch := 0, touch := none,
    openBatch := [], sealed := [], chain := false, lastCopy := none, bind := none, tokens := [], qh := [] }

/-- A gang as dispatch leaves it. -/
def Gang.atDispatch (launch context core seat width pos cls now : Nat) (groups : Tbl Group) : Gang :=
  { team := 0, launch := launch, context := context, core := core, seat := seat, seated := true, handler := false,
    prologue := false, teamPrologue := false, width := width, groups := groups,
    active := BitVec.ofNat 4 (groupMask groups.keys), pos := pos, resolving := false, fetch := .idle, folded := 0,
    v := [], vAwait := [], vFilled := [], inherited := 0, privates := 0, reserve := 0, template := none, p := [], lS := [],
    lV0 := [], lV1 := [], lC0 := [], lC1 := [], lC0s := [], lC1s := [], lC0tag := 0, lC1tag := 0, handles := [],
    inbox := [], log := [], logNext := 0, flights := [], longs := [], reconv := [], returns := [], horizon := 0,
    dictmiss := 0, cls := cls, lastIssue := none, agedFrom := now, aged := false, emptyUntil := 0, wake := 0,
    yieldTo := [], yieldUntil := none, sync := none, park := .none, wait := none, syncBar := [], trap := none,
    trapPos := 0, trapNext := 0, page := [], banks := [], heldPushes := 0, orderMark := none, orderPubs := [], stls := [], pubs := [],
    breakDone := false, breakNext := false }

/-- The groups of gang `k` of a team, by group position (R15). -/
def Launch.groupsIn (l : Launch) (groups k : Nat) : Tbl Group :=
  let per := 64 / l.width
  (List.range per).filterMap fun i =>
    let n := k * per + i
    if n < groups then some (i, Group.atDispatch n l.args) else none

/-- The gang of a team with its groups at dispatch, parked until it is stamped or started. DEDUCED, log 55. -/
def Team.makeGang (t : Team) (tid : Nat) (l : Launch) (k core seat now : Nat) (banks : List Nat) : Gang :=
  let alone := t.awaitsTemplate l && k == 0
  let groups := l.groupsIn (if alone then 1 else t.groupsOf l) k
  { Gang.atDispatch t.launch l.context core seat l.width l.entry t.cls now groups with
    team := tid, prologue := t.prologue, teamPrologue := alone, reserve := l.reserve, banks := banks, park := .install
    template := if t.awaitsTemplate l && k != 0 then none else t.startKey l }

/-! ## The template bank (R37) -/

/-- The span that holds a template's image. -/
def State.imageAt (s : State) (k : TemplateKey) : Nat :=
  let span := match k.team with
    | none => (s.launch k.launch).bind fun l => l.span
    | some n => (s.teams.pick fun t => t.launch == k.launch && t.number == n && !t.prologue).bind fun p => p.2.span
  match span with | some x => x.1 | none => 0

/-- Bytes of a template's image; a page that does not map reads as zero. -/
def State.imageBytes (s : State) (ctx va n : Nat) : List Byte :=
  match s.readCtx ctx va n with
  | .ok bs => bs
  | .error _ => List.replicate n 0

/-- Evicts templates until a place is free (R37). -/
def State.evictTemplates (s : State) (core : Nat) : Nat → State
  | 0 => s
  | fuel + 1 =>
    if (s.core core).templates.length + s.templatePlacesPromised core < Config.templatesPerCore then s
    else
      match s.evictable core none with
      | [] => s
      | (id, t) :: _ =>
        let s := t.tiles.foldl (fun s x => s.dropSlot core x.1 x.2) s
        State.evictTemplates (s.updCore core fun c => { c with templates := c.templates.del id }) core fuel

/-- Begins installing a template on a core, unless its bank has it (R37): its tile slots are taken at once. -/
def State.beginInstall (s : State) (core : Nat) (k : TemplateKey) (f : Frozen) : State :=
  match (s.core core).templates.pick fun b => b.key == k with
  | some (id, b) => s.updCore core fun c => { c with templates := c.templates.put id { b with used := s.time } }
  | none =>
    match s.launch k.launch with
    | none => s
    | some l =>
      let s := s.evictTemplates core 4
      let (id, s) := s.fresh
      let take := fun (acc : List (Bool × Nat) × State) (b : Bool) =>
        let (n, s) := acc.2.takeSlot core l.context b (.template id)
        (acc.1 ++ [(b, n)], s)
      let (tiles, s) := (List.replicate f.tilesA false ++ List.replicate f.tilesB true).foldl take ([], s)
      let base := s.imageAt k
      let path := match s.pageKey l.context base .read with
        | .ok key => s.pathTo (dieOf core) (lineOf key)
        | .error _ => 0
      let t := s.time + path + (1024 + 256 * l.width + 16384 * tiles.length + 127) / 128
      let b : BankTemplate := { key := k, v := [], s := [], p := [], c := 1, fpmode := 0, handles := [], tiles := tiles,
                                used := s.time, due := some t }
      (s.updCore core fun c => { c with templates := c.templates.put id b }).at t (.templateInstall core id)

/-- A handle of a template: number, space, template tile. -/
def imageHandles (h : List Byte) : List (Nat × Bool × Nat) :=
  (List.range 64).filterMap fun n =>
    let e := fieldOf h (0x144 + 8 * n) 8
    if e % 8 = 2 then some (n, natBit e 3, bitsOf e 15 8) else none

/-- Sparse words of consecutive little-endian values. -/
def cellsOf {w : Nat} (at_ : Nat → Nat) (vals : List Nat) : Cells w :=
  ((List.range vals.length).zip vals).foldl (fun c p => c.set (at_ p.1) (BitVec.ofNat w p.2)) []

/-- Reads the template's image into its place of the bank (R35, R37, R400). Tile slots are given to the image's tiles
in order, each in its own space. -/
def State.readTemplate (s : State) (core : Nat) (b : BankTemplate) : BankTemplate × State :=
  match s.launch b.key.launch with
  | none => (b, s)
  | some l =>
    let base := s.imageAt b.key
    let h := s.imageBytes l.context base 1024
    let vs := s.imageBytes l.context (base + 0x400) (256 * l.width)
    let handles := imageHandles h
    let order := sortBy (fun x => x.2.2) handles
    let slots := order.foldl (fun (acc : List (Bool × Nat) × List (Bool × Nat)) x =>
      match acc.2.find? fun t => t.1 == x.2.1 with
      | some t => (acc.1 ++ [t], eraseFirst (· == t) acc.2)
      | none => acc) ([], b.tiles)
    let fill := fun (s : State) (p : Nat × Bool × Nat) =>
      let bytes := s.imageBytes l.context (base + 0x5000 + 16384 * p.1) 16384
      let a := tileKey core p.2.1 p.2.2 0
      s.setSlotCells core p.2.1 p.2.2 (cellsOf (fun i => a + i) (bytes.map BitVec.toNat))
    let s := ((List.range slots.1.length).zip slots.1).foldl (fun s p => fill s (p.1, p.2)) s
    ({ b with
       v := cellsOf (fun i => i / l.width * 64 + i % l.width)
         ((List.range (64 * l.width)).map fun i => fieldOf (vs.drop (4 * i)) 0 4)
       s := cellsOf id ((List.range 32).map fun i => fieldOf h (8 * i) 8)
       p := cellsOf (· + 1) ((List.range 7).map fun i => fieldOf h (0x100 + 8 * i) 8)
       c := BitVec.ofNat 8 (fieldOf h 0x138 1), fpmode := BitVec.ofNat 2 (fieldOf h 0x139 1)
       handles := handles, tiles := slots.1 ++ slots.2, due := none, used := s.time }, s)

/-! ## Stamping and starting gangs (R36, R39) -/

/-- Stamps a gang from a template: every group takes its image at its own lanes. DEDUCED, log 33. -/
def Gang.stamp (g : Gang) (b : BankTemplate) (pos : Nat) : Gang :=
  let ks := g.groups.keys
  let lanes := fun (k : Nat) (p : Nat × Word32) => (p.1 / 64 * 64 + k * g.width + p.1 % 64, p.2)
  let preds := fun (c : Cells 64) (x : Nat × Word64) =>
    c.set x.1 (ks.foldl (fun m k => m ||| x.2 <<< (k * g.width)) 0)
  { g with
    groups := g.groups.mapAll fun x => { x with s := b.s, c := b.c, fpmode := b.fpmode }
    v := ks.foldl (fun v k => v.setAll (b.v.map (lanes k))) []
    inherited := BitVec.allOnes 64
    p := b.p.foldl preds []
    handles := b.handles.foldl (fun t h => t.put h.1 { state := .template, ref := .template h.2.1 h.2.2, gen := 0,
                                                       released := [] }) []
    pos := pos }

/-- The recorded position of a template. -/
def State.frozenPos (s : State) (k : TemplateKey) : Nat :=
  let f := match k.team with
    | none => (s.launch k.launch).bind fun l => l.frozenAt
    | some n => (s.teams.pick fun t => t.launch == k.launch && t.number == n && !t.prologue).bind fun p => p.2.frozenAt
  match f with | some x => x.pos | none => 0

/-- Starts a gang that waits to be stamped or started, once its template stands in its core's bank (R36, R37, R319).
It begins with an acquire at package scope (R281). DEDUCED, log 33. -/
def State.startGang (s : State) (gid : Nat) : State :=
  match s.gang gid with
  | none => s
  | some g =>
    if g.park != .install then s
    else
      let go := fun (g : Gang) =>
        let s := s.putGang gid { g with park := .none, agedFrom := s.time, lastIssue := none }
        s.beginSync gid (s.bundles * 8) false true []
      match g.template with
      | none => go g
      | some k =>
        match s.bankTemplate g with
        | some b => if b.due.isNone then go (g.stamp b (s.frozenPos k)) else s
        | none => s

/-- The gangs of a placed team that may start: of a team prologue, only group 0's gang (R319). DEDUCED, log 55. -/
def State.startTeam (s : State) (tid : Nat) : State :=
  match s.team tid with
  | none => s
  | some t =>
    if t.phase != .placed then s
    else
      let waits := match s.launch t.launch with | some l => t.awaitsTemplate l | none => false
      (if waits then t.gangs.take 1 else t.gangs).foldl State.startGang s

/-- TEMPLATE_INSTALL (R37): the template stands in the bank, and the gangs that waited for it start. -/
def execTemplateInstall (core install : Nat) (s : State) : Host.Outcome State Fault Refusal :=
  match (s.core core).templates.find install with
  | none => .next s
  | some b =>
    match b.due with
    | none => .next s
    | some t =>
      if s.time < t then .next s
      else
        let (b, s) := s.readTemplate core b
        let s := s.updCore core fun c => { c with templates := c.templates.put install b }
        .next ((s.teams.filter fun p => p.2.cores.contains core).foldl (fun s p => s.startTeam p.1) s)

/-! ## Taking and returning resources -/

/-- A core is to hold work: one in A1 or on a die in A2 issues its first bundle only after its exit (R389, R390).
DEDUCED, log 87. -/
def State.wakeCore (s : State) (core : Nat) : State :=
  let die := dieOf core
  if (s.parkedDies.find die).isSome then
    let t := s.time + 50000
    let out := s.outTime.getD die 0 + (s.time - s.parkedDies.getD die s.time)
    let s := { s with parkedDies := s.parkedDies.del die,
                      outTime := s.outTime.put die out }
    (List.range Config.coresPerDie).foldl (fun s i =>
      s.updCore (die * Config.coresPerDie + i) fun c => { c with power := .a0, wakeAt := t, idleFrom := t }) s
  else if (s.core core).power = .a1 then s.updCore core fun c => { c with power := .a0, wakeAt := s.time + 2000 }
  else s

/-- Takes a launch's decode quota on a core, reclaiming the quotas of launches without a team there, the least
recently placed first (R353). -/
def State.takeQuota (s : State) (core launch quota : Nat) : State :=
  let c := s.core core
  let others := c.quotas.filter fun q => q.1 != launch
  let idle := others.filter fun q => !(s.residents core).any fun t => t.launch == q.1
  let total := sumNat (others.map Prod.snd) + quota
  let (_, gone) := idle.foldl (fun (acc : Nat × List Nat) q =>
    if acc.1 ≤ Config.decodeSize then acc else (acc.1 - q.2, acc.2 ++ [q.1])) (total, [])
  (s.putCore core { c with quotas := (others.filter fun q => !gone.contains q.1) ++ [(launch, quota)],
                           decode := c.decode.filter fun e => !gone.contains e.launch,
                           refills := c.refills.filter fun r => r.2.handler || !gone.contains r.2.launch }).startRefills core

/-- The lowest free accumulator banks of a core. -/
def Core.freeBanks (c : Core) : List Nat := (List.range Config.banksPerCore).filter fun b => (c.bankOwner.find b).isNone

/-- Makes banks zero and of kind F32, as a gang has them when it is dispatched or stamped (R36, R65, R239). -/
def State.zeroBanks (s : State) (core : Nat) (banks : List Nat) : State :=
  let s := s.updCore core fun c => { c with kinds := banks.foldl (fun t b => t.put b 0) c.kinds }
  banks.foldl (fun s b => s.setBank core b fun _ _ => 0) s

/-- Gives a gang its banks. -/
def State.takeBanks (s : State) (core gid n : Nat) : List Nat × State :=
  let banks := (s.core core).freeBanks.take n
  let s := s.updCore core fun c => { c with bankOwner := banks.foldl (fun t b => t.put b gid) c.bankOwner }
  (banks, s.zeroBanks core banks)

/-- Seats the gangs of a team, with their registers and banks. -/
def State.seatGangs (s : State) (tid : Nat) (t : Team) (l : Launch) (cores : List Nat) (strict : Bool) : State :=
  (List.range (l.gangCount (t.groupsOf l))).foldl (fun s k =>
    let core := (cores[if l.pair then k % 2 else 0]?).getD 0
    let (gid, s) := s.fresh
    let seat := (s.core core).pickSeat strict
    let (banks, s) := s.takeBanks core gid l.banks
    let g := t.makeGang tid l k core seat s.time banks
    let s := s.updCore core fun c => { c with seats := c.seats.put seat gid, pool := c.pool - l.reserve }
    (s.putGang gid g).updTeam tid fun t => { t with gangs := t.gangs ++ [gid] }) s

/-- The pad's slots (R66). -/
def State.takePad (s : State) (tid core ctx : Nat) : Nat → State
  | 0 => s
  | n + 1 => State.takePad (s.takeSlot core ctx false (.pad tid)).2 tid core ctx n

/-- One more pass-over of every pending fired team of the die that is older than the team placed (R303, R311).
DEDUCED, log 104. -/
def State.passOver (s : State) (die place : Nat) : State :=
  let up := fun (t : Team) =>
    if t.phase == .pending && t.die == die && t.fromQueue && decide (t.place < place) then { t with passed := t.passed + 1 } else t
  { s with teams := s.teams.mapAll up }

/-! ## Pending teams (R301, R316, R320) -/

/-- The die of its partition with the fewest placed and pending teams (R320). -/
def State.quietDie (s : State) (ctx : Nat) : Nat :=
  let dies := (List.range Config.dieCount).filter fun d => !(s.pairsOn ctx d).isEmpty
  (minBy (fun d => s.teams.vals.countP fun t => t.die == d && (t.phase == .pending || t.resident)) dies).getD 0

/-- A pending team. -/
def Team.make (launch number die cls place qbatch : Nat) (prologue fired : Bool) : Team :=
  { launch := launch, number := number, phase := .pending, die := die, cores := [], gangs := [], cls := cls,
    records := [], bars := [], pad := [], padCore := 0, freeA := 0, freeB := 0, qbatch := qbatch, firing := fired,
    claimWaits := [], order := 0, deadline := none, status := 0, deadlocked := false, proStage := 0,
    span := none, frozenAt := none, prologue := prologue, lastTrap := 0, passed := 0, place := place, saved := none,
    stopAt := 0, taken := [], again := false }

/-- Makes a team pending. -/
def State.pend (s : State) (t : Nat → Team) : State :=
  let (id, s) := s.fresh
  { s with teams := s.teams.put id (t id) }

/-- A launch's next team becomes pending, where the one before it has been placed; a restarted team, which waits to be
placed again, does not count (R316, R344). DEDUCED, log 68. -/
def State.pendNext (s : State) (launch : Nat) : State :=
  match s.launch launch with
  | none => s
  | some l =>
    if l.stage = 2 && !l.fired && decide (l.cursor < l.count) && !l.preempted &&
        !(s.teams.vals.any fun t => t.launch == launch && t.phase == .pending && !t.prologue && t.order == 0) then
      let die := s.quietDie l.context
      (s.pend fun id => Team.make launch l.cursor die l.cls id 0 false false).updLaunch launch fun l =>
        { l with cursor := l.cursor + 1, stage := if l.cursor + 1 = l.count then 3 else 2 }
    else s

/-- PROLOGUE_DISPATCH (R34, R317): an accepted launch's prologue team becomes pending, to be placed like a team of
one group; no queue has fired it (R320). -/
def execPrologueDispatch (launch : Nat) (s : State) : Host.Outcome State Fault Refusal :=
  match s.launch launch with
  | none => .next s
  | some l =>
    if l.stage = 0 then
      let die := s.quietDie l.context
      .next ((s.pend fun id => Team.make launch 0 die l.cls id 0 true false).updLaunch launch fun l => { l with stage := 1 })
    else .next s

/-! ## Placement (R303, R304, R311, R320 to R322) -/

/-- A pending team of a STRICT launch or of a strict-head queue (R304, R314). -/
def State.strictPending (s : State) (t : Team) : Bool :=
  match s.launch t.launch with
  | some l => s.strictTeam t l
  | none => s.strictQueue t

/-- A team waits on its die. DEDUCED, log 104. -/
def Team.waitsOn (t : Team) (die : Nat) : Bool := t.phase == .pending && t.die == die

/-- A pending team may be placed at all: its launch exists, is not stopped, and its prologue has run (R301, R316,
R336). DEDUCED, log 104. -/
def State.mayPlace (s : State) (t : Team) : Bool :=
  match s.launch t.launch with
  | none => false
  | some l => !l.preempted && (t.prologue || (decide (2 ≤ l.stage) && (!l.fired || l.frozenAt.isSome)))

/-- A pending team's launch has been stopped by a PREEMPT (R336). -/
def State.stoppedTeam (s : State) (t : Team) : Bool := match s.launch t.launch with | some l => l.preempted | none => false

/-- A fired team that has been passed over 8 times drains its die (R303); one of a strict-head queue never does (R311). -/
def State.drains (s : State) (t : Team) : Bool := t.fromQueue && decide (8 ≤ t.passed) && !s.strictPending t

/-- The team that drains a die: of the pending ones that do, the oldest (R303, R311). DEDUCED, log 104. -/
def State.draining (s : State) (die : Nat) : Option (Nat × Team) :=
  minBy (fun p : Nat × Team => p.2.place) (s.teams.filter fun p => p.2.waitsOn die && s.drains p.2 && !s.stoppedTeam p.2)

/-- A drain lets a team through: the draining team, or a prologue that a draining team waits for, on its die or another.
DEDUCED, log 104. -/
def State.drainLets (s : State) (die tid : Nat) (t : Team) : Bool :=
  (s.draining die).all fun p => p.1 == tid ||
    (t.prologue && s.teams.vals.any fun o => o.phase == .pending && s.drains o && !s.stoppedTeam o && o.launch == t.launch)

/-- A strict head keeps a younger team off its die: it does not fit, or still waits for its prologue; one that waits for its
prologue gives way to a drain (R303, R304). DEDUCED, log 104. -/
def State.headBars (s : State) (die : Nat) (o t : Team) : Bool :=
  s.strictPending o && !s.stoppedTeam o && decide (o.place < t.place) &&
  if s.mayPlace o then (s.launch o.launch).all fun l => (s.bestPlace o l o.die).isNone else (s.draining die).isNone

/-- The die lets a team be placed or restored. -/
def State.dieOpen (s : State) (die tid : Nat) (t : Team) : Bool :=
  s.drainLets die tid t && !s.teams.any fun (i, o) => i != tid && o.waitsOn die && s.headBars die o t

/-- A pending team can be placed on its die now. DEDUCED, log 34. -/
def State.placeOf (s : State) (tid : Nat) (t : Team) : Option (List Nat) :=
  match s.launch t.launch with
  | none => none
  | some l =>
    if t.phase == .pending && s.mayPlace t && s.dieOpen t.die tid t then s.bestPlace t l t.die else none

/-- A saved team may be restored now: no PREEMPT of its launch is in force, and no page of its save is waited for (R336,
R338). -/
def State.mayRestore (s : State) (tid : Nat) (t : Team) : Bool :=
  t.phase == .saved && !s.stoppedTeam t && !(s.faults.vals.any fun f => f.clients.contains (.save tid))

/-- The cores of a die that a saved team can be restored on now: the die lets it in as it does a pending team (R303, R311,
R337, R342). -/
def State.restoreOn (s : State) (tid : Nat) (t : Team) (die : Nat) : Option (List Nat) :=
  match s.launch t.launch with
  | none => none
  | some l => if s.mayRestore tid t && s.dieOpen die tid t then s.bestPlace t l die else none

/-- The team that a die takes next, with whether it is restored: the oldest in the pending order that fits, in which a
saved team keeps its place (R303, R337). -/
def State.nextPlacement (s : State) (die : Nat) : Option (Nat × Bool) :=
  ((sortBy (fun p => p.2.place) (s.teams.filter fun p => p.2.waitsOn die || p.2.phase == .saved)).find? fun p =>
      (s.placeOf p.1 p.2).isSome || (s.restoreOn p.1 p.2 die).isSome).map
    fun p => (p.1, p.2.phase == .saved)

/-- Takes what a team needs on its cores, and starts the templates' installs (R319, R321, R353). -/
def State.takeCores (s : State) (tid : Nat) (t : Team) (l : Launch) (cores : List Nat) : State :=
  let s := cores.foldl (fun s k => (s.wakeCore k).takeQuota k t.launch l.decodeQuota) s
  let s := s.updTeam tid fun t => { t with phase := .placed, cores := cores, padCore := cores.headD 0, order := s.nextId,
                                           die := dieOf (cores.headD 0) }
  let s := s.takePad tid (cores.headD 0) l.context (padSlots l.pad)
  match t.startKey l with
  | none => s
  | some k =>
    let f := (if t.frozenAt.isSome then t.frozenAt else l.frozenAt).getD { pos := 0, tilesA := 0, tilesB := 0 }
    cores.foldl (fun s core => s.beginInstall core k f) s

/-- Places a team on cores (R317, R319, R321, R322): barriers, pad, quotas and gangs as at dispatch. -/
def State.placeTeam (s : State) (tid : Nat) (cores : List Nat) : State :=
  match s.team tid with
  | none => s
  | some t =>
    match s.launch t.launch with
    | none => s
    | some l =>
      let s := s.takeCores tid t l cores
      let s := s.updTeam tid fun t =>
        { t with bars := (List.range 8).map (fun b => (b, Barrier.atDispatch (t.groupsOf l))), pad := [],
                 freeA := l.quotaA, freeB := l.quotaB, records := [], gangs := [],
                 proStage := if t.awaitsTemplate l then 1 else 0 }
      let s := if t.awaitsTemplate l && t.span.isNone then
          match s.allotSpan l.context l.spanBytes with
          | some (a, s) => s.updTeam tid fun t => { t with span := some (a, l.spanBytes) }
          | none => s
        else s
      let s := s.seatGangs tid t l cores (s.strictTeam t l)
      ((s.passOver t.die t.place).pendNext t.launch).startTeam tid

end Sys2Proof.Machine
end

