-- ==== Sys2Proof/Machine/Ending.lean ====
section
/-! DEFINITION. How gangs and teams end: STOP, FREEZE's snapshot, gangs leaving their seats, killed teams, and the
completion of teams and launches (R34, R35, R38, R101, R145, R318, R319, R324, R325, R335). -/

namespace Sys2Proof.Machine

/-! ## STOP -/

/-- STOP (R101): every group of the gang ends as if each had executed EXIT. A pending GUARD is raised at fetch.
DEDUCED, log 27. -/
def execStop (s : State) : Host.Outcome State Fault Refusal :=
  runOp
    (fun _ c g =>
      match guardTrap c g g.liveGroups with
      | some t => .trap { t with slot := 0xFF }
      | none => holdIf (g.sealsFull [] g.liveGroups) .other)
    (fun s c g => s.updGang c.gid fun x => (x.endGroups g.liveGroups).afterEnd s.beat) s

/-! ## FREEZE (R34) -/

/-- The records of a gang whose shadow is still to be published by its FREEZE. -/
def State.freezePublishes (s : State) (g : Gang) : List Nat :=
  (g.handles.vals.filterMap fun e =>
    match e.state, e.ref with
    | .shadowPending, .record id =>
      match s.record g.team id with
      | some r => if r.publishing.isEmpty then some id else none
      | none => none
    | _, _ => none).eraseDups

/-- No copy batch of the gang is unretired. -/
def Gang.batchesDone (g : Gang) : Bool := g.groups.vals.all fun x => x.openBatch.isEmpty && x.sealed.isEmpty

/-- What FREEZE waits for is done (R34). -/
def State.freezeQuiet (s : State) (gid : Nat) (g : Gang) : Bool :=
  g.longs.isEmpty && g.flights.isEmpty && g.batchesDone && g.pubs.isEmpty &&
  !((s.core g.core).index.any fun j => j.gid == gid) && !((s.core g.core).matOps.any fun o => o.gid == gid)

/-- The tiles of a gang's template: handle, space and slot, in ascending handle number (R34, R35). -/
def State.freezeTiles (s : State) (g : Gang) : List (Nat × Bool × Nat) :=
  g.handles.filterMap fun p =>
    if p.2.state = .free then none else (s.tileOf g p.2).map fun t => (p.1, t.bspace, t.slot)

/-- The span of a gang's template, and what FREEZE records of it. DEDUCED, log 63. -/
def State.freezeSpan (s : State) (g : Gang) : Nat :=
  let span := if g.prologue then (s.launch g.launch).bind fun l => l.span
    else (s.team g.team).bind fun t => t.span
  match span with | some x => x.1 | none => 0

def State.frozenOf (s : State) (g : Gang) : Frozen :=
  let ts := s.freezeTiles g
  { pos := g.pos, tilesA := ts.countP fun t => !t.2.1, tilesB := ts.countP fun t => t.2.1 }

/-- The image's header (R35, R400). -/
def imageHeader (g : Gang) (x : Group) (tiles : List (Nat × Bool × Nat)) : List Byte :=
  let entry := fun (h : Nat) =>
    match ((List.range tiles.length).zip tiles).find? fun t => t.2.1 == h with
    | some (n, _, b, _) => 2 + b.toNat * 8 + n * 256
    | none => 0
  let low := fun (n : Nat) => (g.p.get n).toNat % 2 ^ g.width
  ((List.range 32).flatMap fun k => bytesLE 8 (x.s.get k).toNat) ++
  ((List.range 7).flatMap fun n => bytesLE 8 (low (n + 1))) ++
  (bytesLE 1 (x.c.toNat / 2 * 2 + 1) ++ bytesLE 1 x.fpmode.toNat ++ bytesLE 6 0) ++
  bytesLE 2 g.width ++ bytesLE 2 tiles.length ++ ((List.range 64).flatMap fun h => bytesLE 8 (entry h)) ++
  List.replicate (1024 - 0x344) 0

/-- Writes a gang's template image to its span (R35). -/
def State.writeImage (s : State) (g : Gang) : State :=
  let tiles := s.freezeTiles g
  let base := s.freezeSpan g
  let x := (g.group 0).getD (Group.atDispatch 0 0)
  let s' := s.writeVirt g.context base (imageHeader g x tiles)
  let vs := (List.range 64).flatMap fun r => (List.range g.width).flatMap fun i => bytesLE 4 (g.vreg r i).toNat
  let s' := s'.writeVirt g.context (base + 0x400) vs
  ((List.range tiles.length).zip tiles).foldl (fun s' (n, _, b, slot) =>
    s'.writeVirt g.context (base + 0x5000 + 16384 * n) (s.tiles.getRun (tileKey g.core b slot 0) 16384)) s'

/-- The cycle FREEZE ends: 64 cycles, the path to the image's home and the image's bytes (R34). DEDUCED, log 63. -/
def State.freezeEnd (s : State) (g : Gang) : Nat :=
  let path := match s.keyOf g.context (s.freezeSpan g) with
    | some k => s.writePathTo (dieOf g.core) (lineOf k)
    | none => 0
  s.time + Config.freezeCycles + path + (0x5000 + 16384 * (s.freezeTiles g).length + 127) / 128

/-- Registers of a gang beyond the reserve it was given. -/
def Gang.extraRegisters (g : Gang) (reserve : Nat) : Nat := g.privates + g.reserve - reserve

def Launch.reserveOf : Option Launch → Nat
  | some l => l.reserve
  | none => 0

/-- Unbinds the latches of a team's groups: what they held or awaited returns (R220, R344). -/
def State.unbindAll (s : State) (t : Team) : State :=
  s.unbind (t.gangs.flatMap fun gid =>
    match s.gang gid with
    | none => []
    | some g => g.groups.keys.flatMap fun k => (List.range 4).map fun n => (gid, k, n))

/-- A gang stamped anew in its seat goes on with what the one before it had issued and not completed: entries of the operand
log, releases, pushes held; and a group stays visible (R34, R38, R53). DEDUCED, log 121. -/
def Gang.carry (new g : Gang) : Gang :=
  { new with
    log := g.log, logNext := g.logNext, horizon := g.horizon, sync := g.sync, orderMark := g.orderMark
    orderPubs := g.orderPubs, stls := g.stls, pubs := g.pubs, page := g.page, heldPushes := g.heldPushes
    groups := new.groups.map fun (k, x) => (k, { x with visible := match g.group k with | some y => y.visible | none => false }) }

/-- Starts every gang of a team afresh, from the template it now has (R38, R319): the groups in `gone` have ended. The
latches start unbound and empty, so what those of group 0 held or awaited returns (R45, R69, R220). DEDUCED, log 58. -/
def State.restartGangs (s : State) (tid : Nat) (gone : Nat → Bool) : State :=
  match s.team tid with
  | none => s
  | some t =>
    match s.launch t.launch with
    | none => s
    | some l =>
      let one := fun (s : State) (p : Nat × Nat) =>
        match s.gang p.2 with
        | none => s
        | some g =>
          let new := (t.makeGang tid l p.1 g.core g.seat s.time g.banks).carry g
          let token := fun (x : Group) => (List.range 8).foldl (fun x b => x.setToken b (t.bar b).phase) x
          let new := { new with groups := new.groups.mapAll token
                                active := bvMask 4 fun k => new.active.getLsbD k && !gone (new.groupNumber k) }
          ((s.putGang p.2 new).zeroBanks g.core g.banks).freeRegisters g.core (g.extraRegisters l.reserve)
      let s := ((List.range t.gangs.length).zip t.gangs).foldl one (s.unbindAll t)
      let s := s.sweep tid
      let s := match t.startKey l with
        | none => s
        | some k =>
          let f := (if t.frozenAt.isSome then t.frozenAt else l.frozenAt).getD { pos := 0, tilesA := 0, tilesB := 0 }
          t.cores.foldl (fun s core => s.beginInstall core k f) s
      s.startTeam tid

/-- FREEZE_SNAPSHOT (R34, R38): asks for the publications, takes the snapshot once all is quiet, and at the end of
its time records the template; the prologue group ends, or the team is stamped from its template. -/
def execFreezeSnapshot (gid : Nat) (s : State) : Host.Outcome State Fault Refusal :=
  match s.gang gid with
  | none => .next s
  | some g =>
    match g.park with
    | .freezing =>
      match s.freezePublishes g with
      | id :: _ =>
        .next (s.publish gid (s.bundles * 8) g id)
      | [] =>
        if s.freezeQuiet gid g then
          let t := s.freezeEnd g
          let s := s.putGang gid { g with park := .frozen, wake := t }
          let s := if g.prologue then s.updLaunch g.launch fun l => { l with segSealed := true } else s
          .next (s.at t (.freezeSnapshot gid))
        else .next s
    | .frozen =>
      if s.time < g.wake then .next s
      else
        let f := s.frozenOf g
        let s := s.writeImage g
        if g.prologue then
          let s := s.updLaunch g.launch fun l => { l with frozenAt := some f }
          .next (s.putGang gid ((({ g with park := .none } : Gang).endGroups g.liveGroups).afterEnd s.beat))
        else
          let s := s.updTeam g.team fun t => { t with frozenAt := some f, proStage := 2 }
          .next (s.restartGangs g.team fun _ => false)
    | _ => .next s

/-! ## Killing a team (R335) -/

/-- Withdraws every claim of some gangs that a test selects; records on their way return (R339). -/
def State.withdrawClaims (s : State) (gangs : List Nat) (p : Claim → Bool) : State :=
  let (l, s) := s.dropClaims fun c => gangs.contains c.gid && p c
  s.returnRecords l

/-- Withdraws the pushes of some gangs that are held at the Hive (R335). -/
def State.withdrawPushes (s : State) (gangs : List Nat) : State :=
  let mine := (s.pushes.filter fun p => p.2.gid.any gangs.contains).map Prod.fst
  let held := mine.filter fun i => s.queues.vals.any fun q => q.held.contains i
  { s with queues := s.queues.mapAll fun q => { q with held := q.held.filter fun i => !held.contains i }
           pushes := s.pushes.filter fun p => !held.contains p.1 }

/-- A tile copy: one that moves bytes into a tile. -/
def Copy.toATile (x : Copy) : Bool := x.kind == .toTile || x.kind == .tileTile

/-- Abandons the tile copies of a gang: they leave their batches, and their shadows are discarded (R335, R338). -/
def State.abandonCopies (s : State) (gid : Nat) : State :=
  let gone := (s.copies.filter fun p => p.2.gid == gid && p.2.toATile).map Prod.fst
  let records := (s.copies.vals.filter fun x => x.gid == gid && x.toATile).filterMap fun x => x.record
  let left := fun (l : List Nat) => l.filter fun i => !gone.contains i
  let clear := fun (y : Group) =>
    { y with openBatch := left y.openBatch, sealed := y.sealed.map fun b => { b with copies := left b.copies } }
  let s := { s with copies := s.copies.filter fun p => !gone.contains p.1 }
  let s := s.updGang gid fun g => { g with groups := g.groups.mapAll clear }
  match s.gang gid with
  | none => s
  | some g => s.updTeam g.team fun t =>
      { t with records := t.records.map fun (i, r) =>
          (i, if records.contains i then { r with shadows := [], publishing := [] } else r) }

/-- Takes a gang out of everything on its core that could start it again; its mailbox exchanges go on (R226). DEDUCED,
log 48, 69. -/
def Core.forget (c : Core) (gid : Nat) : Core :=
  { c with trapped := c.trapped.filter (fun i => i != gid), index := c.index.filter (fun j => j.gid != gid), setAside := c.setAside.filter (fun j => j.gid != gid) }

/-- Takes a gang out of everything on a core that could start it again, and out of the order of those parked for registers
(R44). -/
def State.forgetGang (s : State) (core gid : Nat) : State := (s.updCore core fun c => c.forget gid).leaveParked core (· == gid)

/-- A withdrawn index job as it is queued again: it reads its registers anew (R183). -/
def IndexJob.again (j : IndexJob) : IndexJob :=
  { j with banks := banksOf (j.names.map Prod.snd), started := false, blocked := false, vals := if j.dest.isSome then [] else j.vals }

/-- An index job at the head of a core's port will not complete: it is held on an empty register (R183). -/
def State.portHeld (s : State) (core : Nat) : Bool :=
  match (s.core core).index with
  | j :: _ => (match s.gang j.gid with | some g => j.heldNow g | none => false)
  | [] => false

/-- Elements of a pending write that are not performed. -/
def Gang.unperformed (g : Gang) (id : Nat) : Nat :=
  sumNat ((g.log.filter fun le => le.long == some id).map fun le => le.elems.countP fun e => !e.performed)

/-- A gang of a team that is killed stops at its bundle boundary (R335, R338). DEDUCED, log 56. -/
def State.killStop (s : State) (gid : Nat) : State :=
  match s.gang gid with
  | none => s
  | some g =>
    if g.park = .ended ∨ g.park = .killed then s
    else
      let s := ((s.leaveParked g.core (· == gid)).updCore g.core fun c =>
        { c with trapped := c.trapped.filter fun i => i != gid }).dropMbox g.core [gid]
      s.updGang gid fun g =>
        { g with park := .killed, fetch := .idle, wait := none, trap := none, page := [], syncBar := [], yieldTo := [],
                 yieldUntil := none, heldPushes := 0 }

/-- What a stopped gang of a killed team still completes: fixed results, index jobs that can, its queued matrix operations,
the accesses performed, divisions and LAUNCH results (R335, R338 steps 2 and 3). DEDUCED, log 56. -/
def State.killSettled (s : State) (gid : Nat) (g : Gang) : Bool :=
  g.flights.isEmpty && (s.portHeld g.core || !((s.core g.core).index.any fun j => j.gid == gid)) &&
  !((s.core g.core).matOps.any fun o => o.gid == gid) && !((s.core g.core).divider.any fun j => j.gid == gid) &&
  (g.longs.all fun p => p.2.want != 0 && (!p.2.logged || decide (p.2.want ≤ g.unperformed p.1))) &&
  !(s.submits.any fun p => (match p.2.from_ with | .group i _ _ => i == gid | _ => false) &&
      !(s.afters.vals.any fun a => a == .launch p.1))

/-- The stop of a killed gang is over: what is left of its accesses, copies and index jobs is discarded, and it leaves its
seat as a gang whose groups have ended does (R335). DEDUCED, log 69. -/
def State.killGang (s : State) (gid : Nat) : State :=
  match s.gang gid with
  | none => s
  | some g =>
    if g.park = .ended then s
    else
      let s := ((s.abandonCopies gid).forgetGang g.core gid).dropMbox g.core [gid]
      s.updGang gid fun g =>
        { g.endGroups g.liveGroups with
          active := 0, reconv := [], park := .ending, fetch := .idle, wait := none, trap := none, page := [], log := [],
          longs := [], syncBar := [], pubs := [], yieldTo := [], yieldUntil := none, heldPushes := 0 }

/-- A handler run of a launch goes on. DEDUCED, log 67. -/
def State.runsFor (s : State) (launch : Nat) : Bool := s.gangs.vals.any fun g => g.handler && g.seated && g.launch == launch

/-- Drops the record of a launch that has completed, and the handler entries on a core, once no run of it goes on.
DEDUCED, log 67. -/
def State.forgetLaunch (s : State) (n core : Nat) : State :=
  match s.launch n with
  | none => s
  | some l =>
    if l.stage != launchOver then s
    else
      let s := s.updCore core fun c =>
        { c with handlerTable := c.handlerTable.filter (fun e => e.launch != n),
                 refills := c.refills.filter fun r => r.2.launch != n }
      let s := s.startRefills core
      if s.runsFor n then s else { s with launches := s.launches.del n }

/-- Effects of the gang still wait for a release of it (R274, R281). -/
def Gang.releasing (g : Gang) : Bool := g.sync.any fun o => decide (o.stage < 2)

/-- Drops the record of a handler run that has left its seat, once nothing waits for a release of it any longer: an MBOX word,
a push or a LAUNCH that it had issued goes first (R145, R226, R281). -/
def State.purgeRun (s : State) (gid : Nat) : State :=
  match s.gang gid with
  | none => s
  | some g =>
    if g.handler && !g.seated && !g.releasing then
      { s with gangs := s.gangs.del gid }
    else s

/-- The handler run of a core ends without effect on any gang. -/
def State.dropRun (s : State) (core : Nat) : State :=
  match (s.core core).run with
  | none => s
  | some r =>
    let (kept, launch) := match s.gang r.gid with | some g => (g.reserve, g.launch) | none => (0, 0)
    let s := s.updCore core fun c => { c with run := none, seats := c.seats.del Config.handlerSeat, monitor := none }
    let s := s.updGang r.gid fun g => { g with seated := false, park := .ended, active := 0, reserve := 0 }
    (((s.forgetGang core r.gid).purgeRun r.gid).forgetLaunch launch core).freeRegisters core kept

/-- A run serves a gang of a team: the run ends, or, when it is itself the cause, goes on without a gang. -/
def State.dropRunsOf (s : State) (gangs : List Nat) (except : Option Nat) : State :=
  s.cores.foldl (fun s (n, c) =>
    match c.run with
    | some r =>
      if r.served.any gangs.contains then
        if except = some r.gid then
          s.updCore n fun c => { c with run := some { r with served := none } }
        else s.dropRun n
      else s
    | none => s) s

/-- Stops the gangs of a team that is killed or restarted, and withdraws its held pushes and its claims (R335, R344);
`by_` is the handler run that asked for it, if one did. -/
def State.stopTeam (s : State) (t : Team) (by_ : Option Nat) : State :=
  let s := s.dropRunsOf t.gangs by_
  let s := t.gangs.foldl State.killStop s
  (s.withdrawPushes t.gangs).withdrawClaims t.gangs fun c => !c.stat

/-- Kills a team (R335): its firing ends at once (R299). DEDUCED, log 54, 56. -/
def State.killTeam (s : State) (tid : Nat) (by_ : Option Nat) : State :=
  match s.team tid with
  | none => s
  | some t =>
    ((s.stopTeam t by_).endFiring tid).updTeam tid fun t =>
      { t with phase := .killed, status := 1, deadline := none, again := false }

/-! ## The end of a gang (R145) -/

/-- A gang whose groups have ended may leave its seat (R145). -/
def Gang.mayEnd (g : Gang) : Bool :=
  g.park == .ending && g.seated && g.flights.isEmpty && g.log.isEmpty && g.page.isEmpty && g.batchesDone

/-- A handler run has ended (R145, R333): a gang it still serves had no action, so its team is killed. -/
def State.endRun (s : State) (core : Nat) : State :=
  match (s.core core).run with
  | none => s
  | some r =>
    let team := (r.served.bind s.gang).map Gang.team
    let s := s.dropRun core
    match team with
    | some t => s.killTeam t none
    | none => s

/-- Group 0 of a team prologue has ended without FREEZE: the others start from the grid template, or unstamped
(R38, R318). DEDUCED, log 36, 54. -/
def State.prologueEnds (s : State) (tid : Nat) : State :=
  (s.updTeam tid fun t => { t with proStage := 2 }).restartGangs tid fun n => n == 0

/-- A gang leaves its seat: its registers beyond the reserve return, and its record stands until its team completes. -/
def State.leaveSeat (s : State) (gid : Nat) (g : Gang) : State :=
  let reserve := Launch.reserveOf (s.launch g.launch)
  let s := (s.updCore g.core fun c => { c with seats := c.seats.del g.seat }).forgetGang g.core gid
  let s := s.putGang gid { g with park := .ended, seated := false, privates := 0, reserve := reserve, inherited := 0,
                                  template := none }
  s.freeRegisters g.core (g.extraRegisters reserve)

/-- GANG_END (R145), and the end of the stop of a killed gang (R335). -/
def execGangEnd (gid : Nat) (s : State) : Host.Outcome State Fault Refusal :=
  match s.gang gid with
  | none => .next s
  | some g =>
    if g.park = .killed then .next (if s.killSettled gid g then s.killGang gid else s)
    else if !g.mayEnd then .next s
    else if g.handler then .next (s.endRun g.core)
    else
      let killed := match s.team g.team with | some t => t.phase == .killed | none => false
      if g.teamPrologue && !killed then
        let s' := s.prologueEnds g.team
        match s'.gang gid with
        | some g => .next (if g.active = 0 then s'.leaveSeat gid g else s')
        | none => .next s'
      else .next (s.leaveSeat gid g)

/-! ## The completion of a launch (R324) -/

/-- Lines of an unsealed segment lose the leases that never expire (R42), and those on their way get one that does (R271). -/
def State.unsealLines (s : State) (l : Launch) : State :=
  if !l.segSealed then s
  else
    let pages := (List.range (l.segSize / 128)).filterMap fun i => (s.keyOf l.context (l.segBase + 128 * i)).map lineOf
    let out := fun (p : Nat × Line) =>
      (p.1, if p.2.expiry.isNone && pages.contains p.1 then { p.2 with expiry := some s.time } else p.2)
    let plain := fun (f : LineFetch) => if pages.contains f.line then { f with sealedLine := false } else f
    { s with cores := s.cores.mapAll fun c => { c with l1 := c.l1.map out, fetches := c.fetches.mapAll plain } }

/-- Frees a launch's template places with their tile slots, its decode entries, quotas and refills on a core; a handler
run of it that goes on keeps its own. -/
def State.freeOnCore (s : State) (n core : Nat) : State :=
  let kept := match (s.core core).run.bind fun r => s.gang r.gid with | some g => g.launch == n | none => false
  let mine := (s.core core).templates.filter fun p => p.2.key.launch == n
  let s := mine.foldl (fun s p => p.2.tiles.foldl (fun s x => s.dropSlot core x.1 x.2) s) s
  (s.updCore core fun c =>
    { c with templates := c.templates.filter (fun p => p.2.key.launch != n),
             decode := c.decode.filter (fun e => e.launch != n),
             handlerTable := c.handlerTable.filter (fun e => e.launch != n || kept), quotas := c.quotas.filter (fun q => q.1 != n),
             refills := c.refills.filter fun r => r.2.launch != n || (kept && r.2.handler) }).startRefills core

/-- A launch ends: its segment is unsealed, its span, template places and decode entries are freed. Its record stays while
a handler run of it goes on. DEDUCED, log 67. -/
def State.endLaunch (s : State) (n : Nat) : State :=
  match s.launch n with
  | none => s
  | some l =>
    let s := (s.unsealLines l).freeSpan l.context l.span
    let s := s.cores.foldl (fun s p => s.freeOnCore n p.1) s
    if s.runsFor n then s.updLaunch n fun l => { l with stage := launchOver, segSealed := false, span := none }
    else { s with launches := s.launches.del n }

/-- Completes a launch whose prologue has ended and whose last team has completed (R324); a consumer grid stays open
(R301). -/
def State.finishLaunch (s : State) (n : Nat) : State :=
  match s.launch n with
  | none => s
  | some l =>
    if !l.fired && decide (2 ≤ l.stage) && l.stage != launchOver && decide (l.count ≤ l.done) &&
        !(s.teams.vals.any fun t => t.launch == n && t.phase != .done) then s.endLaunch n
    else s

/-! ## The completion of a team (R324, R325) -/

/-- A team may complete (R324). -/
def State.teamMayComplete (s : State) (t : Team) : Bool :=
  (t.phase == .placed || t.phase == .killed) && !t.gangs.isEmpty &&
  (t.gangs.all fun i => match s.gang i with | some g => g.park == .ended | none => true) &&
  (t.phase == .killed ||
    !(s.pushes.any fun p => p.2.gid.any t.gangs.contains && s.queues.vals.any fun q => q.held.contains p.1)) &&
  !(t.cores.any fun k => t.gangs.any fun i => s.writesWaiting i k)

/-- Returns what a team holds on its cores but for registers: slots, pad, banks, seats, and the place and tiles of its own
template (R324, R338). -/
def State.leaveCores (s : State) (tid : Nat) (t : Team) : State :=
  let mine := fun (o : SlotOwner) => match o with | .record i _ => i == tid | .pad i => i == tid | .template _ => false
  let key : TemplateKey := { launch := t.launch, team := some t.number }
  let own := fun (b : BankTemplate) => !t.prologue && b.key == key
  t.cores.foldl (fun s k =>
    let tiles := ((s.core k).templates.vals.filter own).flatMap fun b => b.tiles
    let s := tiles.foldl (fun s x => s.dropSlot k x.1 x.2) s
    s.updCore k fun c =>
      { c with slots := c.slots.filter (fun p => !mine p.2), bankOwner := c.bankOwner.filter (fun p => !t.gangs.contains p.2),
               seats := c.seats.filter (fun p => !t.gangs.contains p.2), templates := c.templates.filter fun p => !own p.2 }) s

/-- Returns a team's slots, pad, banks, reserve, seats, template place and span, and forgets what was on its way to
it (R324). A saved team has returned its registers already (R338). -/
def State.returnResources (s : State) (tid : Nat) (t : Team) : State :=
  let s := t.cores.foldl (fun s k => s.updCore k fun c => { c with matQueue := c.matQueue.filter fun o => o.team != tid })
    (s.leaveCores tid t)
  let s := if t.phase = .saved then s else (t.gangs.filterMap s.gang).foldl (fun s g =>
    s.freeRegisters g.core (g.privates + g.reserve)) s
  let ctx := match s.launch t.launch with | some l => l.context | none => 0
  let s := s.freeSpan ctx t.span
  { s with arrivals := s.arrivals.filter (fun p => p.2.team != tid), bridges := s.bridges.filter (fun p => p.2.team != tid),
           clears := s.clears.filter (fun p => p.2.team != tid), padWrites := s.padWrites.filter (fun p => p.2.team != tid),
           messages := s.messages.filter fun p => !t.gangs.contains p.2.gid }

/-- The completion record (R325). -/
def completionRecord (s : State) (t : Team) (l : Launch) (last : Bool) : List Word32 :=
  let core := match t.gangs.head?.bind s.gang with | some g => g.core | none => 0
  [t.launch, t.number, t.status + t.lastTrap * 2 ^ 8 + l.groups * 2 ^ 16, t.qbatch / 2 ^ 32, s.time % 2 ^ 32, s.time / 2 ^ 32,
    last.toNat, (coreWord core).toNat].map fun n => BitVec.ofNat 32 n

/-- Drops the record of a team and of its gangs. -/
def State.purgeTeam (s : State) (tid : Nat) : State :=
  match s.team tid with
  | none => s
  | some _ =>
    { s with teams := s.teams.del tid, gangs := s.gangs.filter fun p => !(p.2.team == tid && !p.2.handler) }

/-- Drops the record of a team that has completed once nothing of its gangs waits for a release any longer. -/
def State.purgeDone (s : State) (tid : Nat) : State :=
  match s.team tid with
  | none => s
  | some t =>
    if t.phase = .done ∧ (t.gangs.all fun i => match s.gang i with | some g => !g.releasing | none => true) then
      s.purgeTeam tid
    else s

/-- A team has completed. -/
def State.retireTeam (s : State) (tid : Nat) : State :=
  (s.updTeam tid fun t => { t with phase := .done }).purgeDone tid

/-- The release of a team's completion (R281, R324): its first gang makes it for the whole team, with the latest of the
gangs' horizons and with what its gangs still have on the way to the homes. -/
def State.releaseTeam (s : State) (tid : Nat) (t : Team) (first w : Nat) : State :=
  let late := (t.gangs.filterMap s.gang).foldl (fun m g => Nat.max m g.horizon) 0
  let mine := fun (b : WriteBack) => match b.cause with
    | .gang i => if t.gangs.contains i then { b with cause := .gang first } else b
    | .sys i => if t.gangs.contains i then { b with cause := .sys first } else b
    | .core => b
  let s := { s with
    atomics := s.atomics.mapAll fun a => if t.gangs.contains a.gid then { a with gid := first } else a
    writebacks := s.writebacks.mapAll mine }
  let s := s.updTeam tid fun t => { t with phase := .done }
  (s.updGang first fun g => { g with horizon := Nat.max g.horizon late }).beginSync first (s.bundles * 8) true false [w]

/-- Pushes a team's completion record once its release is complete (R324). -/
def State.pushCompletion (s : State) (tid : Nat) (t : Team) (first queue : Nat) (words : List Word32) : State :=
  let core := (s.gang first).map Gang.core
  let (id, s) := s.fresh
  let p : Push := { queue := queue, words := words, gid := none, group := 0, long := none, holds := true, core := core,
                    arrival := 0, left := 0, hsn := none, refused := false }
  let (w, s) := s.fresh
  ({ s with pushes := s.pushes.put id p, afters := s.afters.put w (.push id) } : State).releaseTeam tid t first w

/-- A prologue has ended and its resources have returned (R301, R317, R318): the teams follow, without a template where
it has not issued FREEZE; a queue whose grid has none is FAULTED. DEDUCED, log 68. -/
def State.prologueDone (s : State) (tid : Nat) (t : Team) : State :=
  let s := s.retireTeam tid
  match s.launch t.launch with
  | none => s
  | some l =>
    let s := s.updLaunch t.launch fun l => { l with stage := 2 }
    if l.frozenAt.isSome then (s.pendNext t.launch).finishLaunch t.launch
    else
      match l.queue with
      | some q =>
        { (s.faultQueue q 4 0 0) with teams := s.teams.filter fun p => !(p.2.launch == t.launch && p.2.phase == .pending) }
      | none => (s.pendNext t.launch).finishLaunch t.launch

/-! ## Restart (R344) -/

/-- Puts records that a team has consumed back into its reservation, in their order; one whose place had been freed
takes none again (R293, R344). -/
def HiveQueue.returnTaken (x : HiveQueue) (team : Nat) (taken : List QRec) : HiveQueue :=
  let back := fun (r : QRec) => { r with status := .reserved team }
  let kept := x.recs.map fun r => if taken.any fun y => y.seq == r.seq then back r else r
  let gone := taken.filter fun y => !(x.recs.any fun r => r.seq == y.seq)
  { x with recs := sortBy QRec.seq ((gone.map fun r => { back r with place := .returned }) ++ kept) }

/-- A stopped team is pending again, with its number, its QBATCH and its place, on the die that R320 now gives it; what it
had consumed of its reservation returns (R344). -/
def State.restartTeam (s : State) (tid : Nat) (t : Team) : State :=
  let s := s.returnResources tid t
  let s := if t.firing then s.updQueue (t.qbatch % 4096) fun x => x.returnTaken tid t.taken else s
  let s := { s with gangs := s.gangs.filter fun p => !(p.2.team == tid && !p.2.handler),
                    copies := s.copies.filter fun p => p.2.team != tid }
  let die := match s.launch t.launch with
    | some l => if t.fromQueue then queueDie (t.qbatch % 4096) else s.quietDie l.context
    | none => t.die
  s.updTeam tid fun t =>
    { t with phase := .pending, die := die, cores := [], gangs := [], records := [], bars := [], pad := [], deadline := none,
             proStage := 0, span := none, frozenAt := none, saved := none, taken := [], again := false }

/-- TEAM_COMPLETION (R324), or the end of the stop of a team that restarts (R344). -/
def execTeamCompletion (team : Nat) (s : State) : Host.Outcome State Fault Refusal :=
  match s.team team with
  | none => .next s
  | some t =>
    if !s.teamMayComplete t then .next s
    else if t.again then .next (s.restartTeam team t)
    else
      let s := if t.phase = .killed then s.withdrawPushes t.gangs else s
      let s := ((s.withdrawClaims t.gangs fun c => c.pop.isSome).endFiring team).dropLatches t
      let s := s.returnResources team t
      if t.prologue then .next (s.prologueDone team t)
      else
        match s.launch t.launch, t.gangs with
        | some l, first :: _ =>
          let last := !l.fired && l.done + 1 == l.count
          let words := completionRecord s t l last
          let s := s.updLaunch t.launch fun l => { l with done := l.done + 1 }
          let s := if l.completion = 0xFFFFFFFF then s else s.pushCompletion team t first l.completion words
          .next ((s.retireTeam team).finishLaunch t.launch)
        | _, _ => .next (s.retireTeam team)

end Sys2Proof.Machine
end

