-- ==== Sys2Proof/Machine/Firing.lean ====
section
/-! DEFINITION. Firing a queue's consumer teams, and accepting a queue's configuration (R54, R294, R295, R299 to R302,
R305, R310). -/

namespace Sys2Proof.Machine

/-! ## Eligibility (R299) -/

/-- The oldest record not yet reserved. -/
def HiveQueue.oldest (x : HiveQueue) : Option QRec := x.recs.find? fun r => r.status == .unreserved

/-- The threshold is reached. -/
def HiveQueue.full (x : HiveQueue) (c : QueueCfg) : Bool := decide (c.threshold ≤ x.depth)

/-- The age trigger has passed. -/
def HiveQueue.old (x : HiveQueue) (c : QueueCfg) (now : Nat) : Bool :=
  c.age != 0 && match x.oldest with | some r => decide (c.age ≤ now - r.arrival) | none => false

/-- A queue is eligible (R299), with a record to reserve. DEDUCED, log 113. -/
def HiveQueue.eligible (x : HiveQueue) (now : Nat) : Bool :=
  match x.cfg with
  | none => false
  | some c =>
    c.consumer != 0 && x.fcode == 0 && decide (x.inProgress < c.firings ∧ 1 ≤ x.free) && (x.full c || x.old c now)

/-- A queue's rank in its die's firing unit: class, age of the oldest unreserved record, number (R300). -/
def HiveQueue.rank (x : HiveQueue) (q : Nat) : Nat :=
  let cls := match x.cfg with | some c => c.cls | none => 0
  let t := match x.oldest with | some r => r.arrival | none => 0
  (3 - cls) * 2 ^ 80 + t * 2 ^ 12 + q

/-- The queue that a die's firing unit fires in this cycle (R300, R310). DEDUCED, log 70. -/
def State.nextFiring (s : State) (die : Nat) : Option Nat :=
  let ready := match s.firingUnits.find die with | some t => decide (t + 64 ≤ s.time) | none => true
  if !ready then none
  else
    (minBy (fun p : Nat × HiveQueue => p.2.rank p.1)
      (s.queues.filter fun p => queueDie p.1 == die && p.2.eligible s.time)).map Prod.fst

/-! ## Firing (R300, R301) -/

/-- Reserves the `n` oldest unreserved records for a team. -/
def reserveRecs (team : Nat) : Nat → List QRec → List QRec
  | 0, l => l
  | _, [] => []
  | n + 1, r :: l =>
    if r.status = .unreserved then { r with status := .reserved team } :: reserveRecs team n l
    else r :: reserveRecs team (n + 1) l

/-- QBATCH of a firing: queue, batch and firing number (R54). -/
def qbatchOf (q batch firing : Nat) : Nat := firing * 2 ^ 32 + batch * 2 ^ 16 + q

/-- A firing of a queue, all in one cycle (R300); the first one launches the consumer grid (R301). -/
def State.fire (s : State) (q : Nat) : State :=
  let x := s.queue q
  match x.cfg with
  | none => s
  | some c =>
    let d := x.depth
    let b := Nat.min x.free c.batchMax
    let n := (x.firing + 1) % 2 ^ 32
    let (tid, s) := s.fresh
    let number := (n + 2 ^ 32 - 1) % 2 ^ 32
    let team := Team.make (x.launch.getD 0) number (queueDie q) c.cls tid (qbatchOf q b n) false true
    let s := s.putQueue q { x with recs := reserveRecs tid b x.recs, firing := n, inProgress := x.inProgress + 1,
                                   ageFired := x.ageFired + (if d < c.threshold then 1 else 0) }
    let s := { s with teams := s.teams.put tid team, firingUnits := s.firingUnits.put (queueDie q) s.time }
    let s := s.pressureOf q
    let asked := s.submits.vals.any fun y => y.from_ == .queue q
    if x.launch.isNone && !asked then s.submitLaunch c.context c.consumer (.queue q) else s

/-- AGE_TRIGGER (R299): the queue is eligible by the age of its oldest unreserved record, and fires when its die's
firing unit takes it. -/
def execAgeTrigger (queue : Nat) (s : State) : Host.Outcome State Fault Refusal :=
  let x := s.queue queue
  let old := match x.cfg with | some c => x.old c s.time | none => false
  if old && s.nextFiring (queueDie queue) == some queue then .next (s.fire queue) else .next s

/-- FIRING (R300). -/
def execFiring (die : Nat) (s : State) : Host.Outcome State Fault Refusal :=
  match s.nextFiring die with
  | some q => .next (s.fire q)
  | none => .next s

/-- The class of a team for issue and placement: back-pressure of its queue makes it 3 (R305). -/
def State.teamClass (s : State) (t : Team) : Nat :=
  if t.fromQueue && (s.queue (t.qbatch % 4096)).pressure then 3 else t.cls

/-- The class of a gang for issue (R18, R305). -/
def State.gangClass (s : State) (g : Gang) : Nat :=
  match s.team g.team with
  | some t => if t.fromQueue && (s.queue (t.qbatch % 4096)).pressure then 3 else g.cls
  | none => g.cls

/-! ## Configuration (R294, R295) -/

/-- The configuration a block holds. -/
def configOf (ctx : Nat) (bs : List Byte) : QueueCfg :=
  let f := fieldOf bs
  { context := ctx, ring := f 0 8, consumer := f 8 8, statusBlock := f 0x10 8, age := f 0x18 4, threshold := f 0x1C 2,
    batchMax := f 0x1E 2, hw := f 0x20 2, lw := f 0x22 2, ringLog := f 0x24 1, firings := f 0x25 1, cls := f 0x26 1,
    strict := natBit (f 0x27 1) 0 }

/-- Firmware accepts a block for a queue (R295). DEDUCED, log 74. -/
def State.configOk (s : State) (ctx q : Nat) (bs : List Byte) : Bool :=
  let c := configOf ctx bs
  let x := s.queue q
  let privileged := match s.context ctx with | some y => y.privileged | none => false
  let idle := x.recs.isEmpty && x.inProgress == 0
  c.ring % 1024 == 0 && c.consumer % 128 == 0 && c.statusBlock % 64 == 0 &&
  decide (c.ring < 2 ^ 48 ∧ c.consumer < 2 ^ 48 ∧ c.statusBlock < 2 ^ 48) &&
  decide (1 ≤ c.threshold ∧ c.threshold ≤ 4096 ∧ 1 ≤ c.batchMax ∧ c.batchMax ≤ 256) &&
  decide (5 ≤ c.ringLog ∧ c.ringLog ≤ 20 ∧ 1 ≤ c.firings ∧ c.firings ≤ 16 ∧ c.cls ≤ 3) &&
  fieldOf bs 0x27 1 / 2 == 0 && (bs.drop 0x28).all (· == 0) && (!c.strict || privileged) &&
  (c.hw == 0 || decide (c.lw < c.hw ∧ c.threshold ≤ c.hw ∧ c.hw ≤ 32 + 2 ^ c.ringLog)) &&
  (idle || x.fcode != 0)

/-- The firings of a queue end without effect on its counts, which a new configuration clears; the records in
consumers' latches are discarded (R295). -/
def State.endFirings (s : State) (q : Nat) : State :=
  let empty := fun (l : QLatch) => if l.queue = some q then { l with held := none, next := none } else l
  let again := fun (c : Claim) => if c.queue = q && !c.stat then { c with seq := none, due := none } else c
  let mine := fun (t : Team) => t.firing && t.qbatch % 4096 == q
  let back := (s.claims.filter fun p => p.2.queue == q && !p.2.stat && p.2.seq.isSome && p.2.team.isNone).map Prod.fst
  let s := { s with
    gangs := s.gangs.mapAll fun g => { g with groups := g.groups.mapAll fun x => { x with qh := x.qh.mapAll empty } }
    claims := s.claims.mapAll again
    teams := Tbl.mapAll (s.teams.filter fun (p : Nat × Team) => !(mine p.2 && p.2.phase == TeamPhase.pending))
      fun t => if mine t then { t with firing := false } else t }
  s.updQueue q fun x => { x with waiting := back ++ x.waiting }

/-- The grid of a queue's earlier configuration no longer stays open (R301). -/
def State.closeGrid (s : State) (q : Nat) : State :=
  match (s.queue q).launch with
  | none => s
  | some n => (s.updLaunch n fun l => { l with fired := false, queue := none, count := 0 }).finishLaunch n

/-- Accepts a configuration: every count and the firing number are cleared, and the status block is written (R295,
R308). -/
def State.acceptConfig (s : State) (ctx q : Nat) (bs : List Byte) : State :=
  let s := (s.endFirings q).closeGrid q
  let x := s.queue q
  let s := s.putQueue q { HiveQueue.empty with cfg := some (configOf ctx bs), nextSeq := x.nextSeq, held := x.held,
                                               waiting := x.waiting, burstFrom := s.time, statusWaits := x.statusWaits }
  let s := { s with submits := s.submits.filter fun p => p.2.from_ != Submitter.queue q }
  (s.writeStatus q).at s.time (.heldPushAccept q)

end Sys2Proof.Machine
end

