-- ==== Sys2Proof/Machine/Traps.lean ====
section
/-! DEFINITION. Handler runs: PAGE, the start of a run, GSTATE and GSET, the resume actions, and MBOX (R224 to R226,
R266, R326 to R334, R391, R394). -/

namespace Sys2Proof.Machine

/-! ## PAGE (R266) -/

/-- A fault declared for a gang waits for its bundle boundary. DEDUCED, log 57. -/
def Gang.pageDue (g : Gang) : Bool :=
  !g.page.isEmpty && g.seated && (g.park == .none || g.park == .ending)

/-- PAGE (R266): the gang is parked where it stands. DEDUCED, log 57. -/
def execPage (gid : Nat) (s : State) : Host.Outcome State Fault Refusal :=
  match s.gang gid with
  | none => .next s
  | some g =>
    match g.page with
    | [] => .next s
    | (pos, t) :: rest =>
      if g.pageDue then .next ((s.putGang gid { g with page := rest }).takeTrap gid t pos g.pos) else .next s

/-! ## Handler runs (R327, R331, R332) -/

/-- What is to be done about a core's trapped gangs: end a run that has itself trapped, kill a team without a
handler, or start the run of the oldest. -/
inductive TrapWork where
  | fault (gid : Nat)
  | kill (gid : Nat)
  | start (gid : Nat)
deriving DecidableEq, Repr

/-- A launch has a handler image. -/
def State.hasHandler (s : State) (g : Gang) : Bool :=
  match s.launch g.launch with
  | some l => l.handler.isSome
  | none => false

/-- What a handler may read of a trapped gang has settled: its fixed results, and its index jobs but for those held
or behind a held job (R183, R327). -/
def State.trapSettled (s : State) (gid : Nat) (g : Gang) : Bool :=
  let c := s.core g.core
  let held := match c.index with
    | j :: _ => (match s.gang j.gid with | some x => j.heldNow x | none => false)
    | [] => false
  g.flights.isEmpty && (held || !(c.index.any fun j => j.gid == gid))

/-- The work that a core's traps ask for now. -/
def State.trapWork (s : State) (core : Nat) : Option TrapWork :=
  let c := s.core core
  let of := fun (p : Nat → Gang → Bool) => c.trapped.find? fun i => match s.gang i with | some g => p i g | none => false
  match of fun _ g => g.handler with
  | some i => some (.fault i)
  | none =>
    match of fun _ g => !s.hasHandler g with
    | some i => some (.kill i)
    | none =>
      match c.run, c.trapped with
      | none, i :: _ =>
        match s.gang i with
        | some g => if s.trapSettled i g then some (.start i) else none
        | none => none
      | _, _ => none

/-- Starts a run for a trapped gang in the handler seat (R331). -/
def State.startRun (s : State) (core served : Nat) : State :=
  match s.gang served with
  | none => s
  | some g =>
    match (s.launch g.launch).bind fun l => l.handler, s.context g.context with
    | some h, some c =>
      let (gid, s) := s.fresh
      let record := trapRecordAt c.trapArea core g.seat
      let run := { Gang.atDispatch g.launch g.context core Config.handlerSeat 64 h.2.2 g.cls s.time
                     [(0, Group.atDispatch 0 record)] with handler := true }
      let s := s.updCore core fun c =>
        { c with trapped := c.trapped.filter (fun i => i != served), seats := c.seats.put Config.handlerSeat gid,
                 run := some { gid := gid, served := some served, moved := false }, monitor := none }
      let s := if Config.monitorImage g.context h.1 then s.enterMonitor core g else s
      (s.putGang gid run).beginSync gid (s.bundles * 8) false true []
    | _, _ => s

/-- A trap of the handler gang ends the run, kills the team it served and is reported to the host with its record's
address and first bytes (R332). -/
def State.handlerFault (s : State) (core gid : Nat) : State :=
  match s.gang gid with
  | none => s
  | some g =>
    let area := match s.context g.context with | some c => c.trapArea | none => 0
    let at_ := trapRecordAt area core Config.handlerSeat
    let bs := match s.readVirt g.context at_ 28 with | some bs => bs | none => []
    (s.errorEvent 3 g.context (bytesLE 8 at_ ++ bs)).endRun core

/-- HANDLER_RUN_START (R332). -/
def execHandlerRunStart (core : Nat) (s : State) : Host.Outcome State Fault Refusal :=
  match s.trapWork core with
  | none => .next s
  | some (.fault gid) => .next (s.handlerFault core gid)
  | some (.kill gid) =>
    match s.gang gid with
    | some g => .next (s.killTeam g.team none)
    | none => .next s
  | some (.start gid) => .next (s.startRun core gid)

/-! ## Resuming (R225, R326, R333, R334) -/

/-- Unparks a gang at a position; its counts begin anew (R334). -/
def State.unpark (s : State) (gid pos : Nat) (done again : Bool) : State :=
  s.updGang gid fun g =>
    let g := { g with park := .none, trap := none, pos := pos, fetch := .idle, agedFrom := s.time, lastIssue := none,
                      aged := false, folded := 0, wait := none, breakDone := done, breakNext := again }
    g.afterEnd s.beat

/-- The action of a handler run (R225, R326, R333). -/
def State.takeAction (s : State) (core : Nat) (action : Nat) : State :=
  match (s.core core).run with
  | none => s
  | some r =>
    match r.served with
    | none => s
    | some gid =>
      match s.gang gid with
      | none => s
      | some g =>
        let code := match g.trap with | some t => t.code | none => 0
        let escape := match g.trap with | some t => t.detail1 == 1 | none => false
        let free := fun (s : State) =>
          s.updCore core fun c => { c with run := some { r with served := none } }
        let stays := r.moved || code == trapPAGE
        if action = 2 ∨ (action = 1 && !r.moved && code == trapSTREAM && !escape) then
          (free s).killTeam g.team (some r.gid)
        else if action = 0 then (free s).unpark gid g.pos (code == trapBREAK) false
        else if action = 1 then
          if code = trapBREAK then (free s).unpark gid g.pos true true
          else (free s).unpark gid (if stays then g.pos else g.trapNext) false false
        else s

/-- RESUME_ACTION (R225). -/
def execResumeAction (core : Nat) (action : Word32) (s : State) : Host.Outcome State Fault Refusal :=
  .next (s.takeAction core action.toNat)

/-! ## GSTATE (R224, R330) -/

/-- The gang that a core's handler run serves. -/
def State.served (s : State) (core : Nat) : Option (Nat × Gang) :=
  match (s.core core).run.bind fun r => r.served with
  | some gid => (s.gang gid).map fun g => (gid, g)
  | none => none

/-- What keeps an operand-log entry: a recoverable fault, older entries or an ordering before it, or a translation (R265,
R330). DEDUCED, log 116. -/
def entryState (g : Gang) (le : LogEntry) : Nat :=
  let older := g.log.filter fun o => decide (o.seq < le.seq)
  let left := le.elems.filter fun e => !e.performed
  if left.any fun e => e.faulted then 1
  else if le.fenced g older || (!left.isEmpty && left.all (heldBy older le.width)) then 2
  else 0

/-- 64-bit words two lanes each. -/
def lanes64 (vals : List Nat) : List Nat := vals.flatMap fun v => [v % 2 ^ 32, v / 2 ^ 32 % 2 ^ 32]

/-- The 32-bit words of bytes. -/
def wordsOfBytes (bs : List Byte) : List Nat := (chunks 4 (bs.length / 4 + 1) bs).map natOfBytes

/-- Item 0x42: conditions, modes and full masks of a group. -/
def statusLanes (g : Gang) (x : Group) : List Nat :=
  let v := maskOf 64 fun r => !g.vEmpty r
  [x.c.toNat / 2 * 2 + 1, x.fpflags.toNat, x.fpmode.toNat, x.gstatus.toNat % 2 ^ 32, x.batch.toNat,
    maskOf 32 fun r => !x.sEmpty r, v % 2 ^ 32, v / 2 ^ 32]

/-- Item 0x43: the gang and its trap. -/
def trapLanes (g : Gang) : List Nat :=
  let t := g.trap.getD { code := 0, slot := 0 }
  [g.pos % 2 ^ 32, g.active.toNat, t.code, t.slot, t.reason, g.seat, g.cls]

/-- Item 0x44: a last-result latch. -/
def latchLanes (g : Gang) (sel : Nat) : List Nat :=
  let lanes := fun (c : Cells 32) => (List.range 64).map fun p => (c.get p).toNat
  match sel with
  | 0 => lanes64 ((List.range 4).map fun k => (g.lS.get k).toNat)
  | 1 => lanes g.lV0
  | 2 => lanes g.lV1
  | 3 => lanes g.lC0
  | 4 => lanes g.lC1
  | _ => []

/-- Item 0x45: a queue-head latch of a group. -/
def queueLanes (g : Gang) (sel : Nat) : List Nat :=
  match g.group (sel % 4) with
  | some x =>
    let l := x.latch (sel / 4)
    ((List.range 8).map fun i => match l.held with | some ws => ((ws[i]?).getD 0).toNat | none => 0) ++
      [l.held.isSome.toNat, l.queue.getD 0]
  | none => []

/-- The lanes an item delivers; lanes not listed are zero (R224). -/
def State.stateLanes (s : State) (g : Gang) (item sel : Nat) : List Nat :=
  if item < 64 then (List.range 64).map fun p => (g.vreg item p).toNat
  else
    match item with
    | 0x40 => if sel < 4 then match g.group sel with
        | some x => lanes64 ((List.range 32).map fun k => (x.s.get k).toNat)
        | none => [] else []
    | 0x41 => (List.range 64).map fun p => maskOf 8 fun n => g.pred n p
    | 0x42 => if sel < 4 then match g.group sel with | some x => statusLanes g x | none => [] else []
    | 0x43 => trapLanes g
    | 0x44 => latchLanes g sel
    | 0x45 => if sel < 16 then queueLanes g sel else []
    | 0x46 => match g.log.find? fun e => e.num == sel with
        | some le => wordsOfBytes (logSummary g.width le (entryState g le))
        | none => []
    | 0x47 => if sel < 64 then lanes64 [(s.hinfoWord g (g.handle sel)).toNat] else []
    | _ => []

/-- GSTATE (R224): the state as it stands at issue fills d sixteen cycles later. -/
def execGstate (gd : Guard) (d : VReg) (a b : Operand) (s : State) : Host.Outcome State Fault Refusal :=
  runOp
    (fun _ c g =>
      let eff := g.effGroups gd
      if eff.isEmpty then .go else checkSources c g eff [.sca a, .sca b])
    (fun s c g =>
      match g.effGroups gd with
      | [] => s
      | k :: ks =>
        let lanes := match s.served g.core with
          | some (_, x) => s.stateLanes x (ssrc s c g a k).toNat (ssrc s c g b k).toNat
          | none => []
        let vals := (List.range 64).map fun p => (p, (lanes[p]?).getD 0)
        let (id, s) := s.beginLong c.gid c.seq (.v d.val) (k :: ks) 1 false
        s.fillAfter c.gid id vals Config.gstateCycles) s

/-! ## GSET (R224, R225) -/

/-- A group's part of the served state, written from lanes. -/
def Group.setItem (x : Group) (item : Nat) (v : Nat → Nat) : Group :=
  match item with
  | 0x40 => { x with s := (List.range 32).foldl (fun c k =>
                c.set k (BitVec.ofNat 64 (v (2 * k) + v (2 * k + 1) * 2 ^ 32))) x.s, sAwait := [] }
  | 0x42 => { x with c := BitVec.ofNat 8 (v 0), cAwait := [], fpflags := BitVec.ofNat 5 (v 1),
                     fpmode := BitVec.ofNat 2 (v 2), collide := x.collide && !natBit (v 3) 1 }
  | _ => x

/-- A last-result latch written from lanes. -/
def Gang.setLatch (g : Gang) (sel : Nat) (v : Nat → Nat) : Gang :=
  let lanes : Cells 32 := (List.range 64).foldl (fun c p => c.set p (BitVec.ofNat 32 (v p))) []
  match sel with
  | 0 => { g with lS := (List.range 4).foldl (fun c k => c.set k (BitVec.ofNat 64 (v (2 * k) + v (2 * k + 1) * 2 ^ 32))) [] }
  | 1 => { g with lV0 := lanes }
  | 2 => { g with lV1 := lanes }
  | 3 => { g with lC0 := lanes, lC0tag := 0 }
  | 4 => { g with lC1 := lanes, lC1tag := 0 }
  | _ => g

/-- The served gang with an item written (R224). -/
def Gang.setItem (g : Gang) (item sel : Nat) (v : Nat → Nat) : Gang :=
  if item < 64 then
    { (List.range 64).foldl (fun g p => g.setV item p (BitVec.ofNat 32 (v p))) g with vAwait := g.vAwait.del item }
  else
    match item with
    | 0x40 => g.updGroup sel fun x => x.setItem item v
    | 0x42 => g.updGroup sel fun x => x.setItem item v
    | 0x41 => { g with p := (List.range 7).foldl (fun c n =>
        c.set (n + 1) (bvMask 64 fun p => natBit (v p) (n + 1))) g.p }
    | 0x43 => { g with pos := v 0, active := BitVec.ofNat 4 (v 1), resolving := false }
    | 0x44 => g.setLatch sel v
    | _ => g

/-- Takes a private register for an inherited register of the served gang: from its reserve, from what the parked run
was given, else from the pool (R39, R224). -/
def State.ownServed (s : State) (gid run r : Nat) : State :=
  match s.gang gid, s.gang run with
  | some g, some h =>
    if r < 64 && g.inherited.getLsbD r && g.reserve = 0 && decide (0 < h.reserve) then
      (s.putGang run { h with reserve := h.reserve - 1 }).putGang gid
        { g with inherited := putBit g.inherited r false, privates := g.privates + 1 }
    else if r < 64 then s.ownRegister gid r else s
  | _, _ => s

/-- Writes an item of the served gang. A gang whose position is written is no longer at the bundle it was parked at; one that
now needs less may have all it needs (R44). DEDUCED, log 53. -/
def State.setServed (s : State) (core run item sel : Nat) (v : Nat → Nat) : State :=
  match s.served core with
  | none => s
  | some (gid, _) =>
    if item = 0xFF then s.takeAction core (v 0)
    else
      let s := s.ownServed gid run item
      let s := s.updGang gid fun g => g.setItem item sel v
      if item = 0x43 then
        (s.updCore core fun c => { c with run := c.run.map fun r => { r with moved := true } }).leaveParked core (· == gid)
      else s.serveAll core

/-- GSET (R224, R225): nothing but the handler run can look at the state before the start of the next beat, at which
it stands written. DEDUCED, log 53. -/
def execGset (gd : Guard) (a b cc : Operand) (s : State) : Host.Outcome State Fault Refusal :=
  runOp
    (fun _ c g =>
      let eff := g.effGroups gd
      if eff.isEmpty then .go else checkSources c g eff [.sca a, .vec b, .sca cc])
    (fun s c g =>
      match g.effGroups gd with
      | [] => s
      | k :: _ =>
        s.setServed g.core c.gid (ssrc s c g a k).toNat (ssrc s c g cc k).toNat fun p => (vsrc s c g b p).toNat) s

/-! ## MBOX (R226, R392, R394) -/

/-- MBOX (R226): a release at system scope before the outgoing word, an acquire after the incoming one. At debug level
none it fills with zero after 16 cycles (R392). DEDUCED, log 48. -/
def execMbox (gd : Guard) (d : SReg) (a : Operand) (s : State) : Host.Outcome State Fault Refusal :=
  runOp
    (fun _ c g =>
      let eff := g.effGroups gd
      if eff.isEmpty then .go else checkSources c g eff [.sca a])
    (fun s c g =>
      let eff := g.effGroups gd
      if eff.isEmpty then s
      else
        let s := s.updGang c.gid fun g => g.setVisible eff
        let (long, s) := s.beginLong c.gid c.seq (.s d.val) eff eff.length true
        if !s.debugOpen then s.fillAfter c.gid long (eff.map fun k => (k, 0)) 16
        else
          let (s, after) := eff.foldl (fun (acc : State × List Nat) k =>
            let (w, s) := acc.1.fresh
            let s := { s with afters := s.afters.put w (.mbox c.gid k) }
            (s.updCore g.core fun x => { x with mbox := x.mbox ++ [(c.gid, k, long, some (ssrc s c g a k))] }, acc.2 ++ [w]))
            (s, [])
          s.beginSync c.gid c.seq true false after) s

/-! ## The end of a release (R274, R281) -/

/-- What waited for a release goes on. -/
def State.runAfter (s : State) (id : Nat) : State :=
  match s.afters.find id with
  | none => s
  | some a =>
    let s := { s with afters := s.afters.del id }
    match a with
    | .push p => s.leavePush p
    | .launch x => s.decideSubmit x
    | .arrival x =>
      ({ s with arrivals := s.arrivals.upd x fun a => { a with released := true } } : State).sendArrival x
    | .publish _ team record pub => s.publishReleased team record pub
    | .retire gid group n =>
      let head := (s.gang gid).bind fun g => (g.group group).bind fun x => x.sealed.head?
      if head.any fun b => b.releasing && b.number == n then s.retireBatch gid group else s
    | .mbox gid _ => match s.gang gid with | some g => s.mboxStep g.core | none => s

/-- RELEASE_WAIT_END (R196, R214, R274): a release or acquire action of a gang goes on, or the wait of its BARSYN is
over. -/
def execReleaseWaitEnd (gid : Nat) (s : State) : Host.Outcome State Fault Refusal :=
  match s.gang gid with
  | none => .next s
  | some g =>
    if s.syncBarOver g then
      .next ((s.putGang gid { g with syncBar := [], wait := none }).waitEnded gid g (s.bundles * 8))
    else
      let (s, after) := s.advanceSync gid
      .next (((after.foldl State.runAfter s).purgeDone g.team).purgeRun gid)

/-! ## Counting time (R19, R147, R148) -/

/-- The cycle from which a gang's aging is counted. -/
def Gang.ageFrom (g : Gang) : Nat := match g.lastIssue with | some t => Nat.max t g.agedFrom | none => g.agedFrom

/-- The gang has issued nothing for 64 beats (R19). -/
def Gang.starved (g : Gang) (now : Nat) : Bool :=
  g.seated && !g.handler && !g.aged && decide (g.ageFrom + Config.agingCycles ≤ now)

/-- STARVATION_BOUND (R19): the gang counts as class 3 for its next issue. -/
def execStarvationBound (gid : Nat) (s : State) : Host.Outcome State Fault Refusal :=
  .next (s.updGang gid fun g => if g.starved s.time then { g with aged := true } else g)

/-- SLEEP_WAKE (R148): the wake time has come. -/
def execSleepWake (gid : Nat) (s : State) : Host.Outcome State Fault Refusal :=
  .next (s.updGang gid fun g => if g.park = .none ∧ g.wake ≤ s.time then { g with wake := 0 } else g)

/-- YIELD_EXPIRY (R147). -/
def execYieldExpiry (gid : Nat) (s : State) : Host.Outcome State Fault Refusal :=
  .next (s.updGang gid fun g =>
    match g.yieldUntil with
    | some t => if t ≤ s.time then { g with yieldTo := [], yieldUntil := none } else g
    | none => g)

end Sys2Proof.Machine
end

