-- ==== Sys2Proof/Machine/Preempt.lean ====
section
/-! DEFINITION. Pre-emption: soft deadlines, hard pre-emption, restart of IDEM teams, the reset of a context, and copy
deadlock (R40, R336 to R339, R343, R344). -/

namespace Sys2Proof.Machine

/-- The limit on a team's save, in cycles: that of its partition (R343). -/
def State.saveLimit (s : State) (t : Team) : Nat :=
  match ((s.launch t.launch).bind fun l => s.context l.context).bind fun c => s.partitions.find c.partition with
  | some p => p.saveLimit
  | none => 200000

/-! ## Stopping a team (R338, R339) -/

/-- Which side of its team's cores a core is. -/
def Team.side (t : Team) (core : Nat) : Nat := if t.cores.headD core = core then 0 else 1

/-- The MBOX exchanges of a core that are withdrawn, each with the word it is to send again (R339). -/
def Core.mboxBack (c : Core) (gangs : List Nat) : List (Nat × Nat × Nat × Option Word64) :=
  (c.mbox.filter fun m => gangs.contains m.1).map fun (g, k, l, w) => (g, k, l, some (w.getD c.dbg.outw))

/-- What a save holds before it is formed. -/
def Saved.start (parks : List (Nat × Park)) (claims : List Claim) (mbox : List (Nat × Nat × Nat × Option Word64)) : Saved :=
  { formed := false, due := 0, loaded := false, offset := 0, size := 0, tiles := [], banks := [], copies := [], jobs := [],
    claims := claims, mbox := mbox, residency := [], parks := parks, privates := [], extra := 0 }

/-- A gang stops at its bundle boundary (R338). -/
def Gang.stopped (g : Gang) : Gang :=
  { g with park := .stopped, fetch := .idle, wait := none, yieldTo := [], yieldUntil := none }

/-- Hard pre-emption begins: every gang stops, handler runs that serve them end, and what R339 names is withdrawn. -/
def State.stopGangs (s : State) (tid : Nat) (t : Team) : State :=
  let s := s.dropRunsOf t.gangs none
  let parks := t.gangs.filterMap fun i =>
    match s.gang i with
    | some g => if g.park = .ended then none
        else some (i, if g.trap.isSome then Park.trapped else g.park)
    | none => none
  let claims := (s.claims.filter fun p => t.gangs.contains p.2.gid && !p.2.stat).map Prod.snd
  let mbox := t.cores.flatMap fun k => (s.core k).mboxBack t.gangs
  let s := s.withdrawClaims t.gangs fun c => !c.stat
  let s := t.cores.foldl (fun s k => ((s.leaveParked k t.gangs.contains).updCore k fun c =>
    { c with trapped := c.trapped.filter fun i => !t.gangs.contains i }).dropMbox k t.gangs) s
  let s := parks.foldl (fun s p => s.updGang p.1 Gang.stopped) s
  (s.updTeam tid fun t =>
    { t with phase := .stopping, stopAt := s.time, deadline := none, saved := some (Saved.start parks claims mbox) }).at
      (s.time + s.saveLimit t) (.saveTimeout tid)

/-- A team of an IDEM launch in which no group has made anything visible (R344). -/
def State.mayRestart (s : State) (t : Team) : Bool :=
  (match s.launch t.launch with | some l => l.idempotent | none => false) &&
    (t.gangs.filterMap s.gang).all fun g => g.groups.vals.all fun x => !x.visible

/-- Restarts a team instead of saving it: it stops as a killed team does, and what it had claimed returns to the front of
its reservation; it is pending again once it has left its seats (R344). DEDUCED, log 56. -/
def State.beginRestart (s : State) (tid : Nat) (t : Team) : State :=
  ((s.stopTeam t none).unbindAll t).updTeam tid fun t => { t with phase := .killed, deadline := none, again := true }

/-- Hard pre-emption of a team (R338, R344). -/
def State.hardPreempt (s : State) (tid : Nat) : State :=
  match s.team tid with
  | none => s
  | some t =>
    if t.phase != .placed then s
    else if s.mayRestart t then s.beginRestart tid t
    else s.stopGangs tid t

/-- Soft pre-emption of a resident team: a deadline, or a stop at once (R336). -/
def State.softPreempt (s : State) (tid : Nat) : State :=
  match s.team tid with
  | none => s
  | some t =>
    if t.phase != .placed then s
    else
      let d := match s.launch t.launch with | some l => 1000 * l.softLimit | none => 0
      if d = 0 then s.hardPreempt tid
      else (s.updTeam tid fun t => { t with deadline := some (s.time + d) }).at (s.time + d) (.softDeadline tid)

/-- SOFT_DEADLINE (R336). -/
def execSoftDeadline (team : Nat) (s : State) : Host.Outcome State Fault Refusal :=
  match (s.team team).bind fun t => t.deadline with
  | some d => if d ≤ s.time then .next (s.hardPreempt team) else .next s
  | none => .next s

/-! ## The reset of a context (R343) -/

/-- Takes a team out of the machine, without a record. -/
def State.eraseTeam (s : State) (tid : Nat) : State :=
  match s.team tid with
  | none => s
  | some t =>
    let s := (s.dropRunsOf t.gangs none).withdrawClaims t.gangs fun _ => true
    let s := t.gangs.foldl State.killGang s
    let s := (s.withdrawPushes t.gangs).returnResources tid t
    ({ s with copies := s.copies.filter (fun p => p.2.team != tid) } : State).purgeTeam tid

/-- A queue without a configuration, which keeps what is held before it (R343). -/
def HiveQueue.unset (x : HiveQueue) : HiveQueue := { HiveQueue.empty with nextSeq := x.nextSeq, held := x.held, waiting := x.waiting }

/-- Resets a context: its launches and teams end without records, its queues lose their configuration, and what it waits
for is forgotten. A LAUNCH of the ring that waits for its record's page is rejected as unreadable. DESIGN CHOICE, log 117. -/
def State.resetContext (s : State) (ctx : Nat) : State :=
  let mine := (s.launches.filter fun p => p.2.context == ctx).map Prod.fst
  let teams := (s.teams.filter fun p => mine.contains p.2.launch ||
    (p.2.launch == 0 && match (s.queue (p.2.qbatch % 4096)).cfg with | some c => c.context == ctx | none => false)).map Prod.fst
  let s := teams.foldl State.eraseTeam s
  let s := s.cores.foldl (fun s p =>
    match p.2.run.bind fun r => s.gang r.gid with
    | some g => if g.context = ctx then s.dropRun p.1 else s
    | none => s) s
  let runs := (s.gangs.filter fun p => p.2.handler && p.2.context == ctx && !p.2.seated).map Prod.fst
  let s := s.cores.keys.foldl (fun s k => s.dropMbox k runs) { s with gangs := s.gangs.filter fun p => !runs.contains p.1 }
  let s := mine.foldl State.endLaunch s
  let own := fun (x : HiveQueue) => match x.cfg with | some c => c.context == ctx | none => false
  let asked := s.submits.filter fun p => p.2.context == ctx && p.2.fromHost
  let s := { s with
    queues := s.queues.mapAll (fun x => if own x then x.unset else x)
    submits := s.submits.filter (fun p => p.2.context != ctx || p.2.fromHost)
    walks := s.walks.filter (fun p => p.2.context != ctx)
    faults := s.faults.filter (fun p => p.2.context != ctx)
    contexts := s.contexts.upd ctx fun c => { c with spans := [], saves := [] } }
  asked.foldl (fun s p => s.refuseSubmit p.1 { p.2 with code := 1 }) s

/-- A context is reset because of a team's save: the host learns of it (R343). -/
def State.failSave (s : State) (tid : Nat) : State :=
  match s.team tid with
  | none => s
  | some t =>
    match s.launch t.launch with
    | none => s
    | some l => (s.errorEvent 1 l.context (bytesLE 4 t.launch ++ bytesLE 4 t.number)).resetContext l.context

/-- SAVE_TIMEOUT (R343). -/
def execSaveTimeout (team : Nat) (s : State) : Host.Outcome State Fault Refusal :=
  match s.team team with
  | none => .next s
  | some t =>
    if t.phase = .stopping ∧ t.stopAt + s.saveLimit t ≤ s.time then .next (s.failSave team) else .next s

/-! ## Copy deadlock (R40) -/

/-- A barrier misses the arrival of a group of a gang. One that misses no arrival waits for a copy's bytes alone (R40,
R214). -/
def State.missing (s : State) (team b : Nat) (g : Gang) : Bool :=
  (s.bar team b).leftG != 0 && g.team == team && g.liveGroups.any fun k => !s.hasArrived team b (g.groupNumber k)

/-- A gang waits on one of the blocked gangs given. The trapped gang that a handler run serves waits on its run, not in one
of R40's positions, and does not count as blocked, even while the run is parked. DEDUCED, log 62. -/
def State.waitsOn (s : State) (blocked : List Nat) (g : Gang) : Bool :=
  let any := fun (p : Gang → Bool) => blocked.any fun i => match s.gang i with | some x => p x | none => false
  match g.wait with
  | some (.registers _) => true
  | some (.barrier b) => any fun x => s.missing g.team b x
  | some (.inboxEmpty _) => any fun x => x.team == g.team
  | some (.inboxFull gid _) => blocked.contains gid
  | _ => false

/-- The blocked gangs, reached through chains of waits. -/
def State.blockedGangs (s : State) (gangs : List Nat) : Nat → List Nat → List Nat
  | 0, l => l
  | fuel + 1, l =>
    State.blockedGangs s gangs fuel (gangs.filter fun i =>
      l.contains i || match s.gang i with | some g => s.waitsOn l g | none => false)

/-- A core is in copy deadlock: every resident gang is blocked, through chains of waits that may cross the pair (R40). DEDUCED, log 62. -/
def State.copyDeadlocked (s : State) (core : Nat) : Bool :=
  let here := (s.core core).seats.vals
  let near := here ++ (s.core (partnerOf core)).seats.vals
  let base := ((s.core core).parked ++ (s.core (partnerOf core)).parked).map Parked.gid
  !base.isEmpty && !here.isEmpty &&
    (let blocked := s.blockedGangs near near.length base
     here.all blocked.contains)

/-- The team most recently dispatched to a core. -/
def State.latestTeam (s : State) (core : Nat) : Option Nat :=
  (minBy (fun p : Nat × Team => s.nextId - p.2.order)
    (s.teams.filter fun p => p.2.phase == .placed && p.2.cores.contains core)).map Prod.fst

/-- COPY_DEADLOCK (R40): the latest team is hard-pre-empted. -/
def execCopyDeadlock (core : Nat) (s : State) : Host.Outcome State Fault Refusal :=
  if s.copyDeadlocked core then
    match s.latestTeam core with
    | some tid => .next ((s.updTeam tid fun t => { t with deadlocked := true }).hardPreempt tid)
    | none => .next s
  else .next s

end Sys2Proof.Machine
end

