-- ==== Sys2Proof/Machine/Saving.lean ====
section
/-! DEFINITION. Saving and restoring teams, and the dispatcher's pre-emption for a higher class (R183, R320 to R322,
R337 to R342, R346, R354, R355). -/

namespace Sys2Proof.Machine

/-! ## When a save can be formed (R338) -/

/-- The values of a pending write that come only after a restore: elements not performed, claims and exchanges
withdrawn, pushes and launches whose release is still pending. -/
def State.explained (s : State) (v : Saved) (g : Gang) (id : Nat) : Nat :=
  g.unperformed id + (v.claims.countP fun c => c.pop == some id) + (v.mbox.countP fun m => m.2.2.1 == id) +
    (s.pushes.countP fun p => p.2.long == some id && s.afters.vals.any fun a => a == .push p.1) +
    s.submits.countP fun p => (match p.2.from_ with | .group _ _ l => l == id | _ => false) &&
      s.afters.vals.any fun a => a == .launch p.1

/-- Nothing of a stopped gang is still to land or to be written (R338, steps 2 to 4). -/
def State.gangSettled (s : State) (v : Saved) (gid : Nat) (g : Gang) : Bool :=
  g.flights.isEmpty && (s.portHeld g.core || !((s.core g.core).index.any fun j => j.gid == gid)) &&
  (g.longs.all fun p => p.2.want != 0 && s.explained v g p.1 == p.2.want) &&
  !s.writesWaiting gid g.core && !(s.atomics.vals.any fun a => a.gid == gid) &&
  !(s.copies.vals.any fun x => x.gid == gid && (x.stage == 5 || (!x.toATile && decide (x.stage < 4)))) &&
  (g.groups.vals.all fun x => x.sealed.all fun b => b.retireAt.isNone) && g.stls.isEmpty

/-- The save of a team can be formed. -/
def State.saveSettled (s : State) (tid : Nat) (t : Team) (v : Saved) : Bool :=
  (v.parks.all fun p => match s.gang p.1 with | some g => s.gangSettled v p.1 g | none => true) &&
  !(t.cores.any fun k => (s.core k).matOps.any fun o => o.team == tid) &&
  !(t.records.vals.any fun r => r.publishing.any fun p => p.due.isSome && !s.pubsOut p) &&
  !(s.bridges.vals.any fun j => j.team == tid) && !(s.clears.vals.any fun j => j.team == tid) &&
  !(s.padWrites.vals.any fun j => j.team == tid) && !(s.messages.vals.any fun m => t.gangs.contains m.gid) &&
  !(s.arrivals.vals.any fun a => a.team == tid && a.due.isSome && !a.stuck)

/-! ## Forming the save (R338 to R341) -/

/-- Withdraws the index jobs of a team that are left in the ports (R183). -/
def State.withdrawJobs (s : State) (t : Team) : List IndexJob × State :=
  t.cores.foldl (fun (acc : List IndexJob × State) k =>
    let c := acc.2.core k
    let mine := (c.setAside ++ c.index).filter fun j => t.gangs.contains j.gid
    (acc.1 ++ mine.map IndexJob.again,
      acc.2.updCore k fun c => { c with index := c.index.filter (fun j => !t.gangs.contains j.gid),
                                        setAside := c.setAside.filter fun j => !t.gangs.contains j.gid })) ([], s)

/-- A tile copy as it is recorded: a template source names its tile in place of a slot. -/
def State.recordCopy (s : State) (x : Copy) : Copy :=
  match x.srcTile with
  | some (b, n, none) =>
    let tiles := match (s.gang x.gid).bind s.bankTemplate with | some t => t.tiles | none => []
    { x with srcTile := some (b, tiles.findIdx (· == (b, n)), none) }
  | _ => x

/-- Records and abandons the tile copies of a team whose shadows are not published; their bytes that counted at a barrier are
to count again, and pending publications are to be made after them (R338, R341, R342). -/
def State.recordCopies (s : State) (tid : Nat) (t : Team) : List (Nat × Copy) × State :=
  let mine := s.copies.filter fun p => t.gangs.contains p.2.gid && p.2.toATile
  let counted := fun (b : Nat) => sumNat ((mine.filter fun p => p.2.bind == some b).map fun p => p.2.counted)
  let unmade := fun (i : Nat) (p : Publish) =>
    { p with due := none, waits := (mine.filter fun x => x.2.record == some i).map Prod.fst }
  let records := mine.filterMap fun p => p.2.record
  let live := fun (e : HEntry) => if e.state = .shadowPending then { e with state := .live } else e
  let again := fun (b : Batch) => if b.copies.any fun i => mine.any fun p => p.1 == i
    then { b with retireAt := none, releasing := false } else b
  let s' := { s with copies := s.copies.filter fun p => !(t.gangs.contains p.2.gid && p.2.toATile) }
  let s' := s'.updTeam tid fun t =>
    { t with records := t.records.map (fun (i, r) => (i, if records.contains i then { r with shadows := [], publishing := r.publishing.map (unmade i) } else r)),
             bars := t.bars.map fun (i, b) => (i, { b with leftN := Nat.min b.expectN (b.leftN + counted i) }) }
  let s' := t.gangs.foldl (fun s gid => s.updGang gid fun g =>
    { g with handles := g.handles.mapAll live,
             groups := g.groups.mapAll fun x => { x with sealed := x.sealed.map again } }) s'
  (mine.map fun p => (p.1, s.recordCopy p.2), s'.sweep tid)

/-- The bytes of a slot by offset. -/
def State.slotBytes (s : State) (core : Nat) (bspace : Bool) (slot : Nat) : Cells 8 :=
  (s.slotCells core bspace slot).map fun p => (p.1 - tileKey core bspace slot 0, p.2)

/-- The private slots of a team: record, side, contents. -/
def State.savedTiles (s : State) (t : Team) : List (Nat × Nat × Cells 8) :=
  t.records.flatMap fun (i, r) => r.slots.map fun p => (i, t.side p.1, s.slotBytes p.1 r.bspace p.2)

/-- The banks of a team's gangs: gang, bank of its allotment, words, kind. -/
def State.savedBanks (s : State) (t : Team) : List (Nat × Nat × Cells 32 × Nat) :=
  t.gangs.flatMap fun gid =>
    match s.gang gid with
    | none => []
    | some g => ((List.range g.banks.length).zip g.banks).map fun (i, b) =>
        let base := accKey g.core b 0 0
        (gid, i, (s.acc.filter fun p => decide (base ≤ p.1 ∧ p.1 < base + 4096)).map (fun p => (p.1 - base, p.2)),
          (s.core g.core).kind b)

/-- The resident entries of a team's launch on its cores (R354). -/
def State.savedResidency (s : State) (t : Team) : List (Nat × Nat) :=
  t.cores.flatMap fun k =>
    ((s.core k).decode.filter fun e => e.launch == t.launch).map fun e => (t.side k, e.index)

/-- Private registers of a team's gangs on a side. -/
def State.privatesOn (s : State) (t : Team) (side : Nat) : Nat :=
  sumNat ((t.gangs.filterMap s.gang).map fun g => if t.side g.core = side then g.privates else 0)

/-- The gangs of a save. -/
def State.savedGangs (s : State) (v : Saved) : List Gang := v.parks.filterMap fun p => s.gang p.1

/-- The batches of a gang that a save records: each group's sealed ones and its open one, empty or not (R340). -/
def Gang.savedBatches (g : Gang) : Nat := sumNat (g.groups.vals.map fun x => x.sealed.length + 1)

/-- The sizes of a save's parts (R340): up to the pad, pad, tile-name records, batch records, gang records, banks, then the
log entries and index jobs. -/
def State.saveParts (s : State) (t : Team) (v : Saved) : List Nat :=
  let gs := s.savedGangs v
  let pad := match s.launch t.launch with | some l => l.pad | none => 0
  [512 + 2 * v.residency.length, pad, 64 * t.records.length + 16384 * v.tiles.length,
   16 * sumNat (gs.map Gang.savedBatches) + 32 * v.copies.length, 20480 * gs.length, 16384 * v.banks.length,
   1600 * sumNat (gs.map fun g => g.log.length) + 336 * v.jobs.length]

/-- The size of a save (R340). DESIGN CHOICE, log 19. -/
def State.saveSize (s : State) (t : Team) (v : Saved) : Nat := sumNat (s.saveParts t v)

/-- The outcome of looking at the pages of a span of the save area (R338). -/
inductive AreaCheck where
  | ok | wait (va : Nat) | bad
deriving DecidableEq, Repr

/-- Checks `n` bytes from `va` on, 64 KiB by 64 KiB. -/
def State.checkPages (s : State) (ctx : Nat) (need : Need) : Nat → Nat → Nat → AreaCheck
  | 0, _, _ => .ok
  | fuel + 1, va, n =>
    if n = 0 then .ok
    else
      let m := Nat.min n (2 ^ 16 - va % 2 ^ 16)
      match s.runKey ctx va m need with
      | .ok _ => State.checkPages s ctx need fuel (va + m) (n - m)
      | .error (true, a) => .wait a
      | .error (false, _) => .bad

/-- Checks the pages of a team's span of the save area. DEDUCED, log 61. -/
def State.checkArea (s : State) (ctx : Nat) (need : Need) (va size : Nat) : AreaCheck :=
  s.checkPages ctx need (size / 2 ^ 16 + 2) va size

/-- A page of the save area is absent: the team waits for its resolution (R338). -/
def State.awaitArea (s : State) (tid core ctx va : Nat) : State :=
  let (id, s) := s.fresh
  { s with faults := s.faults.put id { core := core, context := ctx, addr := va, clients := [.save tid] } }

/-- A fault of the team's save area waits for its resolution. -/
def State.areaWaits (s : State) (tid : Nat) : Bool := s.faults.vals.any fun f => f.clients.contains (.save tid)

/-- Forms the save of a stopped team: what it holds, and its place in the save area. -/
def State.formSave (s : State) (tid : Nat) (t : Team) (v : Saved) (c : Context) : Saved × State :=
  let (jobs, s) := s.withdrawJobs t
  let (copies, s) := s.recordCopies tid t
  let t := (s.team tid).getD t
  let v := { v with formed := true, jobs := jobs, copies := copies, tiles := s.savedTiles t, banks := s.savedBanks t,
                    residency := s.savedResidency t, privates := [s.privatesOn t 0, s.privatesOn t 1],
                    extra := if t.deadlocked then 64 else 0 }
  let size := s.saveSize t v
  ({ v with size := size, offset := (lowestFree 0 (2 ^ 48) size c.saves).getD 0 }, s)

/-- The save of a team is under way: its span is taken, and its last byte comes after the path to the save area and its
bytes (R338, R340). -/
def State.sendSave (s : State) (tid ctx core : Nat) (v : Saved) (c : Context) : State :=
  let path := match s.keyOf ctx (c.saveArea + v.offset) with
    | some k => s.writePathTo (dieOf core) (lineOf k)
    | none => 0
  let due := s.time + path + (v.size + 127) / 128
  let s := { s with contexts := s.contexts.upd ctx fun c => { c with saves := c.saves ++ [(v.offset, v.size)] } }
  (s.updTeam tid fun t => { t with saved := some { v with due := due } }).at due (.saveComplete tid)

/-! ## The bytes of a save (R340, R341, R346)

Bytes whose layout the manual does not give are free. -/

def known (bs : List Byte) : List (Option Byte) := bs.map some
def open_ (n : Nat) : List (Option Byte) := List.replicate n none

/-- A barrier's 32 bytes (R346). -/
def Barrier.bytes (b : Barrier) : List Byte :=
  bytesLE 4 b.expectN ++ bytesLE 4 b.leftN ++ bytesLE 1 b.expectG ++ bytesLE 1 b.leftG ++ bytesLE 2 b.phase ++
    bytesLE 1 b.overrun.toNat ++ bytesLE 3 0 ++ bytesLE 8 b.arrived.toNat ++ bytesLE 8 0

/-- A residency entry (R354). -/
def residentBytes (p : Nat × Nat) : List Byte := bytesLE 2 (p.2 + p.1 * 2 ^ 15)

def HState.code : HState → Nat
  | .free => 0 | .live => 1 | .template => 2 | .aliasRO => 3 | .shadowPending => 4

/-- A handle of a gang record (R341). -/
def handleBytes (s : State) (t : Team) (g : Gang) (h : Nat) : List Byte :=
  let e := g.handle h
  let n := match e.ref with
    | .none => 0
    | .record id => t.records.keys.findIdx (· == id)
    | .template _ n => n
  bytesLE 8 (e.state.code + (s.spaceOf g e).toNat * 8 + e.gen.toNat * 2 ^ 16 + n * 2 ^ 32)

/-- A gang's fixed record (R341): the held records by group and latch, the return stack from its bottom. DEDUCED, log 19. -/
def gangBytes (s : State) (t : Team) (g : Gang) : List (Option Byte) :=
  let v := (List.range 64).flatMap fun r => (List.range 64).flatMap fun p =>
    bytesLE 4 (if g.inherited.getLsbD r then 0 else (g.vreg r p).toNat)
  let sc := (List.range 4).flatMap fun k => (List.range 32).flatMap fun r => bytesLE 8 (g.sreg k r).toNat
  let p := (List.range 8).flatMap fun n => bytesLE 8 (if n = 0 then 2 ^ 64 - 1 else (g.p.get n).toNat)
  let ls := (List.range 4).flatMap fun k => bytesLE 8 (g.lS.get k).toNat
  let lat := [g.lV0, g.lV1, g.lC0, g.lC1].flatMap fun c => (List.range 64).flatMap fun p => bytesLE 4 (c.get p).toNat
  let held := (List.range 4).flatMap fun k => (List.range 4).flatMap fun n =>
    match (g.group k).bind fun x => (x.latch n).held with
    | some ws => known (ws.flatMap fun w => bytesLE 4 w.toNat)
    | none => open_ 32
  let back := g.returns.reverse.flatMap fun a => known (bytesLE 8 a)
  open_ 0x100 ++ known (v ++ sc) ++ open_ 0x100 ++ known (p ++ ls ++ lat) ++ held ++ open_ 64 ++
    known ((List.range 64).flatMap (handleBytes s t g)) ++ open_ (32 + 64) ++ (back ++ open_ 64).take 64 ++
    known (List.replicate 192 0)

/-- A log entry's 1,600 bytes (R330, R340). -/
def entryBytes (g : Gang) (le : LogEntry) : List (Option Byte) :=
  let lane := fun (n : Nat) =>
    match le.elems.find? fun e => (if le.byGroup then e.at_ * g.width else e.at_) == n with
    | some e => known (bytesLE 8 e.addr ++ bytesLE 8 e.data ++ bytesLE 8 e.data2)
    | none => open_ 24
  known (logSummary g.width le (entryState g le)) ++ open_ 32 ++ (List.range 64).flatMap lane

/-- A withdrawn index job's 336 bytes (R340). -/
def jobBytes (j : IndexJob) : List (Option Byte) :=
  let of := fun (l : List (Nat × Nat)) (p : Nat) => match l.find? fun x => x.1 == p with | some x => x.2 | none => 0
  open_ 16 ++ known ((List.range 64).flatMap fun p => bytesLE 1 (of j.names p)) ++
    known ((List.range 64).flatMap fun p => bytesLE 4 (of j.vals p))

/-- The bytes of a cell run of a slot. -/
def slotRun (c : Cells 8) : List Byte := c.getRun 0 slotBytes

/-- The words of a bank, row by row. -/
def bankRun (c : Cells 32) : List Byte := (c.getRun 0 4096).flatMap fun w => bytesLE 4 w.toNat

/-- The private slots of a save in the order of its tile-name records, with their places after the records' start. -/
def tilePlaces (t : Team) (v : Saved) : List (Nat × Nat × Nat × Cells 8) :=
  (t.records.keys.foldl (fun (acc : List (Nat × Nat × Nat × Cells 8) × Nat) i =>
    let mine := v.tiles.filter fun x => x.1 == i
    (acc.1 ++ ((List.range mine.length).zip mine).map (fun p => (acc.2 + 64 + 16384 * p.1, p.2)),
      acc.2 + 64 + 16384 * mine.length)) ([], 0)).1

/-- The bytes of a whole save in order (R340). -/
def saveBytes (s : State) (t : Team) (v : Saved) (pad : Nat) : List (Option Byte) :=
  let gs := s.savedGangs v
  let tiles := fun (i : Nat) => (v.tiles.filter fun x => x.1 == i).flatMap fun x => known (slotRun x.2.2)
  open_ 256 ++ known ((List.range 8).flatMap fun b => (t.bar b).bytes) ++ known (v.residency.flatMap residentBytes) ++
    known (t.pad.getRun 0 pad) ++ (t.records.keys.flatMap fun i => open_ 64 ++ tiles i) ++
    open_ (16 * sumNat (gs.map Gang.savedBatches) + 32 * v.copies.length) ++ gs.flatMap (gangBytes s t) ++
    (v.banks.flatMap fun x => known (bankRun x.2.2.1)) ++
    (gs.flatMap fun g => g.log.flatMap (entryBytes g)) ++ v.jobs.flatMap jobBytes

/-- Writes a save to its span of the save area. -/
def State.writeSave (s : State) (t : Team) (v : Saved) : State :=
  match s.launch t.launch with
  | none => s
  | some l =>
    let (n, s) := s.draw
    let bs := saveBytes s t v l.pad
    let bytes := ((List.range bs.length).zip bs).map fun (i, b) => b.getD (Config.freeSaveByte n i)
    let base := match s.context l.context with | some c => c.saveArea | none => 0
    s.writeVirt l.context (base + v.offset) bytes

/-! ## Leaving and taking cores -/

/-- Returns what a saved team held on its cores (R338); a gang that has ended is not restored, and keeps nothing. -/
def State.vacate (s : State) (tid : Nat) (t : Team) : State :=
  let s := s.leaveCores tid t
  t.gangs.foldl (fun s gid =>
    match s.gang gid with
    | some g => (s.putGang gid { g with seated := false, reserve := if g.park = .ended then 0 else g.reserve }).freeRegisters
        g.core (g.privates + g.reserve)
    | none => s) s

/-- SAVE_COMPLETE (R338): forms the save once the team has settled, and at its last byte returns the team's
resources. DESIGN CHOICE, log 19; DEDUCED, log 59, 61. -/
def execSaveComplete (team : Nat) (s : State) : Host.Outcome State Fault Refusal :=
  match s.team team with
  | none => .next s
  | some t =>
    match t.saved, s.launch t.launch with
    | some v, some l =>
      if t.phase != .stopping then .next s
      else if v.formed then
        if s.time < v.due then .next s
        else
          let s := (s.writeSave t v).vacate team t
          .next (s.updTeam team fun t => { t with phase := .saved })
      else if !s.saveSettled team t v || s.areaWaits team then .next s
      else
        match s.context l.context with
        | none => .next s
        | some c =>
          let (v, s') := s.formSave team t v c
          match s.checkArea l.context .write (c.saveArea + v.offset) v.size with
          | .ok => .next (s'.sendSave team l.context (t.cores.headD 0) v c)
          | .bad => .next (s.failSave team)
          | .wait va => .next (s.awaitArea team (t.cores.headD 0) l.context va)
    | _, _ => .next s

/-! ## Restore (R342, R355) -/

/-- The cores a saved team is restored on: of the first die of its partition where it fits (R342). DESIGN CHOICE, log 60. -/
def State.restorePlace (s : State) (tid : Nat) (t : Team) : Option (List Nat) :=
  (List.range Config.dieCount).findSome? (s.restoreOn tid t)

/-- Takes slots on a restored team's new cores for its records (R342, step 2). -/
def State.restoreSlots (s : State) (tid ctx : Nat) (t : Team) (cores : List Nat) (v : Saved) : State :=
  let s := s.updTeam tid fun t => { t with records := t.records.mapAll fun r => { r with slots := [], shadows := [] } }
  v.tiles.foldl (fun s (i, side, _) =>
    let core := (cores[side]?).getD (cores.headD 0)
    let b := match t.records.find i with | some r => r.bspace | none => false
    let (n, s) := s.takeSlot core ctx b (.record tid i)
    s.updRecord tid i fun r => { r with slots := r.slots.put core n }) s

/-- Gives a restored gang its seat, registers and banks, with the banks' kinds. -/
def State.restoreGang (s : State) (t : Team) (l : Launch) (cores : List Nat) (v : Saved) (gid : Nat) (g : Gang) : State :=
  let core := (cores[t.side g.core]?).getD (cores.headD 0)
  let seat := (s.core core).pickSeat (s.strictTeam t l)
  let (banks, s) := s.takeBanks core gid l.banks
  let kinds := (v.banks.filter fun x => x.1 == gid).filterMap fun x => banks[x.2.1]?.map fun b => (b, x.2.2.2)
  let s := s.updCore core fun c =>
    { c with seats := c.seats.put seat gid, pool := c.pool - (g.privates + g.reserve),
             kinds := kinds.foldl (fun t p => t.put p.1 p.2) c.kinds }
  s.putGang gid { g with core := core, seat := seat, seated := true, banks := banks,
                         handles := g.handles.mapAll fun e => { e with released := [] } }

/-- Asks for the entries of a residency set that are not installed, in order; a refill in flight is awaited (R355). -/
def State.prewarm (s : State) (l : Launch) (tid launch : Nat) (cores : List Nat) (residency : List (Nat × Nat)) : State :=
  let s := residency.foldl (fun s (side, index) =>
    let core := (cores[side]?).getD (cores.headD 0)
    let c := s.core core
    if c.decode.any fun e => e.is launch l.dict index then s
    else
      match c.refills.pick fun r => r.launch == launch && r.dict == l.dict && r.index == index && !r.handler with
      | some (id, r) => s.putCore core { c with refills := c.refills.put id { r with teams := r.teams ++ [tid] } }
      | none =>
        let (id, s) := s.fresh
        let r : Refill := { launch := launch, context := l.context, dict := l.dict, index := index, handler := false,
                            running := false, due := none, stalled := false, prewarm := true, decoded := none,
                            teams := [tid] }
        s.updCore core fun c => { c with refills := c.refills.put id r }) s
  cores.foldl State.startRefills s

/-! ### The save as memory holds it (R338, R340 to R342, R346, R354) -/

/-- The bytes of a span of the save area. -/
def State.areaBytes (s : State) (ctx va n : Nat) : List Byte :=
  match s.readCtx ctx va n with
  | .ok bs => bs
  | .error _ => List.replicate n 0

/-- The residency set of a save, as memory holds it (R354). -/
def residencyOf (bs : List Byte) : List (Nat × Nat) :=
  (chunks 2 (bs.length / 2) bs).map fun p => let x := natOfBytes p; (x / 2 ^ 15, x % 2 ^ 15)

/-- A barrier from its 32 bytes (R346). -/
def Barrier.ofBytes (b : Barrier) (bs : List Byte) : Barrier :=
  let f := fieldOf bs
  { b with expectN := f 0 4, leftN := f 4 4, expectG := f 8 1, leftG := f 9 1, phase := f 10 2, overrun := natBit (f 12 1) 0,
           arrived := BitVec.ofNat 64 (f 16 8) }

def HState.ofCode : Nat → HState
  | 1 => .live | 2 => .template | 3 => .aliasRO | 4 => .shadowPending | _ => .free

/-- A handle from its 8 bytes (R341), by the records of the save. A template or read-only handle may name a record or a
template's tile, which its bytes do not tell apart: it names what the saved entry `e` does. DESIGN CHOICE, log 19. -/
def handleOf (records : List Nat) (e : HEntry) (x : Nat) : HEntry :=
  let st := HState.ofCode (x % 8)
  let n := bitsOf x 47 32
  let record := match records[n]? with | some i => HRef.record i | none => .none
  { state := st, gen := BitVec.ofNat 16 (x / 2 ^ 16), released := []
    ref := match st, e.ref with
      | .free, _ => .none
      | .template, .record _ => record
      | .template, _ => .template (natBit x 3) n
      | .aliasRO, .template _ _ => .template (natBit x 3) n
      | _, _ => record }

/-- Values of `n` bytes each. -/
def valuesOf (n : Nat) (bs : List Byte) : List Nat := (chunks n (bs.length / n) bs).map natOfBytes

/-- Bytes from an offset. -/
def slice (bs : List Byte) (o n : Nat) : List Byte := (bs.drop o).take n

/-- A gang as its record says it (R341): private registers, scalars, predicates, latches, held records, handles and the
return stack; an inherited register is its template's. -/
def Gang.ofRecord (g : Gang) (records : List Nat) (bs : List Byte) : Gang :=
  let v := cellsOf (w := 32) id (valuesOf 4 (slice bs 0x100 16384))
  let lanes := fun (o : Nat) => cellsOf (w := 32) id (valuesOf 4 (slice bs o 256))
  let held := fun (k n : Nat) (l : QLatch) =>
    { l with held := l.held.map fun _ => (valuesOf 4 (slice bs (0x4A60 + 128 * k + 32 * n) 32)).map (BitVec.ofNat 32) }
  let handles := (List.range 64).zip (valuesOf 8 (slice bs 0x4CA0 512))
  { g with
    v := Cells.setAll (v.filter fun p => !g.inherited.getLsbD (p.1 / 64)) (g.v.filter fun p => g.inherited.getLsbD (p.1 / 64))
    p := cellsOf (· + 1) ((valuesOf 8 (slice bs 0x4600 64)).drop 1)
    lS := cellsOf id (valuesOf 8 (slice bs 0x4640 32))
    lV0 := lanes 0x4660, lV1 := lanes 0x4760, lC0 := lanes 0x4860, lC1 := lanes 0x4960
    groups := g.groups.map fun (k, x) => (k, { x with
      s := cellsOf id (valuesOf 8 (slice bs (0x4100 + 256 * k) 256))
      qh := x.qh.map fun (n, l) => (n, held k n l) })
    handles := handles.foldl (fun t p => if p.2 = 0 then t.del p.1 else t.put p.1 (handleOf records (g.handle p.1) p.2)) g.handles
    returns := ((valuesOf 8 (slice bs 0x4F00 64)).take g.returns.length).reverse }

/-- A log entry as the save's 1,600 bytes say it: each element's address, data and second operand (R340). -/
def LogEntry.ofBytes (width : Nat) (le : LogEntry) (bs : List Byte) : LogEntry :=
  { le with elems := le.elems.map fun e =>
      let f := fieldOf (slice bs (64 + 24 * if le.byGroup then e.at_ * width else e.at_) 24)
      { e with addr := f 0 8, data := f 8 8, data2 := f 16 8 } }

/-- A withdrawn index job as the save's 336 bytes say it: its lane indices and the data it read at issue (R183, R340). -/
def IndexJob.ofBytes (j : IndexJob) (bs : List Byte) : IndexJob :=
  let f := fieldOf bs
  let job : IndexJob := { j with names := j.names.map fun x => (x.1, f (16 + x.1) 1 % 64)
                                 vals := j.vals.map fun x => (x.1, f (80 + 4 * x.1) 4) }
  job.again

/-- Log entries of gangs, from the bytes of those of each gang in turn. -/
def State.loadLogs (s : State) (gangs : List Nat) (bs : List Byte) : State :=
  (gangs.foldl (fun (acc : State × Nat) gid =>
    match acc.1.gang gid with
    | none => acc
    | some g =>
      let log := ((List.range g.log.length).zip g.log).map fun (n, le) =>
        le.ofBytes g.width (slice bs (1600 * (acc.2 + n)) 1600)
      (acc.1.putGang gid { g with log := log }, acc.2 + g.log.length)) (s, 0)).1

/-- Takes a save's contents from memory: barriers, pad, tiles, gangs, banks and log entries (R342, steps 2 to 5); what R340 and R341 name
without a layout is as it was saved. DESIGN CHOICE, log 19. -/
def State.loadSave (s : State) (tid : Nat) (t : Team) (v : Saved) (bs : List Byte) : State :=
  match s.saveParts t v with
  | [a, pad, recs, batches, gangs, banks, _] =>
    let gangsAt := a + pad + recs + batches
    let gs := v.parks.map Prod.fst
    let banksAt := gangsAt + gangs
    let s := s.updTeam tid fun t =>
      { t with bars := (List.range 8).map fun b => (b, (t.bar b).ofBytes (slice bs (256 + 32 * b) 32))
               pad := cellsOf id ((slice bs a pad).map BitVec.toNat) }
    let s := (tilePlaces t v).foldl (fun s (o, i, side, _) =>
      let core := (t.cores[side]?).getD (t.cores.headD 0)
      match (t.records.find i).bind fun r => (r.slots.find core).map fun n => (r.bspace, n) with
      | some (b, n) =>
        let base := tileKey core b n 0
        s.setSlotCells core b n (cellsOf (base + ·) ((slice bs (a + pad + o) 16384).map BitVec.toNat))
      | none => s) s
    let s := ((List.range gs.length).zip gs).foldl (fun s (n, gid) =>
      s.updGang gid fun g => g.ofRecord t.records.keys (slice bs (gangsAt + 20480 * n) 20480)) s
    let s := s.loadLogs gs (bs.drop (banksAt + banks))
    ((List.range v.banks.length).zip v.banks).foldl (fun s (n, gid, i, _) =>
      match (s.gang gid).bind fun g => g.banks[i]?.map fun b => (g.core, b) with
      | some (core, b) =>
        let ws := valuesOf 4 (slice bs (banksAt + 16384 * n) 16384)
        s.setBank core b fun i j => (ws[64 * i + j]?).getD 0
      | none => s) s
  | _ => s

/-- The index jobs of a save, as memory holds them (R340, R342). -/
def Saved.jobsOf (v : Saved) (bs : List Byte) : List IndexJob :=
  let at_ := v.size - 336 * v.jobs.length
  ((List.range v.jobs.length).zip v.jobs).map fun (n, j) => j.ofBytes (slice bs (at_ + 336 * n) 336)

/-- The cycle in which a restore has been read: the path to the save area, and its bytes (R338). -/
def State.restoreEnd (s : State) (ctx core : Nat) (v : Saved) (c : Context) : Nat :=
  let path := match s.keyOf ctx (c.saveArea + v.offset) with
    | some k => s.pathTo (dieOf core) (lineOf k)
    | none => 0
  s.time + path + (v.size + 127) / 128

/-- Begins a restore on cores (R342, steps 1, 2 and 4): what it needs there is taken, and its entries are pre-warmed. -/
def State.beginRestore (s : State) (tid : Nat) (t : Team) (l : Launch) (v : Saved) (c : Context) (cores : List Nat) : State :=
  let due := s.restoreEnd l.context (cores.headD 0) v c
  let residency := residencyOf (s.areaBytes l.context (c.saveArea + v.offset + 512) (2 * v.residency.length))
  let s := (s.takeCores tid t l cores).passOver (dieOf (cores.headD 0)) t.place
  let s := s.restoreSlots tid l.context t cores v
  let s := v.parks.foldl (fun s p =>
    match s.gang p.1 with
    | some g => s.restoreGang t l cores v p.1 g
    | none => s) s
  -- a gang that has ended keeps its side of the team
  let moved := fun (g : Gang) => { g with core := (cores[t.side g.core]?).getD (cores.headD 0) }
  let s := (t.gangs.filter fun i => !v.parks.any fun p => p.1 == i).foldl (fun s i => s.updGang i moved) s
  let s := { s with arrivals := s.arrivals.mapAll fun a =>
      if a.team = tid then { a with core := (cores[t.side a.core]?).getD (cores.headD 0) } else a }
  let s := s.updTeam tid fun t => { t with phase := .restoring, saved := some { v with due := due } }
  (s.prewarm l tid t.launch cores residency).at due (.restore tid)

/-- The save has come and is to be taken in. -/
def State.loadDue (s : State) (tid : Nat) (t : Team) : Bool :=
  t.phase == .restoring && (match t.saved with | some v => !v.loaded && decide (v.due ≤ s.time) | none => false) &&
    !s.areaWaits tid

/-- A restore is complete but for its last steps: read, template installed, residency pre-warmed. DESIGN CHOICE, log 60. -/
def State.restoreReady (s : State) (tid : Nat) (t : Team) : Bool :=
  match t.saved, s.launch t.launch with
  | some v, some l =>
    t.phase == .restoring && v.loaded &&
    (t.cores.all fun k =>
      !((s.core k).refills.vals.any fun r => r.teams.contains tid) &&
      (match t.startKey l with
       | none => true
       | some key => (s.core k).templates.vals.any fun b => b.key == key && b.due.isNone))
  | _, _ => false

/-- Issues a recorded copy again: the shadow is made anew where it has none (R203, R342). -/
def State.reissueCopy (s : State) (id : Nat) (x : Copy) : State :=
  match s.gang x.gid, x.record with
  | some g, some rec =>
    let none_ := match s.record x.team rec with | some r => r.shadows.isEmpty | none => false
    let s := if none_ then s.makeShadows g rec else s
    let pending := fun (e : HEntry) =>
      if e.ref = .record rec && e.state == .live then { e with state := .shadowPending } else e
    let s := s.updGang x.gid fun g => { g with handles := g.handles.mapAll pending }
    let shadows := match s.record x.team rec with | some r => r.shadows | none => []
    let src := match x.srcTile with
      | some (b, n, none) =>
        (s.bankTemplate g).bind fun t => (t.tiles[n]?).map fun y => (b, y.2, (none : Option Nat))
      | some (b, _, some r) => (s.record x.team r).bind fun y => (y.slots.find g.core).map fun n => (b, n, some r)
      | none => none
    let x := { x with core := g.core, shadows := shadows, fresh := none_, cow := false, srcTile := src, stage := 0,
                      due := 0, gct := 0, landed := false, counted := 0, data := [], pages := [], checked := 0 }
    ({ s with copies := s.copies.put id x } : State).at s.time (.copyCompletion id)
  | _, _ => s

/-- Makes a restored gang go on as it stood: its trap is raised again, its log entries are issued again (R267, R339,
R342). -/
def State.resumeGang (s : State) (gid : Nat) (p : Park) : State :=
  let s := s.updGang gid fun g =>
    let again := fun (e : Elem) => { e with faulted := false }
    { g with park := (if p = .trapped then .none else p), agedFrom := s.time, lastIssue := none, aged := false, folded := 0,
             fetch := .idle, log := g.log.map (fun le => { le with elems := le.elems.map again }),
             sync := g.sync.map fun o => if o.drops then { o with stage := 0 } else o }
  let s := s.tryLog gid
  match s.gang gid with
  | none => s
  | some g =>
    match p, g.trap with
    | .trapped, some t => s.takeTrap gid t g.trapPos g.trapNext
    | _, _ => s

/-- Ends a restore (R342, steps 5 and 6); its span of the save area is free again (R340). -/
def State.endRestore (s : State) (tid ctx : Nat) (v : Saved) : State :=
  let s := { s with contexts := s.contexts.upd ctx fun c => { c with saves := c.saves.filter fun x => x != (v.offset, v.size) } }
  let s := v.jobs.foldl (fun s j =>
    match s.gang j.gid with
    | some g => (s.updCore g.core fun c => { c with index := c.index ++ [j] }).atOnce (4 * (s.beat + 1)) (.indexJobLand g.core)
    | none => s) s
  let s := s.updTeam tid fun t => { t with phase := .placed, saved := none, deadlocked := false }
  let s := v.parks.foldl (fun s p => s.resumeGang p.1 p.2) s
  let s := v.copies.foldl (fun s p => s.reissueCopy p.1 p.2) s
  let s := v.claims.foldl (fun s c =>
    let core := match s.gang c.gid with | some g => g.core | none => c.core
    s.claim { c with core := core, seq := none, due := none }) s
  let s := v.mbox.foldl (fun s m =>
    match s.gang m.1 with
    | some g => (s.updCore g.core fun c => { c with mbox := c.mbox ++ [m] }).mboxStep g.core
    | none => s) s
  s.startTeam tid

/-- Goes on with a team's save area once its pages are there for an access; an absent page is waited for, and one that the
access may not use resets the context (R338). -/
def State.withArea (s : State) (tid core : Nat) (l : Launch) (v : Saved) (c : Context) (f : State → State) : State :=
  match s.checkArea l.context .read (c.saveArea + v.offset) v.size with
  | .ok => f s
  | .wait va => s.awaitArea tid core l.context va
  | .bad => s.failSave tid

/-- RESTORE (R342): begins the restore of a saved team where it fits, takes in its save when it has been read, and ends it
once everything is there. DESIGN CHOICE, log 19; DEDUCED, log 59. -/
def execRestore (team : Nat) (s : State) : Host.Outcome State Fault Refusal :=
  match s.team team with
  | none => .next s
  | some t =>
    match t.saved, s.launch t.launch with
    | some v, some l =>
      match s.context l.context with
      | none => .next s
      | some c =>
        if s.restoreReady team t then .next (s.endRestore team l.context v)
        else if s.loadDue team t then
          .next (s.withArea team (t.cores.headD 0) l v c fun s =>
            let bs := s.areaBytes l.context (c.saveArea + v.offset) v.size
            (s.loadSave team t v bs).updTeam team fun t => { t with saved := some { v with loaded := true, jobs := v.jobsOf bs } })
        else
          match s.restorePlace team t with
          | some cores => .next (s.withArea team (cores.headD 0) l v c fun s => s.beginRestore team t l v c cores)
          | none => .next s
    | _, _ => .next s

/-! ## Placement with pre-emption (R320 to R322, R337) -/

/-- A team already on its way off its cores, one that is being killed or restarted among them (R337, R344). -/
def Team.leaving (t : Team) : Bool := t.phase == .stopping || t.phase == .killed || (t.phase == .placed && t.deadline.isSome)

/-- The state without the teams that are leaving a die. -/
def State.without (s : State) (die : Nat) : State :=
  (s.teams.filter fun p => p.2.die == die && p.2.leaving).foldl (fun s p =>
    { (s.vacate p.1 p.2) with teams := s.teams.del p.1 }) s

/-- The team a die's dispatcher soft-pre-empts for a pending team: the most recently placed of lower class, while what
the victims hold is not enough (R337). -/
def State.victimFor (s : State) (tid : Nat) (t : Team) : Option Nat :=
  match s.launch t.launch with
  | none => none
  | some l =>
    if t.phase == .pending && s.mayPlace t && s.dieOpen t.die tid t && (s.bestPlace t l t.die).isNone &&
        ((s.without t.die).bestPlace t l t.die).isNone then
      (minBy (fun p : Nat × Team => s.nextId - p.2.order)
        (s.teams.filter fun p => p.2.phase == .placed && p.2.die == t.die && p.2.deadline.isNone && !p.2.prologue &&
          decide (s.teamClass p.2 < s.teamClass t))).map Prod.fst
    else none

/-- The pending team of a die, oldest first, that has a victim. -/
def State.nextVictim (s : State) (die : Nat) : Option (Nat × Nat) :=
  (sortBy (fun p => p.2.place) (s.teams.filter fun p => p.2.waitsOn die)).findSome? fun p =>
    (s.victimFor p.1 p.2).map fun v => (p.1, v)

/-- TEAM_PLACEMENT (R320 to R322, R337): places a pending team where it fits, or makes room for it. -/
def execTeamPlacement (die team : Nat) (s : State) : Host.Outcome State Fault Refusal :=
  match s.team team with
  | none => .next s
  | some t =>
    if t.die = die then
      match s.placeOf team t with
      | some cores => .next (s.placeTeam team cores)
      | none =>
        match s.victimFor team t with
        | some v => .next (s.softPreempt v)
        | none => .next s
    else .next s

end Sys2Proof.Machine
end

