-- ==== Sys2Proof/Machine/Faults.lean ====
section
/-! DEFINITION. The end of a page-table walk and the resolution of recoverable faults (R103, R108, R205, R262 to R267,
R306 to R308, R315, R338). -/

namespace Sys2Proof.Machine

/-- Two addresses stand in one granule of 64 KiB, the smallest page (R259). -/
def samePage (a b : Nat) : Bool := a / 2 ^ 16 == b / 2 ^ 16

/-- What of a client's accesses a translation concerns: the addresses of its page, by base and size. -/
def inSpan (sp : Nat × Nat) (a : Nat) : Bool := decide (sp.1 ≤ a ∧ a < sp.1 + sp.2)

/-- The granule of 64 KiB of an address. -/
def granule (va : Nat) : Nat × Nat := (va / 2 ^ 16 * 2 ^ 16, 2 ^ 16)

/-! ## Clients whose translation fails -/

/-- The address at which a gang's fetch misses: the first byte from its position that the stream cache lacks. -/
def State.fetchAddress (s : State) (g : Gang) : Nat :=
  let va := s.streamAt g
  match (s.core g.core).streamRun g.context va 64 with
  | .error a => a
  | .ok _ => va

/-- A refill whose bytes cannot be translated ends: the gangs that wait for its entry are to trap (R108). -/
def State.refillBad (s : State) (core id va : Nat) : State :=
  match (s.core core).refills.find id with
  | none => s
  | some r => (s.dropRefill core id r va).startRefills core

/-- The address of a refill that stands in a page. -/
def Refill.addressIn (r : Refill) (sp : Nat × Nat) : Nat :=
  let a := r.dict + 0x40 + 40 * r.index
  (([r.dict, a, a + 39]).find? (inSpan sp)).getD sp.1

/-- The elements of a log entry that wait for a page. -/
def LogEntry.inPage (le : LogEntry) (sp : Nat × Nat) : List Elem :=
  le.elems.filter fun e => !e.performed && inSpan sp e.addr

/-- Takes the oldest waiting write of a status block off. -/
def HiveQueue.dropStatus (x : HiveQueue) (va : Nat) : HiveQueue :=
  { x with statusWaits := eraseFirst (fun w => w.2.1 == va) x.statusWaits }

/-- Makes the waiting writes of a status block, in order, until one waits again (R308). -/
def State.flushStatus (s : State) (q va : Nat) : Nat → State
  | 0 => s
  | fuel + 1 =>
    match (s.queue q).statusWaits.find? fun w => w.2.1 == va with
    | some (ctx, a, bs) =>
      match s.putStatus q ctx a bs with
      | (s, true) => State.flushStatus (s.updQueue q fun x => x.dropStatus va) q va fuel
      | (s, false) => s.queueFaultRec q ctx a
    | none => s

/-- Drops the status block write that waited, as its page cannot be written, and goes on with the next (R308). -/
def State.dropStatus (s : State) (q va : Nat) : State :=
  match (s.queue q).statusWaits.find? fun w => w.2.1 == va with
  | none => s
  | some (ctx, _, _) =>
    let s := (s.errorEvent 4 ctx (bytesLE 4 q)).updQueue q fun x => x.dropStatus va
    s.flushStatus q va (s.queue q).statusWaits.length

/-- A queue's fault concerns a status block. -/
def State.faultsStatus (s : State) (q va : Nat) : Bool := (s.queue q).statusWaits.any fun w => w.2.1 == va

/-- A queue's fault concerns the ring place that it is FAULTED for. -/
def HiveQueue.faultsPlace (x : HiveQueue) (va : Nat) : Bool :=
  x.fcode == 1 && match x.cfg with | some c => samePage (c.ring + 32 * x.fplace) va | none => false

/-- What waits for a translation of the page at `va` learns that there is none (R103, R108, R205, R266, R306, R315,
R338); `code` is DETAIL1 of a fetch's trap (R329). An access that no longer waits for an address of the page asks again.
DEDUCED, log 65. -/
def State.failClient (s : State) (va : Nat) (sp : Nat × Nat) (code : Nat) (cl : Client) : State :=
  match cl with
  | .log gid seq =>
    match (s.gang gid).bind fun g => g.log.find? fun le => le.seq == seq with
    | none => s
    | some le =>
      match le.inPage sp with
      | [] => s.tryLog gid
      | e :: _ => (s.pageFault gid seq e).tryLog gid
  | .copy id =>
    match s.copies.find id with
    | none => s
    | some x => s.copyFault id x (((x.touches.drop x.checked).head?.map Prod.fst).getD va)
  | .fetch gid =>
    match s.gang gid with
    | none => s
    | some g =>
      match g.fetch with
      | .walk next => s.setFetch gid (.trap (streamTrap (s.fetchAddress g) code g.activeMask) next)
      | _ => s
  | .refill core id =>
    match (s.core core).refills.find id with
    | none => s
    | some r => s.refillBad core id (r.addressIn sp)
  | .queue q =>
    if s.faultsStatus q va then s.dropStatus q va
    else if (s.queue q).faultsPlace va then s.faultQueue q 3 (s.queue q).fplace va
    else s
  | .submit id =>
    match s.submits.find id with
    | none => s
    | some sub => s.refuseSubmit id sub
  | .save team => s.failSave team
  | .command hsn => s.failCommand hsn 6 0

/-! ## Clients whose page is there -/

/-- A queue's code 1 fault is resolved: the faulted append is made, or the faulted burst starts, and then the queue leaves
FAULTED (R307). -/
def State.recoverQueue (s : State) (q : Nat) : State :=
  let x := s.queue q
  if x.recs.any fun r => r.place == .ring x.fplace then s.updQueue q fun x => { x with recovering := true }
  else match s.acceptFirst q with
    | (s, true) => s.leaveFaulted q
    | (s, false) => s

/-- What waited for a translation of the page at `va` tries again, through a new walk where it needs one (R264). -/
def State.retryClient (s : State) (va : Nat) (sp : Nat × Nat) (cl : Client) : State :=
  match cl with
  | .log gid seq =>
    (s.updGang gid fun g => { g with log := g.log.map fun le =>
      if le.seq = seq then
        { le with elems := le.elems.map fun e => if inSpan sp e.addr then { e with faulted := false } else e }
      else le }).tryLog gid
  | .copy id => s.at s.time (.copyCompletion id)
  | .fetch gid =>
    match s.gang gid with
    | some g => match g.fetch with | .walk _ => s.setFetch gid .idle | _ => s
    | none => s
  | .refill core id => s.at s.time (.refillInstall core id)
  | .queue q =>
    if s.faultsStatus q va then s.flushStatus q va (s.queue q).statusWaits.length
    else if (s.queue q).faultsPlace va then s.recoverQueue q
    else s
  | .submit id => s.decideSubmit id
  | .save _ => s
  | .command _ => s

/-! ## Walks (R262) -/

/-- Starts waiting walks of a die while fewer than 64 run, in request order. -/
def State.startWalks (s : State) (die : Nat) : State :=
  s.walks.foldl (fun s p =>
    if dieOf p.2.core = die ∧ p.2.due.isNone && decide (s.walksRunning die < Config.walksPerDie) then s.startWalk p.1 p.2
    else s) s

/-- The addresses a reported fault concerns: those of its page, by base and size. -/
def FaultRec.span (f : FaultRec) : Nat × Nat := (f.addr / f.size * f.size, f.size)

/-- Reports a recoverable fault of a page to the die's supervisor (R264); the page's clients on one core share the report. -/
def State.reportFault (s : State) (w : Walk) (sp : Nat × Nat) : State :=
  let s := w.clients.foldl (fun s cl =>
    match cl with
    | .log gid seq => s.updGang gid fun g => { g with log := g.log.map fun le =>
        if le.seq = seq then
          { le with elems := le.elems.map fun e => if !e.performed && inSpan sp e.addr then { e with faulted := true } else e }
        else le }
    | _ => s) s
  match s.faults.pick fun f => f.core == w.core && f.context == w.context && f.span == sp with
  | some (id, f) =>
    { s with faults := s.faults.put id { f with clients := f.clients ++ w.clients.filter fun c => !f.clients.contains c } }
  | none =>
    let (id, s) := s.fresh
    { s with faults := s.faults.put id { core := w.core, context := w.context, addr := w.addr, size := sp.2, clients := w.clients } }

/-- The page of a walk allows what a client asks of it; a translation that faults for every client is not entered in the
TLB (R262). -/
def State.clientAllowed (s : State) (e : TlbEntry) (va : Nat) (cl : Client) : Bool :=
  match cl with
  | .log gid seq =>
    match (s.gang gid).bind fun g => g.log.find? fun le => le.seq == seq with
    | some le => (le.inPage (e.base, e.size)).any fun x => s.allows e x.addr le.need
    | none => s.allows e va .read
  | .copy id =>
    match (s.copies.find id).bind fun x => (x.touches.drop x.checked).head? with
    | some (a, _, need) => s.allows e a need
    | none => s.allows e va .read
  | .fetch _ | .refill _ _ => s.allows e va .fetch
  | .queue _ | .submit _ | .save _ | .command _ => s.allows e va .read

/-- TLB_WALK_DONE (R261, R262, R264): the tables are read as they then stand, and the outcome is that of the whole page, the
host's answer for a host page included. A translation enters the core's TLB and
its clients go on; a recoverable fault is reported; an unrecoverable one reaches the clients. DEDUCED, log 100. -/
def execTlbWalkDone (die walk : Nat) (s : State) : Host.Outcome State Fault Refusal :=
  match s.walks.find walk with
  | none => .next (s.startWalks die)
  | some w =>
    match w.due with
    | none => .next (s.startWalks die)
    | some t =>
      if s.time < t then .next s
      else
        let tr := s.walkHost w.context w.addr
        let goes : Bool := match tr with
          | .page e _ => w.clients.any (s.clientAllowed e w.addr)
          | _ => false
        let sp := s.pageSpan w.context w.addr
        let s := { s with walks := s.walks.del walk }
        let s := tr.levels.foldl (fun s k => s.keepInL2 (lineOf k)) s
        let s := s.startWalks die
        match tr with
        | .page e _ =>
          if goes then
            let s := s.updCore w.core fun c => c.tlbUse e
            .next (w.clients.foldl (fun s cl => s.retryClient w.addr sp cl) s)
          else .next (w.clients.foldl (fun s cl => s.failClient w.addr sp (if e.exec then 4 else 2) cl) s)
        | .absent _ => .next (s.reportFault w sp)
        | .bad _ => .next (w.clients.foldl (fun s cl => s.failClient w.addr sp 4 cl) s)

/-- FAULT_RESOLUTION (R264, R266): the supervisor has resolved a fault, and what waited is issued again; or it could
not, and the fault is unrecoverable. -/
def execFaultResolution (fault : Nat) (success : Bool) (s : State) : Host.Outcome State Fault Refusal :=
  match s.faults.find fault with
  | none => .next s
  | some f =>
    let s := { s with faults := s.faults.del fault, draws := s.draws + 1 }
    .next (f.clients.foldl (fun s cl =>
      if success then s.retryClient f.addr f.span cl else s.failClient f.addr f.span 4 cl) s)

end Sys2Proof.Machine
end

