-- ==== Sys2Proof/Machine/Ring.lean ====
section
/-! DEFINITION. The host command ring and its commands, the event ring's registers and partitions (R263, R295, R336,
R338, R373 to R380, R385). -/

namespace Sys2Proof.Machine

/-! ## Taking commands (R374, R375, R385) -/

/-- The ring registers are open to the host: stage 7, and the package awake (R378, R387, R390). DEDUCED, log 78. -/
def State.ringOpen (s : State) : Bool := s.bootStage == 7 && !s.sleeping

/-- The ring's device address and its log2 size (R373). -/
def State.ringBase (s : State) : Nat := s.ringCfg / 2 ^ 12 * 2 ^ 12
def State.ringLog (s : State) : Nat := s.ringCfg % 32

/-- The 64 bytes at the ring slot of a host sequence number (R374). -/
def State.ringSlot (s : State) (h : Nat) : List Byte :=
  s.bytesAt (memKey kindDevice (s.ringBase + 64 * (h % 2 ^ s.ringLog))) 64

/-- The ring stops (R375). -/
def State.haltRing (s : State) (cause : Nat) : State := ({ s with ringState := 1, haltCause := cause } : State).mirror

def knownOpcode (op : Nat) : Bool := decide (1 ≤ op ∧ op ≤ 11)

/-- Takes the next command: it stands in the journal before CONSUMED_SEQ advances over it (R375, R385). An unknown
opcode fails. DEDUCED, log 72, 79. -/
def State.takeOne (s : State) : State :=
  let h := s.consumedSeq + 1
  let bs := s.ringSlot h
  if fieldOf bs 8 8 ≠ h then s.haltRing 1
  else
    let c : Command := { opcode := fieldOf bs 0 2, context := fieldOf bs 4 4, bytes := bs, started := false,
                         complete := false, waits := [] }
    let s := ({ s with commands := s.commands.put h c, consumedSeq := h } : State).mirror
    if knownOpcode c.opcode then s else s.failCommand h 1 0

/-- Takes the commands that are available, in order. -/
def State.takeCommands (s : State) : Nat → State
  | 0 => s
  | fuel + 1 =>
    if s.ringOpen && s.leads && s.ringState == 0 && decide (s.consumedSeq < s.doorbell) then
      State.takeCommands s.takeOne fuel
    else s

def State.takeAll (s : State) : State := s.takeCommands (s.doorbell - s.consumedSeq)

/-- DOORBELL (R375): a lower value is ignored, one beyond the ring's size halts the ring. -/
def execDoorbell (value : Word64) (s : State) : Host.Outcome State Fault Refusal :=
  if !s.ringOpen || s.ringState != 0 || decide (value.toNat < s.doorbell) then .next s
  else if s.consumedSeq + 2 ^ s.ringLog < value.toNat then .next (s.haltRing 2)
  else .next ({ s with doorbell := value.toNat } : State).takeAll

/-- RESYNC (R377, R380, R388): the commands not yet taken are discarded, the ring runs, and the held events above
ACK_SEQ are written again with their numbers: at once, or as soon as each may be written. DEDUCED, log 78. -/
def execResync (value : Word64) (s : State) : Host.Outcome State Fault Refusal :=
  let _ := value
  if !s.ringOpen then .next s
  else
    let s := ({ s with doorbell := s.consumedSeq, ringState := 0, haltCause := 0 } : State).mirror
    .next ({ s with rewrites := (s.events.filter fun p => decide (s.ackSeq < p.1)).map Prod.fst } : State).flushEvents

/-- ACK_SEQ (R380): acknowledged events are no longer held; events lost are reported, and held ones written. -/
def execAckSeq (value : Word64) (s : State) : Host.Outcome State Fault Refusal :=
  if !s.ringOpen then .next s
  else
    let s := { s with ackSeq := value.toNat, events := s.events.filter fun p => decide (value.toNat < p.1) }
    let s := if 0 < s.eventsLost ∧ s.events.length < 4096 then
        ({ s with eventsLost := 0 } : State).emit { type := 5, context := 0, hsn := 0, detail := bytesLE 8 s.eventsLost }
      else s
    .next s.flushEvents

/-- A log2 size that a ring may have (R373). DEDUCED, log 78. -/
def ringLogOk (v : Nat) : Bool := decide (6 ≤ v % 32 ∧ v % 32 ≤ 16)

/-- RINGCFG (R373, R378): configures the ring where it is not running and nothing taken is incomplete. DEDUCED, log 78. -/
def execRingcfg (value : Word64) (s : State) : Host.Outcome State Fault Refusal :=
  let v := value.toNat
  if s.ringOpen && (s.ringState == 2 || (s.ringState == 1 && s.completedSeq == s.consumedSeq)) && ringLogOk v then
    .next ({ s with ringCfg := v / 2 ^ 12 * 2 ^ 12 + v % 32, doorbell := 0, consumedSeq := 0, completedSeq := 0,
                    commands := [], ringState := 0, haltCause := 0 } : State).mirror
  else .next s

/-- EVCFG (R373, R378): held events are written once the ring has an address. DEDUCED, log 78. -/
def execEvcfg (value : Word64) (s : State) : Host.Outcome State Fault Refusal :=
  let v := value.toNat
  if s.ringOpen && ringLogOk v then .next ({ s with evCfg := v / 2 ^ 12 * 2 ^ 12 + v % 32 } : State).flushEvents
  else .next s

/-! ## What a command's bytes may be (R375, R376) -/

/-- A field of a command. -/
def Command.u (c : Command) (o n : Nat) : Nat := fieldOf c.bytes o n

/-- The bytes of a command that its opcode gives a meaning: offset and length. DEDUCED, log 73. -/
def Command.used (c : Command) : List (Nat × Nat) :=
  [(0, 2), (4, 12)] ++
  match c.opcode with
  | 1 => [(0x10, 16)]
  | 2 => [(0x10, 24)]
  | 3 => [(0x10, 4), (0x18, 8)]
  | 4 => [(0x10, 4), (0x20, 32)]
  | 5 => [(0x10, 16)]
  | 7 => [(0x10, 8)]
  | 8 => [(0x10, 16)]
  | 9 => if natBit (c.u 0x10 4) 0 then [(0x10, 48)] else [(0x10, 36), (0x34, 12)]
  | 10 => [(0x10, 8)]
  | 11 => [(0x10, 4)]
  | _ => []

/-- Some reserved byte or bit of a command is not zero. DEDUCED, log 73. -/
def Command.reserved (c : Command) : Bool :=
  ((List.range 64).any fun o => !(c.used.any fun p => decide (p.1 ≤ o ∧ o < p.1 + p.2)) && c.u o 1 != 0) ||
    (c.opcode == 10 && c.context != 0) ||
    (c.opcode == 9 && c.u 0x30 4 / 2 != 0)

/-- The command names a context that has to exist: all but PARTITION and CONTEXT create (R374, R375). DEDUCED, log 73. -/
def Command.needsContext (c : Command) : Bool :=
  match c.opcode with
  | 10 => false
  | 9 => c.u 0x10 4 != 0
  | _ => true

/-- The memory ranges of a partition hold an address. DEDUCED, log 73. -/
def State.rangesHold (s : State) (p pa : Nat) : Bool :=
  match s.partitions.find p with
  | some x => x.ranges.any fun r => decide (r.1 ≤ pa ∧ pa < r.1 + r.2)
  | none => false

/-- The code with which a command fails before it acts (R375), or nothing. DEDUCED, log 73. -/
def State.commandError (s : State) (c : Command) : Option Nat :=
  if c.reserved then some 2
  else if c.needsContext && (s.context c.context).isNone then some 3
  else
    match c.opcode with
    | 1 => if c.u 0x10 8 % 128 = 0 then none else some 8
    | 2 => if c.u 0x20 8 < 2 ^ 40 then none else some 8
    | 3 => if s.ownsQueue c.context (c.u 0x10 4) then none else some 4
    | 4 => if s.ownsQueue c.context (c.u 0x10 4) then none else some 4
    | 5 => if c.u 0x10 8 % 8 = 0 then none else some 8
    | 7 => if c.u 0x14 4 < 2 then none else some 8
    | 9 =>
      if 1 < c.u 0x10 4 then some 8
      else if c.u 0x10 4 = 1 then none
      else if s.lifecycle = 2 ∨ (s.context c.context).isSome then some 3
      else if (s.partitions.find (c.u 0x14 4)).isNone then some 8
      else if c.u 0x18 8 % 2048 ≠ 0 ∨ c.u 0x38 8 % 2 ^ 16 ≠ 0 then some 8
      else if !s.rangesHold (c.u 0x14 4) (c.u 0x18 8) then some 4
      else none
    | 10 => if s.contexts.isEmpty then (if c.u 0x10 8 + 832 ≤ Config.deviceSize then none else some 8) else some 4
    | _ => none

/-! ## The order of commands (R376) -/

/-- Commands before one that are not complete. -/
def State.earlier (s : State) (hsn : Nat) : List Command :=
  (s.commands.filter fun p => decide (p.1 < hsn) && !p.2.complete).map Prod.snd

/-- A command may start: every earlier one has started, an earlier QUEUE_PUSH has been accepted, and what its kind
waits for has completed. -/
def State.mayStart (s : State) (hsn : Nat) (c : Command) : Bool :=
  let before := s.earlier hsn
  s.leads && s.ringOpen && before.all (fun e => e.started && e.opcode != 4) &&
  match c.opcode with
  | 5 | 6 => before.isEmpty
  | 1 | 4 | 7 => !before.any fun e => e.opcode == 2 && e.context == c.context
  | _ => true

/-- The die that a command is for, whose exit from A2 it starts: the one of its queue, or the leader's for a COPY (R390).
DEDUCED, log 87. -/
def Command.forDie (c : Command) (leader : Nat) : Option Nat :=
  match c.opcode with
  | 2 => some leader
  | 3 | 4 => if c.u 0x10 4 < Config.queueCount then some (queueDie (c.u 0x10 4)) else none
  | _ => none

/-- Starts a die's exit from A2 (R389, R390). -/
def State.wakeDie (s : State) : Option Nat → State
  | some die => if (s.parkedDies.find die).isSome then s.wakeCore (die * Config.coresPerDie) else s
  | none => s

/-- What a command does: `again` says that it has started before. -/
abbrev Action := State → Nat → Command → Bool → State

/-- Runs a command of a kind: it starts when it may, fails when its bytes are wrong, and else acts; one that has
started goes on. -/
def runCommand (kind : Command → Bool) (act : Action) (hsn : Nat) (s : State) : Host.Outcome State Fault Refusal :=
  match s.commands.find hsn with
  | none => .next s
  | some c =>
    if c.complete || !kind c || !(s.leads && s.ringOpen) then .next s
    else if c.started then .next (act s hsn c true)
    else if !s.mayStart hsn c then .next s
    else
      let s := ({ s with commands := s.commands.upd hsn fun c => { c with started := true } } : State).wakeDie (c.forDie s.leader)
      match s.commandError c with
      | some code => .next (s.failCommand hsn code 0)
      | none => .next (act s hsn c false)

/-- The commands of an opcode. -/
def ofOpcode (op : Nat) (c : Command) : Bool := c.opcode == op

/-! ## LAUNCH, COPY, queues -/

/-- The submission of a LAUNCH command. -/
def Submit.isOf (x : Submit) (hsn : Nat) : Bool := match x.from_ with | .host h _ => h == hsn | _ => false

/-- LAUNCH (R315, R376); one whose record was judged while nobody led goes on with the next leader (R385). -/
def execHostLaunch (hsn : Nat) :=
  runCommand (ofOpcode 1) (fun s h c again =>
    if again then match s.submits.pick (·.isOf h) with | some (id, x) => s.settleSubmit id x | none => s
    else s.submitLaunch c.context (c.u 0x10 8) (.host h (c.u 0x18 8))) hsn

/-- The copy of a COPY command: it is translated and timed from the leader's die (R376). DEDUCED, log 76. -/
def Command.toCopy (c : Command) (hsn core : Nat) : Copy :=
  { core := core, gid := 0, group := 0, context := c.context, team := 0, seq := hsn, pos := 0, slot := .c0,
    kind := .global, src := c.u 0x18 8, dst := c.u 0x10 8, bytes := c.u 0x20 8, stride := 0, rows := 1,
    rowBytes := c.u 0x20 8, srcRow := 0, srcOfs := 0, dstRow := 0, dstOfs := 0, srcTile := none, record := none,
    bspace := false, shadows := [], fresh := false, cow := false, publish := false, bind := none, after := none,
    stage := 0, due := 0, landed := false, gct := 0, data := [], hsn := some hsn, batchNo := 0, pages := [], checked := 0, opcode := 0x44 }

/-- COPY (R284, R376): complete as a batch of one CPYG retires; a fault fails it with its address (R375). DEDUCED, log 76. -/
def execCopy (hsn : Nat) :=
  runCommand (ofOpcode 2) (fun s h c again =>
    if !again then
      let (id, s) := s.fresh
      let s := { s with copies := s.copies.put id (c.toCopy h (s.leader * Config.coresPerDie)),
                        commands := s.commands.upd h fun c => { c with waits := [id] } }
      s.at s.time (.copyCompletion id)
    else
      match c.waits with
      | id :: _ =>
        match s.copies.find id with
        | some x =>
          let drop := { s with copies := s.copies.del id }
          if x.stage = 4 then drop.completeCommand h
          else if x.stage = 6 then drop.failCommand h 7 x.due
          else s
        | none => s.completeCommand h
      | [] => s) hsn

/-- A command waits for a page. -/
def State.commandWaits (s : State) (hsn : Nat) : Bool := s.faults.vals.any fun f => f.clients.contains (.command hsn)

/-- QUEUE_CFG (R294, R295). DEDUCED, log 74. -/
def execQueueCfg (hsn : Nat) :=
  runCommand (ofOpcode 3) (fun s h c _ =>
    let q := c.u 0x10 4
    if s.commandWaits h then s
    else if (s.context c.context).isNone then s.failCommand h 3 0
    else
      match s.readCtx c.context (c.u 0x18 8) 64 with
      | .ok bs =>
        if s.configOk c.context q bs then (s.acceptConfig c.context q bs).completeCommand h else s.failCommand h 6 0
      | .error (true, va) =>
        let (id, s) := s.fresh
        let f : FaultRec :=
          { core := queueDie q * Config.coresPerDie, context := c.context, addr := va, clients := [.command h] }
        { s with faults := s.faults.put id f }
      | .error (false, _) => s.failCommand h 6 0) hsn

/-- QUEUE_PUSH (R298, R376): complete when the queue accepts the record. DEDUCED, log 105. -/
def execQueuePush (hsn : Nat) :=
  runCommand (ofOpcode 4) (fun s h c again =>
    if again then s
    else
      let (id, s) := s.fresh
      let p : Push :=
        { queue := c.u 0x10 4, words := (List.range 8).map fun i => BitVec.ofNat 32 (c.u (0x20 + 4 * i) 4), gid := none,
          group := 0, long := none, holds := true, core := none, arrival := 0, left := 0, hsn := some h, refused := false }
      ({ s with pushes := s.pushes.put id p } : State).leavePush id) hsn

/-! ## SIGNAL and FENCE -/

/-- SIGNAL (R376). -/
def execSignal (hsn : Nat) :=
  runCommand (ofOpcode 5) (fun s h c _ =>
    (s.writeMem (memKey kindHost (c.u 0x10 8)) (bytesLE 8 (c.u 0x18 8))).completeCommand h) hsn

/-- FENCE (R376). -/
def execFence (hsn : Nat) := runCommand (ofOpcode 6) (fun s h _ _ => s.completeCommand h) hsn

/-! ## PREEMPT and RESUME (R336, R338, R376) -/

/-- The launches a command names: one of its context, or all of them. DEDUCED, log 75. -/
def State.namedLaunches (s : State) (c : Command) : List Nat :=
  let n := c.u 0x10 4
  (s.launches.filter fun p => p.2.context == c.context && p.2.stage != launchOver && (n == 0 || p.1 == n)).map Prod.fst

/-- A team that holds cores. -/
def Team.holdsCores (t : Team) : Bool :=
  t.phase == .placed || t.phase == .stopping || t.phase == .restoring || t.phase == .killed

/-- Stops the placing of launches: a pending team returns to its launch's cursor (R336). -/
def State.stopLaunch (s : State) (n : Nat) : State :=
  match s.launch n with
  | none => s
  | some l =>
    let back := s.teams.filter fun p =>
      p.2.launch == n && p.2.phase == .pending && !p.2.prologue && !p.2.fromQueue && p.2.number + 1 == l.cursor
    let s := s.updLaunch n fun l => { l with preempted := true }
    if back.isEmpty then s
    else ({ s with teams := s.teams.filter fun p => !(back.any fun b => b.1 == p.1) } : State).updLaunch n fun l =>
      { l with cursor := l.cursor - 1, stage := 2 }

/-- A command's teams that are still to be stopped. -/
def State.toStop (s : State) (c : Command) (hard : Bool) : List Nat :=
  c.waits.filter fun i => match s.team i with
    | some t => t.phase == .placed && (hard || t.deadline.isNone)
    | none => false

/-- No team a PREEMPT selected holds cores any longer. -/
def State.preemptDone (s : State) (c : Command) : Bool :=
  !c.waits.any fun i => match s.team i with | some t => t.holdsCores | none => false

/-- Stops the launches named and pre-empts their resident teams; complete once each is saved or has completed.
DEDUCED, log 75. -/
def preemptAction (hard : Bool) : Action := fun s h c again =>
  let launches := s.namedLaunches c
  let waits := if again then c.waits
    else (s.teams.filter fun p => launches.contains p.2.launch && p.2.holdsCores).map Prod.fst
  let s := if again then s else launches.foldl State.stopLaunch s
  let c := { c with waits := waits, started := true }
  let s := { s with commands := s.commands.put h c }
  let s := (s.toStop c hard).foldl (fun s i => if hard then s.hardPreempt i else s.softPreempt i) s
  if s.preemptDone c then s.completeCommand h else s

/-- PREEMPT, soft (R336). -/
def execPreemptSoft (hsn : Nat) :=
  runCommand (fun c => c.opcode == 7 && c.u 0x14 4 != 1) (preemptAction false) hsn

/-- PREEMPT, hard (R338). -/
def execPreemptHard (hsn : Nat) :=
  runCommand (fun c => c.opcode == 7 && c.u 0x14 4 == 1) (preemptAction true) hsn

/-- RESUME (R336, R376). DEDUCED, log 75. -/
def execResume (hsn : Nat) :=
  runCommand (ofOpcode 11) (fun s h c _ =>
    ((s.namedLaunches c).foldl (fun s n => (s.updLaunch n fun l => { l with preempted := false }).pendNext n) s).completeCommand
      h) hsn

/-! ## INVAL, CONTEXT, PARTITION -/

/-- The cores of a context's partition. -/
def State.partitionCores (s : State) (ctx : Nat) : List Nat :=
  match (s.context ctx).bind fun c => s.partitions.find c.partition with
  | some p => p.pairs.flatMap fun k => [2 * k, 2 * k + 1]
  | none => []

/-- INVAL (R263): the context's entries that meet the range leave the TLBs of its partition, and those of the
dies' first cores, through which the leader's COPY commands translate (R376). DEDUCED, log 76. -/
def execInval (hsn : Nat) :=
  runCommand (ofOpcode 8) (fun s h c _ =>
    let a := c.u 0x10 8
    let n := c.u 0x18 8
    let out := fun (e : TlbEntry) => e.context == c.context && overlaps e.base e.size a n
    let cores := (dies.map fun d => d * Config.coresPerDie) ++ s.partitionCores c.context
    let s := { s with cores := s.cores.map fun (p : Nat × Core) =>
      (p.1, if cores.contains p.1 then { p.2 with tlb := p.2.tlb.filter fun e => !out e } else p.2) }
    s.completeCommand h) hsn

/-- CONTEXT, create (R376). -/
def execContextCreate (hsn : Nat) :=
  runCommand (fun c => c.opcode == 9 && c.u 0x10 4 != 1) (fun s h c _ =>
    let x : Context :=
      { partition := c.u 0x14 4, root := c.u 0x18 8, trapArea := c.u 0x20 8, saveArea := c.u 0x28 8,
        templateBase := c.u 0x38 8, templateSize := c.u 0x34 4 * 2 ^ 16, privileged := natBit (c.u 0x30 4) 0, spans := [],
        saves := [], checked := [] }
    ({ s with contexts := s.contexts.put c.context x } : State).completeCommand h) hsn

/-- CONTEXT, destroy (R343, R376): the context is reset, with the error event of a reset, which names no team here. DESIGN
CHOICE, log 117. -/
def execContextDestroy (hsn : Nat) :=
  runCommand (fun c => c.opcode == 9 && c.u 0x10 4 == 1) (fun s h c _ =>
    let s := (s.errorEvent 1 c.context (bytesLE 8 0)).resetContext c.context
    ({ s with contexts := s.contexts.del c.context } : State).completeCommand h) hsn

/-- The partition that an entry of a partition table describes (R379), with the limit on saves that firmware sets for it
(R343). DESIGN CHOICE, log 115. -/
def partitionOf (number : Nat) (bs : List Byte) : Partition :=
  { saveLimit := (Config.partitionSaveLimit number).getD 200000, pairs := setBits (BitVec.ofNat 96 (fieldOf bs 0 12)), queueBase := fieldOf bs 12 2, queueCount := fieldOf bs 14 2,
    ranges := ((List.range 3).map fun i => (fieldOf bs (16 + 16 * i) 8, fieldOf bs (24 + 16 * i) 8)).filter
      fun r => r.2 != 0 }

/-- Two partitions share a pair, a queue or a byte of device memory (R379). -/
def Partition.shares (a b : Partition) : Bool :=
  (a.pairs.any fun k => b.pairs.contains k) ||
  overlaps a.queueBase a.queueCount b.queueBase b.queueCount ||
  a.ranges.any fun r => b.ranges.any fun q => overlaps r.1 r.2 q.1 q.2

/-- An entry of the table is well formed by itself (R379). -/
def partitionEntryOk (bs : List Byte) : Bool :=
  let p := partitionOf 0 bs
  if p.pairs.isEmpty then bs.all (· == 0)
  else
    p.queueCount != 0 && decide (p.queueBase + p.queueCount ≤ Config.queueCount) && !p.ranges.isEmpty &&
    p.ranges.all fun r => r.1 % 2 ^ 16 == 0 && r.2 % 2 ^ 16 == 0 && decide (r.1 + r.2 ≤ Config.deviceSize)

/-- The partitions of a table: nothing where it is invalid (R379). DEDUCED, log 77. -/
def partitionTable (bs : List Byte) : Option (Tbl Partition × List Nat) :=
  let entries := (List.range 12).map fun p => (p, (bs.drop (64 * p)).take 64)
  let used := (entries.map fun e => (e.1, partitionOf e.1 e.2)).filter fun e => !e.2.pairs.isEmpty
  let slots := ((bs.drop 768).take 64).map fun b => b.toNat
  let shared := used.any fun a => used.any fun b => decide (a.1 < b.1) && a.2.shares b.2
  let slotOk := fun (n : Nat) => n == 0xF || (decide (n < 12) && used.any fun u => u.1 == n)
  if entries.all (fun e => partitionEntryOk e.2) && !shared && slots.all slotOk then some (used, slots) else none

/-- Extends a measurement register (R383). -/
def State.extend (s : State) (n : Nat) (data : List Byte) : State :=
  { s with meas := s.meas.set n (BitVec.ofNat 256 (natOfBytes (sha256 (bytesLE 32 (s.meas.get n).toNat ++ data)))) }

/-- The route table from what sets each entry (R382). DESIGN CHOICE, log 3. -/
def routesFrom (f : Nat → Bool × Nat × Nat × Nat × Nat) : Tbl Route :=
  (List.range 256).filterMap fun i =>
    match f i with
    | (true, peer, ports, base, size) => some (i, { peer := peer, ports := ports, base := base, size := size })
    | _ => none

/-- PARTITION (R376, R379, R382, R383). DESIGN CHOICE, log 3, 16; DEDUCED, log 77. -/
def execPartition (hsn : Nat) :=
  runCommand (ofOpcode 10) (fun s h c _ =>
    let bs := s.bytesAt (memKey kindDevice (c.u 0x10 8)) 832
    match partitionTable bs with
    | none => s.failCommand h 5 0
    | some (ps, slots) =>
      (({ s with partitions := ps, slotTable := slots, routes := routesFrom (Config.routeAtPartition bs) } : State).extend 4 bs).completeCommand h) hsn

/-! ## Which command goes on next -/

/-- The event of a command. -/
def Command.event (c : Command) (hsn : Nat) : Event :=
  match c.opcode with
  | 1 => .hostLaunch hsn
  | 2 => .copy hsn
  | 3 => .queueCfg hsn
  | 4 => .queuePush hsn
  | 5 => .signal hsn
  | 6 => .fence hsn
  | 7 => if c.u 0x14 4 = 1 then .preemptHard hsn else .preemptSoft hsn
  | 8 => .inval hsn
  | 9 => if c.u 0x10 4 = 1 then .contextDestroy hsn else .contextCreate hsn
  | 10 => .partition hsn
  | _ => .resume hsn

/-- A command that has started can go on now. -/
def State.commandGoes (s : State) (hsn : Nat) (c : Command) : Bool :=
  match c.opcode with
  | 1 => s.submits.vals.any fun x => x.isOf hsn && x.due.isSome
  | 2 => c.waits.any fun i => match s.copies.find i with | some x => decide (4 ≤ x.stage) | none => true
  | 3 => !s.commandWaits hsn
  | 7 => s.preemptDone c || !(s.toStop c (c.u 0x14 4 == 1)).isEmpty
  | _ => false

/-- The first command that may start or go on. -/
def State.nextCommand (s : State) : Option Event :=
  if !(s.leads && s.ringOpen) then none
  else
    (s.commands.find? fun p =>
      !p.2.complete && (if p.2.started then s.commandGoes p.1 p.2 else s.mayStart p.1 p.2)).map fun p => p.2.event p.1

end Sys2Proof.Machine
end

