-- ==== Sys2Proof/Machine/Scan.lean ====
section
/-! DEFINITION. The state of a gang as the 1149.1 port's scan reads and writes it: all of R22 and R45 (R393). The items below
0x48 are those of R224; the numbers of the others and the order of their lanes are the model's. DESIGN CHOICE, log 84. -/

namespace Sys2Proof.Machine

/-- The 64-bit number that two lanes hold. -/
def twoLanes (v : Nat → Nat) (i : Nat) : Nat := v i + v (i + 1) * 2 ^ 32

/-- One value replaced in a list. -/
def putAt {α : Type} (l : List α) (i : Nat) (x : α) : List α := l.take i ++ (if i < l.length then [x] else []) ++ l.drop (i + 1)

/-! ## The pieces R224 does not give -/

def Reconv.lanes (r : Reconv) : List Nat := r.mask.toNat :: lanes64 [r.pos, r.tag] ++ [r.resolve.toNat]

def Reconv.ofLanes (v : Nat → Nat) : Reconv :=
  { mask := BitVec.ofNat 4 (v 0), pos := twoLanes v 1, tag := twoLanes v 3, resolve := natBit (v 5) 0 }

/-- The kind and the number of a fixed result's destination. -/
def RDest.codes : RDest → Nat × Nat
  | .v r => (0, r) | .pair r => (1, r) | .field r _ _ => (2, r) | .s r => (3, r) | .p r => (4, r) | .c r => (5, r)
  | .special r => (6, r) | .tile _ => (7, 0) | .tileLoad r _ => (8, r)

/-- The same kind of destination with another number. -/
def RDest.renumber (d : RDest) (n : Nat) : RDest :=
  match d with
  | .v _ => .v n | .pair _ => .pair n | .field _ lo w => .field n lo w | .s _ => .s n | .p _ => .p n | .c _ => .c n
  | .special _ => .special n | .tile ws => .tile ws | .tileLoad _ ws => .tileLoad n ws

/-- A result in flight: unit, destination and landing beat (R22). -/
def Flight.lanes (f : Flight) : List Nat := [f.unit.order, f.dest.codes.1, f.dest.codes.2] ++ lanes64 [f.land]

def Flight.setLanes (f : Flight) (v : Nat → Nat) : Flight := { f with dest := f.dest.renumber (v 2), land := twoLanes v 3 }

/-- The values of a result in flight by lane or group position. -/
def Flight.values (f : Flight) (high : Bool) : List Nat :=
  (List.range 64).map fun p =>
    match f.vals.find? fun x => x.1 == p with
    | some x => if high then x.2 / 2 ^ 32 % 2 ^ 32 else x.2 % 2 ^ 32
    | none => 0

def Flight.setValues (f : Flight) (high : Bool) (v : Nat → Nat) : Flight :=
  { f with vals := f.vals.map fun x =>
      (x.1, if high then x.2 % 2 ^ 32 + v x.1 * 2 ^ 32 else x.2 / 2 ^ 32 * 2 ^ 32 + v x.1) }

/-- The element formats in the order in which scan numbers them. -/
def scanFormats : List ElemFormat := [.fp32, .fp16, .bf16, .e4m3, .e5m2, .ds8, .int8, .fp64]

/-- What a matrix operation does: its kind, and a product's form, K, formats and scales. -/
def MatKind.lanes : MatKind → List Nat
  | .mma z col k a b sa sb =>
    [0, z.toNat, col.toNat, k, scanFormats.findIdx (· == a), scanFormats.findIdx (· == b), (BitVec.ofInt 32 sa).toNat,
      (BitVec.ofInt 32 sb).toNat]
  | .drain add => [1, add.toNat]
  | .fill => [2]
  | .zero => [3]

def MatKind.ofLanes (v : Nat → Nat) : MatKind :=
  let format := fun (n : Nat) => (scanFormats[n]?).getD .fp32
  match v 0 with
  | 0 => .mma (natBit (v 1) 0) (natBit (v 2) 0) (v 3) (format (v 4)) (format (v 5)) (BitVec.ofNat 32 (v 6)).toInt
      (BitVec.ofNat 32 (v 7)).toInt
  | 1 => .drain (natBit (v 1) 0)
  | 2 => .fill
  | _ => .zero

/-- A queued matrix operation: banks, tiles, length, earliest start and kind. -/
def MatOp.lanes (o : MatOp) : List Nat :=
  [o.phys, o.other, o.odd.toNat, (o.src.map fun t => t.2.1).getD 0, (o.srcB.map fun t => t.1).getD 0,
    (o.dst.map fun t => t.2.1).getD 0, o.dur] ++ lanes64 [o.notBefore] ++ o.kind.lanes

def MatOp.setLanes (o : MatOp) (v : Nat → Nat) : MatOp :=
  { o with phys := v 0, other := v 1, odd := natBit (v 2) 0, src := o.src.map fun t => (t.1, v 3, t.2.2)
           srcB := o.srcB.map fun t => (v 4, t.2), dst := o.dst.map fun t => (t.1, v 5, t.2.2), dur := v 6
           notBefore := twoLanes v 7, kind := MatKind.ofLanes fun i => v (9 + i) }

/-- Copy work: slot, opcode, group, stage, addresses, the shape, and the stride. -/
def Copy.lanes (x : Copy) : List Nat :=
  [x.slot.order, x.opcode, x.group, x.stage] ++ lanes64 [x.src, x.dst, x.bytes] ++
    [x.rows, x.rowBytes, x.srcRow, x.srcOfs, x.dstRow, x.dstOfs] ++ lanes64 [(BitVec.ofInt 64 x.stride).toNat]

def Copy.setLanes (x : Copy) (v : Nat → Nat) : Copy :=
  { x with stage := v 3, src := twoLanes v 4, dst := twoLanes v 6, bytes := twoLanes v 8, rows := v 10, rowBytes := v 11
           srcRow := v 12, srcOfs := v 13, dstRow := v 14, dstOfs := v 15, stride := (BitVec.ofNat 64 (twoLanes v 16)).toInt }

/-- A number of something that may be absent: one more, and 0 for nothing. -/
def orNone (o : Option Nat) : Nat := match o with | some n => n + 1 | none => 0
def ofOrNone (n : Nat) : Option Nat := if n = 0 then none else some (n - 1)

/-- The copies of a gang, in order of issue. -/
def State.copiesOf (s : State) (gid : Nat) : List (Nat × Copy) := s.copies.filter fun p => p.2.gid == gid

/-- The handle, batch and chain of a copy: its destination's record, that record's space, the tile slot it reads, its barrier,
the copy of the gang that it starts after, the number of its batch, and auto-publish. -/
def State.copyLinks (s : State) (gid id : Nat) (x : Copy) : List Nat :=
  let all := (s.copiesOf gid).map Prod.fst
  let batch := match (s.gang gid).bind fun g => g.group x.group with
    | none => x.batchNo
    | some y => match y.sealed.find? fun b => b.copies.contains id with
      | some b => b.number
      | none => if y.openBatch.contains id then (y.batch + 1).toNat else x.batchNo
  [orNone x.record, x.bspace.toNat, orNone (x.srcTile.map fun t => t.2.1), orNone x.bind,
    orNone ((x.after.filter all.contains).map fun i => all.findIdx (· == i)), batch, x.publish.toNat]

/-- A field of a log entry's elements, by lane or group position. -/
def LogEntry.column (le : LogEntry) (f : Elem → Nat) : List Nat :=
  (List.range 64).map fun p => match le.elems.find? fun e => e.at_ == p with | some e => f e | none => 0

/-- The kind and the number of a pending write's destination. -/
def LDest.codes : LDest → Nat × Nat
  | .v r => (0, r) | .pair r => (1, r) | .s r => (2, r) | .c r => (3, r) | .none => (4, 0)

def LDest.ofCodes (k n : Nat) : LDest := match k with | 0 => .v n | 1 => .pair n | 2 => .s n | 3 => .c n | _ => .none

/-- What an entry of the operand log does, and where its result goes. -/
def Gang.entryDest (g : Gang) (le : LogEntry) : List Nat :=
  let what := match le.access with
    | .load signed => [0, signed.toNat, 0]
    | .store => [1, 0, 0]
    | .atomic op sc => [2, op, match sc with | .team => 0 | .package => 1 | .system => 2]
  let dest := match le.long.bind g.longs.find with | some l => l.dest.codes | none => (4, 0)
  what ++ [dest.1, dest.2]

def LogEntry.setAccess (le : LogEntry) (v : Nat → Nat) : LogEntry :=
  { le with access := match v 0 with
      | 0 => .load (natBit (v 1) 0)
      | 1 => .store
      | _ => .atomic (v 1) (match v 2 with | 0 => .team | 1 => .package | _ => .system) }

/-- The operand log with one entry changed, by its number. -/
def Gang.updEntry (g : Gang) (n : Nat) (f : LogEntry → LogEntry) : Gang :=
  { g with log := g.log.map fun le => if le.num = n then f le else le }

def LogEntry.updElems (le : LogEntry) (f : Elem → Elem) : LogEntry := { le with elems := le.elems.map f }

/-! ## Reading -/

/-- The lanes scan reads of an item. -/
def State.scanLanes (s : State) (gid : Nat) (g : Gang) (item sel : Nat) : List Nat :=
  let entry := fun (f : LogEntry → List Nat) => match g.log.find? fun e => e.num == sel with | some le => f le | none => []
  let flight := fun (f : Flight → List Nat) => match g.flights[sel]? with | some x => f x | none => []
  match item with
  | 0x48 => match g.reconv[sel]? with | some r => r.lanes | none => []
  | 0x49 => match g.returns[sel]? with | some p => lanes64 [p] | none => []
  | 0x4A => lanes64 [g.horizon, g.dictmiss]
  | 0x4B => flight Flight.lanes
  | 0x4C => flight fun f => f.values false
  | 0x4D => flight fun f => f.values true
  | 0x4E => match ((s.core g.core).matQueue.filter fun o => o.gid == gid)[sel]? with | some o => o.lanes | none => []
  | 0x4F => match (s.copiesOf gid)[sel]? with | some p => p.2.lanes ++ s.copyLinks gid p.1 p.2 | none => []
  | 0x50 => entry fun le => le.column fun e => e.addr % 2 ^ 32
  | 0x51 => entry fun le => le.column fun e => e.addr / 2 ^ 32 % 2 ^ 32
  | 0x52 => entry fun le => le.column fun e => e.data % 2 ^ 32
  | 0x53 => entry fun le => le.column fun e => e.data / 2 ^ 32 % 2 ^ 32
  | 0x54 => entry fun le => le.column fun e => e.performed.toNat
  | 0x55 => entry fun le => le.column fun e => e.data2 % 2 ^ 32
  | 0x56 => entry fun le => le.column fun e => e.data2 / 2 ^ 32 % 2 ^ 32
  | 0x57 => entry g.entryDest
  | 0x58 => match g.group sel with | some x => [maskOf 8 fun n => (x.cAwait.find n).isSome] | none => []
  | 0x59 => [g.reconv.length, g.returns.length]
  | _ => s.stateLanes g item sel

/-! ## Writing -/

/-- The registers that are empty after a write of a full mask: one marked full is full, one marked empty waits. -/
def setFull (t : Tbl Nat) (n : Nat) (full : Nat → Bool) : Tbl Nat :=
  (List.range n).foldl (fun t r => if full r then t.del r else if (t.find r).isSome then t else t.put r 0) t

/-- Item 0x42 whole: conditions, modes, GSTATUS, BATCH and full masks. -/
def Gang.scanStatus (g : Gang) (k : Nat) (v : Nat → Nat) : Gang :=
  let g := g.updGroup k fun x =>
    { x with c := BitVec.ofNat 8 (v 0), fpflags := BitVec.ofNat 5 (v 1), fpmode := BitVec.ofNat 2 (v 2)
             trapcode := BitVec.ofNat 8 (v 3 / 256), guardPend := natBit (v 3) 2, collide := natBit (v 3) 1
             visible := natBit (v 3) 0, batch := BitVec.ofNat 16 (v 4), sAwait := setFull x.sAwait 32 (natBit (v 5)) }
  { g with vAwait := setFull g.vAwait 64 (natBit (twoLanes v 6)) }

/-- Item 0x45: a queue-head latch. -/
def QLatch.setLanes (l : QLatch) (v : Nat → Nat) : QLatch :=
  { l with held := if natBit (v 8) 0 then some ((List.range 8).map fun i => BitVec.ofNat 32 (v i)) else none
           queue := l.queue.map fun _ => v 9 }

/-- Item 0x47: state and generation of a handle entry, and the space of a template's, as HINFO codes them. -/
def HEntry.setLanes (e : HEntry) (v : Nat → Nat) : HEntry :=
  { e with state := HState.ofCode (v 0 % 8), gen := BitVec.ofNat 16 (v 0 / 2 ^ 16)
           ref := match e.ref with | .template _ n => .template (natBit (v 0) 3) n | r => r }

/-- A stack (R32, R33), innermost entry first, cut or filled with blank entries to a depth. -/
def setDepth {α : Type} (blank : α) (l : List α) (n : Nat) : List α := List.replicate (n - l.length) blank ++ l.drop (l.length - n)

/-- The operand log, stacks and results in flight written from lanes; every other item but queues and copies as R224
numbers them. -/
def Gang.scanItem (g : Gang) (item sel : Nat) (v : Nat → Nat) : Gang :=
  let elems := fun (f : Elem → Elem) => g.updEntry sel fun le => le.updElems f
  let flight := fun (f : Flight → Flight) => { g with flights := match g.flights[sel]? with
    | some x => putAt g.flights sel (f x) | none => g.flights }
  match item with
  | 0x42 => g.scanStatus sel v
  | 0x45 => g.updGroup (sel % 4) fun x => { x with qh := x.qh.put (sel / 4) ((x.latch (sel / 4)).setLanes v) }
  | 0x46 => g.updEntry sel fun le => { le with pos := twoLanes v 0, width := v 2 / 256 % 256, opcode := v 2 / 2 ^ 16 }
  | 0x47 => g.putHandle sel ((g.handle sel).setLanes v)
  | 0x48 => { g with reconv := putAt g.reconv sel (Reconv.ofLanes v) }
  | 0x49 => { g with returns := putAt g.returns sel (twoLanes v 0) }
  | 0x4A => { g with horizon := twoLanes v 0, dictmiss := twoLanes v 2 }
  | 0x4B => flight fun f => f.setLanes v
  | 0x4C => flight fun f => f.setValues false v
  | 0x4D => flight fun f => f.setValues true v
  | 0x50 => elems fun e => { e with addr := e.addr / 2 ^ 32 * 2 ^ 32 + v e.at_ }
  | 0x51 => elems fun e => { e with addr := e.addr % 2 ^ 32 + v e.at_ * 2 ^ 32 }
  | 0x52 => elems fun e => { e with data := e.data / 2 ^ 32 * 2 ^ 32 + v e.at_ }
  | 0x53 => elems fun e => { e with data := e.data % 2 ^ 32 + v e.at_ * 2 ^ 32 }
  | 0x54 => elems fun e => { e with performed := natBit (v e.at_) 0 }
  | 0x55 => elems fun e => { e with data2 := e.data2 / 2 ^ 32 * 2 ^ 32 + v e.at_ }
  | 0x56 => elems fun e => { e with data2 := e.data2 % 2 ^ 32 + v e.at_ * 2 ^ 32 }
  | 0x57 =>
    let long := (g.log.find? fun e => e.num == sel).bind fun e => e.long
    { g.updEntry sel fun le => le.setAccess v with
      longs := match long with | some i => g.longs.upd i fun l => { l with dest := LDest.ofCodes (v 3) (v 4) } | none => g.longs }
  | 0x58 => g.updGroup sel fun x => { x with cAwait := setFull x.cAwait 8 fun n => !natBit (v 0) n }
  | 0x59 =>
    { g with reconv := setDepth (Reconv.ofLanes fun _ => 0) g.reconv (Nat.min (v 0) 4)
             returns := setDepth 0 g.returns (Nat.min (v 1) 8) }
  | _ => g.setItem item sel v

/-- The queued matrix operation `n` of a gang written from lanes. -/
def setMatOp (gid : Nat) (v : Nat → Nat) : Nat → List MatOp → List MatOp
  | _, [] => []
  | n, o :: os =>
    if o.gid != gid then o :: setMatOp gid v n os
    else match n with
      | 0 => o.setLanes v :: os
      | n + 1 => o :: setMatOp gid v n os

/-- The SLOT and SPACE of a handle entry, which are its record's (R60). -/
def State.scanTile (s : State) (g : Gang) (e : HEntry) (v : Nat → Nat) : State :=
  match e.ref with
  | .record id => s.updRecord g.team id fun r =>
      { r with bspace := natBit (v 0) 3, slots := r.slots.put g.core (bitsOf (v 0) 15 4) }
  | _ => s

/-- The batch of a copy, by number: a sealed one of its group, or the open one. -/
def Group.moveCopy (x : Group) (id n : Nat) : Group :=
  let out := fun (l : List Nat) => l.filter fun i => i != id
  { x with openBatch := out x.openBatch ++ (if n = (x.batch + 1).toNat then [id] else [])
           sealed := x.sealed.map fun b => { b with copies := out b.copies ++ if b.number = n then [id] else [] } }

/-- The handle, batch and chain of a copy written from lanes. -/
def State.scanLinks (s : State) (gid id : Nat) (x : Copy) (v : Nat → Nat) : State :=
  let after := (ofOrNone (v 4)).bind fun n => ((s.copiesOf gid)[n]?).map Prod.fst
  let record := ofOrNone (v 0)
  let shadows := match record.bind (s.record x.team) with | some r => r.shadows | none => x.shadows
  let moved := (s.copyLinks gid id x)[5]? != some (v 5)
  let x := { x with record := record, shadows := shadows, bspace := natBit (v 1) 0, bind := ofOrNone (v 3), after := after
                    srcTile := x.srcTile.map (fun t => (t.1, ((ofOrNone (v 2)).getD t.2.1, t.2.2)))
                    batchNo := v 5, publish := natBit (v 6) 0 }
  let s := { s with copies := s.copies.put id x }
  if moved then s.updGang gid fun g => g.updGroup x.group fun y => y.moveCopy id (v 5) else s

/-- Scan's write of an item. -/
def State.scanWrite (s : State) (gid : Nat) (g : Gang) (item sel : Nat) (v : Nat → Nat) : State :=
  match item with
  | 0x47 => (s.scanTile g (g.handle sel) v).putGang gid (g.scanItem item sel v)
  | 0x4E => s.updCore g.core fun c => { c with matQueue := setMatOp gid v sel c.matQueue }
  | 0x4F => match (s.copiesOf gid)[sel]? with
      | some (id, x) => s.scanLinks gid id (x.setLanes v) fun i => v (18 + i)
      | none => s
  | _ => s.putGang gid (g.scanItem item sel v)

end Sys2Proof.Machine
end

