-- ==== Sys2Proof/Machine/Platform.lean ====
section
/-! DEFINITION. Mailboxes and debug registers, debug levels, HALT and scan, power states, and wear (R389 to R395,
R397, R398). -/

namespace Sys2Proof.Machine

/-! ## Mailboxes (R226, R391, R394) -/

/-- INW (R392, R394): ignored while INFULL is set and at level none. -/
def execInw (core : Nat) (value : Word64) (s : State) : Host.Outcome State Fault Refusal :=
  if !s.debugOpen || (s.core core).dbg.inFull || s.sleeping || decide (Config.coreCount ≤ core) then .next s
  else
    .next ((s.updCore core fun c => { c with dbg := { c.dbg with inw := value, inFull := true } }).mboxStep core)

/-- OUTW (R392, R394): the host reads the word and clears OUTFULL; at level none it reads zero. DEDUCED, log 83. -/
def execOutw (core : Nat) (s : State) : Host.Outcome State Fault Refusal :=
  if s.sleeping || decide (Config.coreCount ≤ core) then .next s
  else if !s.debugOpen then .next { s with hostRead := 0 }
  else
    let s := { s with hostRead := (s.core core).dbg.outw.toNat }
    let s := s.updCore core fun c => { c with dbg := { c.dbg with outFull := false } }
    .next ((s.mboxStep core).monitorOut core)

/-- A lifecycle permits a debug level (R392). DEDUCED, log 82. -/
def levelPermitted (lifecycle level : Nat) : Bool :=
  match lifecycle, level with
  | _, 0 => true
  | 0, 1 => true
  | 1, 1 => true
  | 0, 2 => true
  | 2, 2 => true
  | _, _ => false

/-- Every MBOX that waits fills its destination with zero (R391). -/
def State.zeroMbox (s : State) : State :=
  s.cores.foldl (fun s p =>
    let s := s.updCore p.1 fun c => { c with mbox := [] }
    p.2.mbox.foldl (fun s m => s.deliver m.1 m.2.2.1 (some (m.2.1, 0)) s.time) s) s

/-- HALT's withdrawal (R183, R338, R393): once a core's index port is held, every job in it is held or waits behind a held one. -/
def State.setJobsAside (s : State) : State :=
  s.cores.keys.foldl (fun s k =>
    if s.portHeld k then
      s.updCore k fun c => { c with setAside := c.setAside ++ c.index.map IndexJob.again, index := [] }
    else s) s

/-- The package goes on: the withdrawn index jobs are queued again in their order, before any bundle issues (R183, R393). -/
def State.unhalt (s : State) : State :=
  s.cores.keys.foldl (fun s k =>
    if (s.core k).setAside.isEmpty then s
    else
      (s.updCore k fun c => { c with index := c.setAside ++ c.index, setAside := [] }).atOnce (4 * (s.beat + 1)) (.indexJobLand k))
    { s with halted := false }

/-- What a new debug level brings at once: at none a waiting MBOX ends, below halt a halted package goes on, and at halt no die
stays in A2 (R391, R392). DEDUCED, log 84. -/
def State.setLevel (s : State) (l : Nat) : State :=
  let s' := { s with debugLvl := l }
  if l = 2 then s.parkedDies.keys.foldl (fun s d => s.wakeCore (d * Config.coresPerDie)) s'
  else
    let s' := if s.halted then s'.unhalt else s'
    if l = 0 then s'.zeroMbox else s'

/-- DEBUGLVL (R391, R392): a level that is not permitted changes nothing, a lowered one takes effect at once. -/
def execDebuglvl (value : Word64) (s : State) : Host.Outcome State Fault Refusal :=
  let l := value.toNat % 4
  if s.sleeping || !levelPermitted s.lifecycle l then .next s else .next (s.setLevel l)

/-- The host writes a debug register of a core, by its offset in the core's block (R392, R394, R395). DESIGN CHOICE, log 106. -/
def Debug.write (d : Debug) (visible : Bool) (off v : Nat) : Debug :=
  if 0x80 ≤ off ∧ off < 0xC0 then
    { d with pmsel := d.pmsel.put ((off - 0x80) / 8) (v % 256 + bitsOf v 15 15 * 2 ^ 15) }
  else if 0xC0 ≤ off then
    { d with pmwritten := d.pmwritten.put ((off - 0xC0) / 8) v }
  else if !visible then d
  else if 0x20 ≤ off ∧ off < 0x60 then
    let i := (off - 0x20) / 8
    { d with bp := d.bp.put i (if i % 2 = 0 then v else v % 2 ^ 32 + bitsOf v 63 63 * 2 ^ 63) }
  else if off = 0x60 then { d with step := BitVec.ofNat 64 (v % 2 ^ 17) }
  else d

/-! ## HALT and scan (R393) -/

/-- HALT (R393): at level halt every gang stops at its next bundle boundary; what is in flight lands, and index jobs that
cannot complete are withdrawn (R338), now or as soon as the port is held. DEDUCED, log 84. -/
def execHalt (s : State) : Host.Outcome State Fault Refusal :=
  .next (if s.debugLvl = 2 then ({ s with halted := true } : State).setJobsAside else s)

/-- SCAN (R393): reads or writes a lane of an item of a gang's state (R22, R45): the items of R224, and those that hold the
rest. DEDUCED, log 83; DESIGN CHOICE, log 84. -/
def execScan (write : Bool) (gid item sel lane value : Nat) (s : State) : Host.Outcome State Fault Refusal :=
  if !s.halted || s.debugLvl != 2 then .next s
  else
    match s.gang gid with
    | none => .next s
    | some g =>
      let old := fun (p : Nat) => ((s.scanLanes gid g item sel)[p]?).getD 0
      if write then .next (s.scanWrite gid g item sel fun p => if p = lane then value % 2 ^ 32 else old p)
      else .next { s with hostRead := old lane }

/-- RESUME of the 1149.1 port (R393). DEDUCED, log 84. -/
def execScanResume (s : State) : Host.Outcome State Fault Refusal :=
  .next (if s.debugLvl = 2 then s.unhalt else s)

/-! ## Power states (R389, R390) -/

/-- A core may enter A1: it has held no gang, no handler run and no refill for 10 µs. DEDUCED, log 87. -/
def State.mayGate (s : State) (core : Nat) : Bool :=
  let c := s.core core
  c.power == .a0 && !c.busy && decide (c.idleFrom + 10000 ≤ s.time) && decide (core < Config.coreCount)

/-- A1_ENTRY (R389). DEDUCED, log 87. -/
def execA1Entry (core : Nat) (s : State) : Host.Outcome State Fault Refusal :=
  .next (if s.mayGate core then s.updCore core fun c => { c with power := .a1 } else s)

/-- The cores of a die. -/
def coresOf (die : Nat) : List Nat := (List.range Config.coresPerDie).map fun i => die * Config.coresPerDie + i

/-- A die may enter A2 (R389, R390, R392). DEDUCED, log 87. -/
def State.mayPark (s : State) (die : Nat) : Bool :=
  decide (die < Config.dieCount) && s.debugLvl != 2 && (s.parkedDies.find die).isNone &&
  (match s.firingUnits.find die with | some t => decide (t + 1000000 ≤ s.time) | none => decide (1000000 ≤ s.time)) &&
  (coresOf die).all fun k => (s.core k).power == .a1 && !(s.core k).busy

/-- What a core loses in A2 (R389). -/
def Core.park (c : Core) : Core :=
  { c with l1 := [], decode := [], handlerTable := [], templates := [], slots := [], slotContext := [], tlb := [], power := .a2 }

/-- The operand stores of a core lose their contents. -/
def State.loseTiles (s : State) (core : Nat) : State :=
  { s with tiles := s.tiles.clear (core * 2 ^ 24) ((core + 1) * 2 ^ 24) }

/-- Dirty bytes stand in an L1 of the die. -/
def State.dirtyOn (s : State) (die : Nat) : Bool :=
  (coresOf die).any fun k => (s.core k).l1.vals.any fun l => l.dirty != 0

/-- Bytes of the die's cores are on their way to their home slices, or not yet globally complete. -/
def State.writingFrom (s : State) (die : Nat) : Bool := s.writebacks.vals.any fun w => dieOf w.core == die

/-- A2_ENTRY (R389, R390): every dirty byte of the die is written to its home slice first, and the die parks once all have
arrived there. DEDUCED, log 87. -/
def execA2Entry (die : Nat) (s : State) : Host.Outcome State Fault Refusal :=
  if !s.mayPark die then .next s
  else if s.dirtyOn die then .next ((coresOf die).foldl (fun s k => s.writeBackAll k .core) s)
  else if s.writingFrom die then .next s
  else
    let s := (coresOf die).foldl (fun s k => (s.updCore k Core.park).loseTiles k) s
    .next { s with parkedDies := s.parkedDies.put die s.time }

/-- Something waits for a parked die: a firing, a placement or a restore, or a ring command for it (R390). -/
def State.wantsDie (s : State) (die : Nat) : Bool :=
  (s.teams.vals.any fun t => t.waitsOn die) || s.commands.vals.any fun c => !c.complete && c.forDie s.leader == some die

/-- A2_EXIT (R389, R390). -/
def execA2Exit (die : Nat) (s : State) : Host.Outcome State Fault Refusal :=
  .next (if (s.parkedDies.find die).isSome then s.wakeCore (die * Config.coresPerDie) else s)

/-- A held D3hot request may take effect: no team is resident and no command is incomplete (R390, R392). DEDUCED, log 88. -/
def State.maySleep (s : State) : Bool :=
  s.d3hotHeld && !s.sleeping && s.debugLvl != 2 && !(s.teams.vals.any Team.holdsCores) &&
    s.commands.vals.all fun c => c.complete

/-- Dirty bytes stand in some L1. DEDUCED, log 88. -/
def State.dirtyAnywhere (s : State) : Bool := s.cores.vals.any fun c => c.l1.vals.any fun l => l.dirty != 0

/-- The package sleeps: every SRAM is lost but what firmware keeps, and the links are down (R389, R390). DEDUCED, log 88. -/
def State.sleep (s : State) : State :=
  let out := (List.range Config.dieCount).foldl (fun (t : Tbl Nat) d =>
    match s.parkedDies.find d with | some x => t.put d (t.getD d 0 + (s.time - x)) | none => t) s.outTime
  { s with
    sleeping := true, sleepFrom := s.time, d3hotHeld := false, cxlUp := 0, scarabUp := 0, l2 := [], tiles := [], acc := []
    parkedDies := [], outTime := out, cores := s.cores.mapAll fun c => { Core.reset with evictHorizon := c.evictHorizon } }

/-- D3HOT_REQUEST (R389, R390): held while work is resident; then every dirty byte is written home, and S3 is entered.
DEDUCED, log 88. -/
def execD3hotRequest (s : State) : Host.Outcome State Fault Refusal :=
  let s := if s.sleeping then s else { s with d3hotHeld := true }
  if !s.maySleep then .next s
  else if s.dirtyAnywhere then .next (s.cores.keys.foldl (fun s k => s.writeBackAll k .core) s)
  else if !s.writebacks.isEmpty then .next s
  else .next s.sleep

/-- D0_EXIT (R389, R390): no bundle issues until the dies agree on TIME, 2 ms after D0.
DESIGN CHOICE, log 3; DEDUCED, log 88. -/
def execD0Exit (s : State) : Host.Outcome State Fault Refusal :=
  if !s.sleeping then .next { s with d3hotHeld := false }
  else
    let out := (List.range Config.dieCount).foldl (fun (t : Tbl Nat) d => t.put d (t.getD d 0 + (s.time - s.sleepFrom)))
      s.outTime
    .next { s with sleeping := false, awakeAt := s.time + 2000000, outTime := out,
                   cxlUp := Config.portsAtBoot 1 % 2 ^ 8, scarabUp := Config.portsAtBoot 0 % 2 ^ 18,
                   cores := s.cores.mapAll fun c => { c with idleFrom := s.time } }

/-! ## Wear (R397, R398) -/

/-- Cycles in an hour. -/
def hourCycles : Nat := 3600 * 10 ^ 9

/-- The largest x with x ^ 5 ≤ n, below 2 ^ bits. -/
def fifthRoot (n : Nat) : Nat → Nat → Nat
  | 0, x => x
  | b + 1, x => fifthRoot n b (if (x + 2 ^ b) ^ 5 ≤ n then x + 2 ^ b else x)

/-- t ^ 0.2 of a number of cycles, in units of 2^-40. DEDUCED, log 23. -/
def pow02 (t : Nat) : Nat := fifthRoot (t * 2 ^ 200) 60 0

def sumInt (l : List Int) : Int := l.foldl (· + ·) 0

/-- Hours from now until a limit reached at cycle `num / den`, rounded down; `none` for growth that is not positive.
DEDUCED, log 23. -/
def hoursLeft (now : Nat) (num den : Int) : Nat :=
  if den ≤ 0 then 0xFFFFFFFF
  else Nat.min 0xFFFFFFFF ((Int.toNat ((num - now * den) / den)) / hourCycles)

/-- The drift's fit d = a·t^0.2: a is Σ d·r over Σ r² with r = t^0.2, and 50,000 ppm is reached at r = 50,000 / a.
DEDUCED, log 23. -/
def driftLeft (now : Nat) (pts : List (Nat × Nat)) : Nat :=
  let r := pts.map fun p => (pow02 p.1, p.2)
  let sd := sumNat (r.map fun p => p.1 * p.2)
  let sr := sumNat (r.map fun p => p.1 * p.1)
  if sd = 0 then 0xFFFFFFFF else hoursLeft now ((50000 * sr) ^ 5 : Nat) (sd ^ 5 * 2 ^ 200 : Nat)

/-- The bond's fit r = r0 + b·t, with its limit at r0 / b. DEDUCED, log 23. -/
def bondLeft (now : Nat) (pts : List (Nat × Nat)) : Nat :=
  let n : Int := pts.length
  let st := sumInt (pts.map fun p => (p.1 : Int))
  let sr := sumInt (pts.map fun p => (p.2 : Int))
  let stt := sumInt (pts.map fun p => (p.1 * p.1 : Int))
  let str := sumInt (pts.map fun p => (p.1 * p.2 : Int))
  hoursLeft now (sr * stt - st * str) (n * str - st * sr)

/-- A stack's fit m = c·t, with its limit at 4,096 / c. DEDUCED, log 23. -/
def remapLeft (now : Nat) (pts : List (Nat × Nat)) : Nat :=
  let sm := sumInt (pts.map fun p => (p.1 * p.2 : Int))
  let stt := sumInt (pts.map fun p => (p.1 * p.1 : Int))
  hoursLeft now (4096 * stt) sm

/-- The hours predicted from a die's samples: the least of the four models (R398). DEDUCED, log 23. -/
def wearLife (now : Nat) (samples : List (Nat × List Nat)) : Nat :=
  let col := fun (i : Nat) => samples.map fun p => (p.1, (p.2[i]?).getD 0)
  let drift := samples.map fun p => (p.1, (p.2.take 16).foldl Nat.max 0)
  [driftLeft now drift, bondLeft now (col 16), remapLeft now (col 17), remapLeft now (col 18)].foldl Nat.min 0xFFFFFFFF

/-- The block of a die as it is published (R397). -/
def wearBlock (time life : Nat) (vals : List Nat) : List Byte :=
  (vals.take 16).flatMap (bytesLE 2) ++ (vals.drop 16).flatMap (bytesLE 4) ++ bytesLE 4 0 ++ bytesLE 4 life ++ bytesLE 4 0 ++
    bytesLE 8 time

/-- Cycles a die has spent in A2 or S3 so far, the present stay with them (R398). -/
def State.awayTime (s : State) (die : Nat) : Nat :=
  s.outTime.getD die 0 +
    (if s.sleeping then s.time - s.sleepFrom
     else match s.parkedDies.find die with | some x => s.time - x | none => 0)

/-- WEAR_SAMPLE (R397, R398): t counts the time the die has spent in A0 and A1. DESIGN CHOICE, log 22. -/
def execWearSample (die : Nat) (s : State) : Host.Outcome State Fault Refusal :=
  if Config.dieCount ≤ die then .next s
  else
    let (n, s) := s.draw
    let w : Wear := (s.wear.find die).getD { samples := [], published := [] }
    let now := s.time - s.awayTime die
    let vals := (List.range 19).map fun i => Config.wearReading die n i
    let samples := w.samples ++ [(now, vals)]
    .next { s with wear := s.wear.put die { samples := samples, published := wearBlock s.time (wearLife now samples) vals } }

/-- The predicted end of life that a die has published (R397). -/
def State.dieFigure (s : State) (die : Nat) : Option Nat := (s.wear.find die).map fun w => fieldOf w.published 0x30 4

/-- The package figure: the least of the dies' figures (R397). DEDUCED, log 23. -/
def State.packageFigure (s : State) : Nat :=
  match (List.range Config.dieCount).filterMap s.dieFigure with
  | [] => 0
  | x :: xs => xs.foldl Nat.min x

end Sys2Proof.Machine
end

