-- ==== Sys2Proof/Machine/Firmware.lean ====
section
/-! DEFINITION. Reset and boot, the queen lease, the lifecycle, BAR2, peers and links, and the host's other reads and writes
of registers (R280, R373, R381 to R387, R391 to R394, R397). -/

namespace Sys2Proof.Machine

/-! ## The capability table (R386) -/

/-- A record: type, length and value, padded to a multiple of four. -/
def capRecord (type : Nat) (value : List Byte) : List Byte :=
  bytesLE 2 type ++ bytesLE 2 value.length ++ value ++ List.replicate ((4 - value.length % 4) % 4) 0

/-- The ROM's records: identity, features, the counts of R2 in 32 bits each, the clock of 1,000 MHz and its beat of four
cycles, and the signature. DESIGN CHOICE, log 20. -/
def romRecords : List Byte :=
  capRecord 1 Config.identityBytes ++ capRecord 2 (bytesLE 8 0x7F) ++
    capRecord 3 (Config.resourceCounts.flatMap (bytesLE 4)) ++ capRecord 4 (bytesLE 4 1000 ++ bytesLE 4 4) ++
    capRecord 0xFE Config.capabilitySignature

/-- An errata record: a withdrawn feature mask, or an identifier and its UTF-8 text (R386). -/
def errataRecord : Nat ⊕ Nat × String → List Byte
  | .inl mask => capRecord 0x8001 (bytesLE 8 mask)
  | .inr (id, text) => capRecord 0x8002 (bytesLE 4 id ++ text.toUTF8.toList.map fun b => BitVec.ofNat 8 b.toNat)

/-- The withdrawn features of an erratum (R352). -/
def withdrawnBy : Nat ⊕ Nat × String → Nat
  | .inl mask => mask % 2 ^ 64
  | .inr _ => 0

/-! ## Reset and boot (R387) -/

/-- A package reset: what the fuses, the memories and the wear monitors hold stays, TIME counts on; a stay in A2 or S3 that it
ends counts as such (R398).
DESIGN CHOICE, log 1, 2, 5, 6. -/
def State.restart (s : State) : State :=
  { State.reset with
    time := s.time, phase := s.phase, inputs := s.inputs, bundles := s.bundles, draws := s.draws, nextId := s.nextId
    mem := s.mem, lifecycle := s.lifecycle, wear := s.wear, peerAccesses := s.peerAccesses
    vectors := s.vectors, hostRead := s.hostRead
    outTime := dies.foldl (fun t d => t.put d (s.awayTime d)) s.outTime }

/-- A step of the boot is made, or fails: its code then stands in BOOTSTAT [7:4] until reset (R387). DESIGN CHOICE, log 21. -/
def State.bootStepTo (s : State) (next : Nat) (f : State → State) : State :=
  let (n, s) := s.draw
  if Config.bootStepFails n s.bootStage then { s with bootFail := s.bootStage } else { f s with bootStage := next }

/-- Stage 1: the ROM is measured, and the capability table is put in its place for stage 2. DESIGN CHOICE, log 20. -/
def State.runRom (s : State) : State :=
  let s := (s.extend 0 Config.romBytes).extend 2 romRecords
  { s.writeMem (memKey kindDevice capTable) romRecords with capSize := romRecords.length }

/-- PACKAGE_RESET (R387): the reset, and then the ROM's first stage. -/
def execPackageReset (s : State) : Host.Outcome State Fault Refusal :=
  if s.bootStage = 1 ∧ s.bootFail = 0 then .next (s.bootStepTo 2 State.runRom) else .next s.restart

/-- Stage 5: firmware runs, appends its errata and may move BAR2's window (R373, R386). DESIGN CHOICE, log 5, 21. -/
def State.runFirmware (s : State) : State :=
  let errata := Config.firmwareErrata (s.bytesAt (memKey kindDevice s.carveBase) s.carveSize)
  let records := errata.map errataRecord
  let s := records.foldl (fun s r => s.extend 3 r) s
  let table := records.foldl (fun l r => l ++ r) [] ++ capRecord 0 []
  { s.writeMem (memKey kindDevice (capTable + romRecords.length)) table with
    withdrawn := errata.foldl (fun m e => m ||| withdrawnBy e) 0, bar2base := Config.bar2AtBoot
    capSize := romRecords.length + table.length }

/-- Stage 6: the CXL ports are enumerated and the Scarab links trained; the package forms one partition (R285).
DESIGN CHOICE, log 3. -/
def State.bringUpPorts (s : State) : State :=
  let all : Partition :=
    { pairs := List.range 96, queueBase := 0, queueCount := Config.queueCount, ranges := [(0, Config.deviceSize)]
      saveLimit := (Config.partitionSaveLimit 0).getD 200000 }
  { s with
    scarabUp := Config.portsAtBoot 0 % 2 ^ 18, cxlUp := Config.portsAtBoot 1 % 2 ^ 8, cxlPorts := Config.portsAtBoot 1 % 2 ^ 8
    routes := routesFrom Config.routeAtBoot, partitions := [(0, all)], slotTable := List.replicate 64 0 }

/-- The bytes of an image: header and code, and then its signature (R383). DESIGN CHOICE, log 21. -/
def imageBytes (carve : List Byte) : List Byte := carve.take (Config.imageLength carve + 5076)

/-- The ROM accepts an image: its magic is "SVFW", its security version is not below the fused minimum, and its signature
over the header and the code is good (R383). DESIGN CHOICE, log 21. -/
def imageAccepted (carve : List Byte) : Bool :=
  let n := Config.imageLength carve
  carve.take 4 == [0x53, 0x56, 0x46, 0x57] && decide (Config.minimumVersion ≤ fieldOf carve Config.securityVersionAt 4) &&
    hssVerify Config.hssPublicKey (carve.take n) ((carve.drop n).take 5076)

/-- The next step of a boot that the machine makes by itself: the image is verified and measured, firmware runs, and the ports
come up (R383, R387). -/
def execBootStep (s : State) : Host.Outcome State Fault Refusal :=
  if s.bootFail ≠ 0 then .next s
  else
    match s.bootStage with
    | 4 =>
      let bs := s.bytesAt (memKey kindDevice s.carveBase) s.carveSize
      if imageAccepted bs then .next { s.extend 1 (imageBytes bs) with bootStage := 5 } else .next { s with bootFail := 4 }
    | 5 => .next (s.bootStepTo 6 State.runFirmware)
    | 6 => .next (s.bootStepTo 7 State.bringUpPorts)
    | _ => .next s

/-- CARVE_LOCK (R383, R387): locks the carve-out, and the boot goes on at stage 4. DEDUCED, log 81. -/
def execCarveLock (value : Word64) (s : State) : Host.Outcome State Fault Refusal :=
  if value != 1 || s.carveLocked || s.bootStage != 3 || decide (2 ^ 36 < s.carveBase + s.carveSize) then .next s
  else .next { s with carveLocked := true, bootStage := 4 }

/-! ## The queen lease (R384, R385) -/

/-- A lower die claims in the same cycle. -/
def State.lowerClaim (s : State) (die : Nat) : Bool :=
  s.inputs.any fun p => decide (p.1 ≤ s.time) && match p.2 with
    | .queenClaim d => decide (d < die)
    | _ => false

/-- QUEEN_CLAIM (R384, R385, R387): leadership is taken once TIME has reached EXPIRY. A new leader reports the takeover,
completes the journal and goes on with the ring. DESIGN CHOICE, log 4; DEDUCED, log 80. -/
def execQueenClaim (die : Nat) (s : State) : Host.Outcome State Fault Refusal :=
  if s.bootStage < 2 || (s.bootStage == 2 && s.bootFail != 0) || s.sleeping || decide (s.time < s.queenExpiry) || s.lowerClaim die ||
      decide (Config.dieCount ≤ die) then .next s
  else
    let s := { s with leader := die, queenExpiry := s.time + 1000000, leading := true }
    if s.bootStage = 2 then .next (s.bootStepTo 3 id)
    else .next (s.emit { type := 4, context := 0, hsn := 0, detail := bytesLE 4 die }).flushEvents.advanceCompleted.takeAll

/-- QUEEN_RENEW (R384). DESIGN CHOICE, log 4. -/
def execQueenRenew (die : Nat) (s : State) : Host.Outcome State Fault Refusal :=
  if s.leading && s.leader == die && decide (s.time < s.queenExpiry) then
    .next { s with queenExpiry := s.time + 1000000 }
  else .next s

/-- QUEEN_EXPIRY (R384): the leader finds its lease expired and stops leading at once. -/
def execQueenExpiry (s : State) : Host.Outcome State Fault Refusal :=
  .next (if s.queenExpiry ≤ s.time then { s with leading := false } else s)

/-! ## Lifecycle (R391, R392) -/

/-- Zeroes device memory and with it the carve-out, and drops every context. DEDUCED, log 82. -/
def State.decommission (s : State) : State :=
  let s := s.contexts.keys.foldl State.resetContext s
  let l1 := fun (c : Core) => { c with l1 := c.l1.filter fun p => keyKind (p.1 * Config.lineBytes) != kindDevice }
  { s with contexts := [], mem := s.mem.clear 0 (2 ^ 56), cores := s.cores.mapAll l1
           writebacks := s.writebacks.filter fun p => keyKind (p.2.line * Config.lineBytes) != kindDevice }

/-- LIFECYCLE_FUSE (R391): one state forward; a debug level that the new state does not permit falls to none.
DEDUCED, log 82. -/
def execLifecycleFuse (s : State) : Host.Outcome State Fault Refusal :=
  if 2 ≤ s.lifecycle then .next s
  else
    let s := { s with lifecycle := s.lifecycle + 1 }
    let s := if s.lifecycle = 2 then s.decommission else s
    if levelPermitted s.lifecycle s.debugLvl then .next s
    else .next (s.setLevel 0)

/-! ## Links (R381, R382) -/

/-- SCARAB_LINK_DOWN (R382). -/
def execScarabLinkDown (port : Nat) (s : State) : Host.Outcome State Fault Refusal :=
  if natBit s.scarabUp port then
    .next (({ s with scarabUp := s.scarabUp - 2 ^ port } : State).emit
      { type := 3, context := 0, hsn := 0, detail := bytesLE 4 port })
  else .next s

/-- CXL_PORT_DOWN (R381): accesses through the port are unrecoverable from now on. -/
def execCxlPortDown (port : Nat) (s : State) : Host.Outcome State Fault Refusal :=
  .next (if natBit s.cxlUp port then { s with cxlUp := s.cxlUp - 2 ^ port } else s)

/-! ## The host's and peers' accesses to device memory (R280, R373, R383) -/

/-- Device bytes that an access from outside may reach: all but a locked carve-out. -/
def State.openTo (s : State) (pa n : Nat) : Bool :=
  decide (pa + n ≤ Config.deviceSize) && !(s.carveLocked && overlaps pa n s.carveBase s.carveSize)

/-- Bytes that arrive at their home slices. -/
def State.arriveHome (s : State) (key : Nat) (bs : List Byte) : State :=
  let s := s.writeMem key bs
  ((List.range bs.length).map fun i => lineOf (key + i)).eraseDups.foldl State.keepInL2 s

/-- HOST_BAR2_ACCESS (R373, R383): a host load or store through the window; one that meets the locked carve-out
completes with Unsupported Request and has no effect. DEDUCED, log 83. -/
def execHostBar2Access (store : Bool) (offset bytes value : Nat) (s : State) : Host.Outcome State Fault Refusal :=
  let pa := s.bar2base + offset
  if s.bootStage < 3 || s.sleeping || decide (2 ^ 36 < offset + bytes) || !s.openTo pa bytes then .next s
  else
    let key := memKey kindDevice pa
    if store then .next (s.arriveHome key (bytesLE bytes value)) else .next { s with hostRead := s.natAt key bytes }

/-- PEER_ACCESS_ARRIVAL (R280, R382, R383): a peer's write or atomic takes its place in the coherence order. -/
def execPeerAccessArrival (arrival : Nat) (s : State) : Host.Outcome State Fault Refusal :=
  match s.peerAccesses.find arrival with
  | none => .next s
  | some a =>
    let s := { s with peerAccesses := s.peerAccesses.del arrival }
    let n := match a.atomic with | some _ => 4 | none => a.bytes.length
    if s.sleeping || keyKind a.key != kindDevice || !s.openTo a.key n then .next s
    else
      match a.atomic with
      | none => .next (s.arriveHome a.key a.bytes)
      | some (op, x, y) =>
        let old : Word32 := BitVec.ofNat 32 (s.natAt a.key 4)
        .next (s.arriveHome a.key (bytesLE 4 (atomicNew op old (BitVec.ofNat 32 x) (BitVec.ofNat 32 y)).toNat))

/-! ## The host's other register writes (R373, R394) -/

/-- The carve-out's registers: writable until the lock; a base is a multiple of 1 MiB, a size one of at most 256 MiB.
DEDUCED, log 81. -/
def State.writeCarve (s : State) (base : Bool) (v : Nat) : State :=
  if s.carveLocked || s.sleeping || v % 2 ^ 20 != 0 then s
  else if base then { s with carveBase := v }
  else if v ≤ 2 ^ 28 then { s with carveSize := v }
  else s

/-- A write to a core's block of the mailbox region. DESIGN CHOICE, log 106. -/
def State.writeBlock (s : State) (core off : Nat) (v : Word64) : Host.Outcome State Fault Refusal :=
  if Config.coreCount ≤ core || s.sleeping then .next s
  else if off = 8 then execInw core v s
  else .next (s.updCore core fun c => { c with dbg := c.dbg.write s.debugOpen off v.toNat })

/-- REGISTER_WRITE (R373, R391, R394): a host write of eight bytes to a register of BAR0; what is not listed ignores it.
DEDUCED, log 81; DESIGN CHOICE, log 106. -/
def execRegisterWrite (offset : Nat) (value : Word64) (s : State) : Host.Outcome State Fault Refusal :=
  let v := value.toNat
  if offset % 8 ≠ 0 then .next s
  else
    match offset with
    | 0x0 => execDoorbell value s
    | 0x8 => execResync value s
    | 0x10 => execAckSeq value s
    | 0x18 => execRingcfg value s
    | 0x20 => execEvcfg value s
    | 0x28 => .next (if s.ringOpen && v % 256 == 0 then { s with statusAddr := v } else s)
    | 0x200 => .next (s.writeCarve true v)
    | 0x208 => .next (s.writeCarve false v)
    | 0x210 => execCarveLock value s
    | 0x1C008 => execDebuglvl value s
    | _ =>
      if 0x10000 ≤ offset ∧ offset < 0x1C000 then s.writeBlock ((offset - 0x10000) / 256) (offset % 256) value else .next s

/-! ## The host's reads of BAR0 (R8, R9, R373, R391 to R394, R397) -/

/-- QUEEN: LEADER, and then EXPIRY (R384). -/
def State.queenBytes (s : State) : List Byte := bytesLE 8 (s.leader % 8) ++ bytesLE 8 s.queenExpiry

/-- The power state of a die as PSTATE codes it: A1 where every core of it is there (R389, R391). DEDUCED, log 87. -/
def State.dieState (s : State) (die : Nat) : Nat :=
  if (s.parkedDies.find die).isSome then 2
  else if (coresOf die).all fun k => (s.core k).power == .a1 then 1
  else 0

/-- PSTATE (R391). -/
def State.pstate (s : State) : Nat :=
  sumNat ((List.range Config.dieCount).map fun d => s.dieState d * 2 ^ (4 * d)) + (if s.sleeping then 3 * 2 ^ 28 else 0)

/-- MBSTAT (R394). -/
def Debug.mbstat (d : Debug) : Nat := d.outFull.toNat + 2 * d.inFull.toNat

/-- A register of a core's block other than OUTW, as the host reads it: OUTW, INW, MBSTAT, BP and STEP read zero where no
debugging is open (R392, R394). -/
def Debug.read (d : Debug) (visible : Bool) (off : Nat) : Nat :=
  if 0x80 ≤ off ∧ off < 0xC0 then d.pmsel.getD ((off - 0x80) / 8) 0
  else if 0xC0 ≤ off then (d.pmwritten.find ((off - 0xC0) / 8)).getD (d.pmcnt.getD ((off - 0xC0) / 8) 0)
  else if !visible then 0
  else if off = 0x10 then d.mbstat
  else if 0x20 ≤ off ∧ off < 0x60 then d.bp.getD ((off - 0x20) / 8) 0
  else if off = 0x60 then d.step.toNat
  else 0

/-- BOOTSTAT (R387). -/
def State.bootstat (s : State) : Nat := s.bootStage + 16 * s.bootFail

/-- The eight bytes at an offset of BAR0 as a host read delivers them, but for OUTW, whose read has an effect: a register that
is only written and what is not listed read as zero (R8, R9, R373). -/
def State.register (s : State) (offset : Nat) : Nat :=
  match offset with
  | 0x10 => s.ackSeq
  | 0x18 => s.ringCfg
  | 0x20 => s.evCfg
  | 0x28 => s.statusAddr
  | 0x200 => s.carveBase
  | 0x208 => s.carveSize
  | 0x218 => s.bootstat
  | 0x220 => s.bar2base
  | 0x1C000 => s.lifecycle
  | 0x1C008 => s.debugLvl
  | 0x1C010 => s.pstate
  | _ =>
    if 0x100 ≤ offset ∧ offset < 0x200 then fieldOf s.statusPage (offset - 0x100) 8
    else if 0x400 ≤ offset ∧ offset < 0x500 then
      fieldOf (bytesLE 32 (s.meas.get ((offset - 0x400) / 32)).toNat) (offset % 32) 8
    else if 0x1000 ≤ offset ∧ offset < 0x1010 then fieldOf s.queenBytes (offset - 0x1000) 8
    else if 0x10000 ≤ offset ∧ offset < 0x1C000 then (s.core ((offset - 0x10000) / 256)).dbg.read s.debugOpen (offset % 256)
    else if 0x1D000 ≤ offset ∧ offset < 0x1D600 then
      match s.wear.find ((offset - 0x1D000) / 256) with
      | some w => fieldOf w.published (offset % 256) 8
      | none => 0
    else if offset = 0x1D600 then s.packageFigure
    else 0

/-- A host read of eight bytes of BAR0 (R373): a read of a core's OUTW also clears its OUTFULL (R394). DEDUCED, log 83. -/
def execRegisterRead (offset : Nat) (s : State) : Host.Outcome State Fault Refusal :=
  if 0x10000 ≤ offset ∧ offset < 0x1C000 ∧ offset % 256 = 0 then execOutw ((offset - 0x10000) / 256) s
  else .next { s with hostRead := if offset % 8 = 0 then s.register offset else 0 }

end Sys2Proof.Machine
end

