-- ==== Sys2Proof/Machine/Monitor.lean ====
section
/-! DEFINITION. The Cicada monitor's protocol: what a monitor run does with each word of the host (R396, R399). -/

namespace Sys2Proof.Machine

/-- What a word of the host asks. -/
inductive HostWord where
  | read | write | peek | resume | unknown
deriving DecidableEq, Repr

/-- The kind of a word by its opcode. -/
def hostWord (w : Word64) : HostWord :=
  match bitsOf w.toNat 63 56 with
  | 1 => .read | 2 => .write | 3 => .peek | 4 => .resume | _ => .unknown

def wordSeq (w : Word64) : Nat := bitsOf w.toNat 55 48
def wordOperand (w : Word64) : Nat := w.toNat % 2 ^ 48

/-- The words a monitor answers, given for a new sequence number, and sent. -/
def State.answer (s : State) (core : Nat) (m : Monitor) (seq : Nat) (reply : List Word64) : State :=
  (s.updCore core fun c => { c with monitor := some { m with seq := some seq, reply := reply, pending := none, waits := false,
                                                             out := m.out ++ reply } }).monitorOut core

/-- The old answer once more (R396). -/
def State.answerAgain (s : State) (core : Nat) (m : Monitor) : State :=
  (s.updCore core fun c => { c with monitor := some { m with pending := none, out := m.out ++ m.reply } }).monitorOut core

/-- A turn of the monitor of a core with a word of a kind: the word leaves INW as for an MBOX; `act` has the run, the
gang it serves, the monitor and the word. No gang acts while the package is stopped by HALT (R393). DEDUCED, log 86. -/
def monitorTurn (kind : HostWord) (act : State → HandlerRun → Nat × Gang → Monitor → Word64 → State) (core : Nat)
    (s : State) : Host.Outcome State Fault Refusal :=
  let c := s.core core
  match c.run, s.served core, c.monitor with
  | some r, some g, some m =>
    let w := c.dbg.inw
    if !s.debugOpen || s.halted || !c.dbg.inFull then .next s
    else if (if m.pending.isSome then kind != .write else hostWord w != kind) then .next s
    else
      let s := s.updCore core fun c => { c with monitor := some m, dbg := { c.dbg with inFull := false } }
      .next (act s r g m w)
  | _, _, _ => .next s

/-- Answers a word that comes for the first time, or again. DEDUCED, log 86. -/
def onceOnly (f : State → HandlerRun → Nat × Gang → Monitor → Word64 → State) :
    State → HandlerRun → Nat × Gang → Monitor → Word64 → State :=
  fun s r g m w =>
    if m.seq = some (wordSeq w) then s.answerAgain g.2.core m else f s r g m w

/-- The item, selector and lane an operand names. -/
def operandItem (o : Nat) : Nat := bitsOf o 15 8
def operandSel (o : Nat) : Nat := bitsOf o 7 0
def operandLane (o : Nat) : Nat := bitsOf o 21 16

/-- READ (R396). -/
def execRead (core : Nat) :=
  monitorTurn .read (onceOnly fun s _ g m w =>
    let o := wordOperand w
    let x := ((s.stateLanes g.2 (operandItem o) (operandSel o))[operandLane o]?).getD 0
    s.answer core m (wordSeq w) [monitorWord 0x81 (wordSeq w) x]) core

/-- The run of a monitor needs a register for an inherited register of the served gang that neither that gang's reserve, nor
what the run was given, nor the pool holds (R224). -/
def State.lacksRegister (s : State) (core run item : Nat) (g : Gang) : Bool :=
  decide (item < 64) && g.inherited.getLsbD item && g.reserve == 0 && (s.core core).pool == 0 &&
    (match s.gang run with | some h => h.reserve == 0 | none => true)

/-- A WRITE whose value needs a register that is not there: the run is parked for it, and the value stays in INW
(R39, R44, R224). DEDUCED, log 33. -/
def State.parkMonitor (s : State) (core : Nat) (r : HandlerRun) (gid item : Nat) (m : Monitor) : State :=
  s.updCore core fun c =>
    { c with
      monitor := some { m with waits := true }, dbg := { c.dbg with inFull := true }
      parked := if c.parked.any fun p => p.gid == r.gid then c.parked
        else c.parked ++ [{ gid := r.gid, owner := gid, regs := BitVec.twoPow 64 item }] }

/-- WRITE (R396): the word names the lane, the next one holds its value; a word that repeats the last sequence number is
answered again at once. -/
def execWrite (core : Nat) :=
  monitorTurn .write (fun s r g m w =>
    match m.pending with
    | none =>
      let o := wordOperand w
      if m.seq = some (wordSeq w) then s.answerAgain core m
      else s.updCore core fun c =>
        { c with monitor := some { m with pending := some (wordSeq w, operandItem o, operandSel o, operandLane o) } }
    | some (seq, item, sel, lane) =>
      if s.lacksRegister core r.gid item g.2 then s.parkMonitor core r g.1 item m
      else
        let old := s.stateLanes g.2 item sel
        let s := s.setServed core r.gid item sel fun p => if p = lane then w.toNat % 2 ^ 32 else (old[p]?).getD 0
        s.answer core m seq [monitorWord 0x82 seq 0]) core

/-- A byte as a core's load reads it: its own dirty byte first. -/
def State.byteFor (s : State) (core key : Nat) : Byte :=
  let l := (s.core core).line (lineOf key)
  let o := key % Config.lineBytes
  if (l.usable s.time).getLsbD o then l.bytes.get o else s.byte key

/-- PEEK (R396): eight bytes at a virtual address of the served gang's context. An address that is no multiple of eight
or whose page is not there is a trap of the monitor itself. DEDUCED, log 85. -/
def execPeek (core : Nat) :=
  monitorTurn .peek (onceOnly fun s r g m w =>
    match (if wordOperand w % 8 = 0 then s.keyOf g.2.context (wordOperand w) else none) with
    | some key =>
      let x := natOfBytes ((List.range 8).map fun i => s.byteFor core (key + i))
      s.answer core m (wordSeq w) [monitorWord 0x83 (wordSeq w) 0, BitVec.ofNat 64 x]
    | none =>
      match s.gang r.gid with
      | some h =>
        s.takeTrap r.gid { code := if wordOperand w % 8 = 0 then trapPAGE else trapALIGN, gmask := 1, detail0 := wordOperand w } h.pos h.pos
      | none => s) core

/-- RESUME (R225, R396): the action is taken, and the run ends. -/
def execMonitorResume (core : Nat) :=
  monitorTurn .resume (onceOnly fun s _ _ _ w => (s.takeAction core (wordOperand w % 4)).endRun core) core

/-- Any other word (R396): the opcode is echoed. -/
def execMonitorUnknown (core : Nat) :=
  monitorTurn .unknown (onceOnly fun s _ _ m w =>
    s.answer core m (wordSeq w) [monitorWord 0xFF (wordSeq w) (bitsOf w.toNat 63 56)]) core

end Sys2Proof.Machine
end

