-- ==== Sys2Proof/Machine/Events.lean ====
section
/-! DEFINITION. Running an event: the events of the machine, its host and its platform have the meanings of the
rows of the table that bear their names. -/

namespace Sys2Proof.Machine

/-- Runs an event. -/
def runEvent (e : Event) (s : State) : Host.Outcome State Fault Refusal :=
  match e with
  | .streamFetch gid => execStreamFetch gid s
  | .streamCacheFill core fill => execStreamCacheFill core fill s
  | .refillInstall core refill => execRefillInstall core refill s
  | .starvationBound gid => execStarvationBound gid s
  | .resultLanding core => execResultLanding core s
  | .longWriteFill gid write => execLongWriteFill gid write s
  | .dividerResult core => execDividerResult core s
  | .indexJobLand core => execIndexJobLand core s
  | .matrixOpStart core => execMatrixOpStart core s
  | .matrixOpComplete core => execMatrixOpComplete core s
  | .templateInstall core install => execTemplateInstall core install s
  | .freezeSnapshot gid => execFreezeSnapshot gid s
  | .gangEnd gid => execGangEnd gid s
  | .copyDeadlock core => execCopyDeadlock core s
  | .sleepWake gid => execSleepWake gid s
  | .yieldExpiry gid => execYieldExpiry gid s
  | .stlLand gid write => execStlLand gid write s
  | .tlbWalkDone die walk => execTlbWalkDone die walk s
  | .faultResolution fault success => execFaultResolution fault success s
  | .page gid => execPage gid s
  | .l1Fill core fetch => execL1Fill core fetch s
  | .leaseExpiry core line => execLeaseExpiry core line s
  | .dirtyTimeout core line => execDirtyTimeout core line s
  | .writebackArrival writeback => execWritebackArrival writeback s
  | .atomicAtHome atomic => execAtomicAtHome atomic s
  | .releaseWaitEnd gid => execReleaseWaitEnd gid s
  | .acquireDrop core gid => execAcquireDrop core gid s
  | .copyCompletion copyId => execCopyCompletion copyId s
  | .batchRetirement gid group => execBatchRetirement gid group s
  | .autoPublish copyId => execAutoPublish copyId s
  | .publishSwap team record => execPublishSwap team record s
  | .inboxDelivery delivery => execInboxDelivery delivery s
  | .barrierArrival arrival => execBarrierArrival arrival s
  | .pushArrival push => execPushArrival push s
  | .pushRefusal push => execPushRefusal push s
  | .heldPushAccept queue => execHeldPushAccept queue s
  | .qarmUpdate update => execQarmUpdate update s
  | .latchDelivery delivery => execLatchDelivery delivery s
  | .refillBurstStart queue => execRefillBurstStart queue s
  | .refillBurstLanding queue => execRefillBurstLanding queue s
  | .ageTrigger queue => execAgeTrigger queue s
  | .firing die => execFiring die s
  | .prologueDispatch launch => execPrologueDispatch launch s
  | .teamPlacement die team => execTeamPlacement die team s
  | .teamCompletion team => execTeamCompletion team s
  | .handlerRunStart core => execHandlerRunStart core s
  | .softDeadline team => execSoftDeadline team s
  | .saveComplete team => execSaveComplete team s
  | .saveTimeout team => execSaveTimeout team s
  | .restore team => execRestore team s
  | .doorbell value => execDoorbell value s
  | .resync value => execResync value s
  | .ackSeq value => execAckSeq value s
  | .ringcfg value => execRingcfg value s
  | .carveLock value => execCarveLock value s
  | .debuglvl value => execDebuglvl value s
  | .inw core value => execInw core value s
  | .outw core => execOutw core s
  | .registerWrite offset value => execRegisterWrite offset value s
  | .hostLaunch hsn => execHostLaunch hsn s
  | .copy hsn => execCopy hsn s
  | .queueCfg hsn => execQueueCfg hsn s
  | .queuePush hsn => execQueuePush hsn s
  | .signal hsn => execSignal hsn s
  | .fence hsn => execFence hsn s
  | .preemptSoft hsn => execPreemptSoft hsn s
  | .preemptHard hsn => execPreemptHard hsn s
  | .inval hsn => execInval hsn s
  | .contextCreate hsn => execContextCreate hsn s
  | .contextDestroy hsn => execContextDestroy hsn s
  | .partition hsn => execPartition hsn s
  | .resume hsn => execResume hsn s
  | .queenClaim die => execQueenClaim die s
  | .queenRenew die => execQueenRenew die s
  | .queenExpiry => execQueenExpiry s
  | .packageReset => execPackageReset s
  | .lifecycleFuse => execLifecycleFuse s
  | .scarabLinkDown port => execScarabLinkDown port s
  | .a1Entry core => execA1Entry core s
  | .a2Entry die => execA2Entry die s
  | .a2Exit die => execA2Exit die s
  | .d3hotRequest => execD3hotRequest s
  | .d0Exit => execD0Exit s
  | .halt => execHalt s
  | .scan write gid item sel lane value => execScan write gid item sel lane value s
  | .scanResume => execScanResume s
  | .wearSample die => execWearSample die s
  | .read core => execRead core s
  | .write core => execWrite core s
  | .peek core => execPeek core s
  | .monitorResume core => execMonitorResume core s
  | .monitorUnknown core => execMonitorUnknown core s
  | .partnerSlotFill fill => execPartnerSlotFill fill s
  | .partnerSlotWrite write => execPartnerSlotWrite write s
  | .hallocClearDone gid write => execHallocClearDone gid write s
  | .evcfg value => execEvcfg value s
  | .cxlPortDown port => execCxlPortDown port s
  | .hostBar2Access store offset bytes value => execHostBar2Access store offset bytes value s
  | .peerAccessArrival arrival => execPeerAccessArrival arrival s
  | .bootStep => execBootStep s
  | .registerRead offset => execRegisterRead offset s
  | .msixControl enable hold => execMsixControl enable hold s
  | .msixVector vector masked => execMsixVector vector masked s

end Sys2Proof.Machine
end

