-- ==== Sys2Proof/Machine/Dispatch.lean ====
section
/-! DEFINITION. Dispatch: one arm for each constructor of the instructions, each a direct call of its meaning. -/

namespace Sys2Proof.Machine

def exec (i : Instr) (s : State) : Host.Outcome State Fault Refusal :=
  match i with
  | .add g d a b => Sys2Proof.Machine.execAdd g d a b s
  | .sub g d a b => Sys2Proof.Machine.execSub g d a b s
  | .mul g d a b => Sys2Proof.Machine.execMul g d a b s
  | .mulh g d a b => Sys2Proof.Machine.execMulh g d a b s
  | .mulhw g d a b => Sys2Proof.Machine.execMulhw g d a b s
  | .div g d a b => Sys2Proof.Machine.execDiv g d a b s
  | .divw g d a b => Sys2Proof.Machine.execDivw g d a b s
  | .rem g d a b => Sys2Proof.Machine.execRem g d a b s
  | .remw g d a b => Sys2Proof.Machine.execRemw g d a b s
  | .and g d a b => Sys2Proof.Machine.execAnd g d a b s
  | .or g d a b => Sys2Proof.Machine.execOr g d a b s
  | .xor g d a b => Sys2Proof.Machine.execXor g d a b s
  | .andn g d a b => Sys2Proof.Machine.execAndn g d a b s
  | .shl g d a b => Sys2Proof.Machine.execShl g d a b s
  | .shr g d a b => Sys2Proof.Machine.execShr g d a b s
  | .sar g d a b => Sys2Proof.Machine.execSar g d a b s
  | .rol g d a b => Sys2Proof.Machine.execRol g d a b s
  | .min g d a b => Sys2Proof.Machine.execMin g d a b s
  | .max g d a b => Sys2Proof.Machine.execMax g d a b s
  | .minw g d a b => Sys2Proof.Machine.execMinw g d a b s
  | .maxw g d a b => Sys2Proof.Machine.execMaxw g d a b s
  | .clz g d a => Sys2Proof.Machine.execClz g d a s
  | .cnt g d a => Sys2Proof.Machine.execCnt g d a s
  | .sel g d a b c => Sys2Proof.Machine.execSel g d a b c s
  | .mov g d a => Sys2Proof.Machine.execMov g d a s
  | .li g d a => Sys2Proof.Machine.execLi g d a s
  | .lih g d a b => Sys2Proof.Machine.execLih g d a b s
  | .ceq g d a b => Sys2Proof.Machine.execCeq g d a b s
  | .cne g d a b => Sys2Proof.Machine.execCne g d a b s
  | .clt g d a b => Sys2Proof.Machine.execClt g d a b s
  | .cle g d a b => Sys2Proof.Machine.execCle g d a b s
  | .cltw g d a b => Sys2Proof.Machine.execCltw g d a b s
  | .clew g d a b => Sys2Proof.Machine.execClew g d a b s
  | .cand g d a b => Sys2Proof.Machine.execCand g d a b s
  | .cor g d a b => Sys2Proof.Machine.execCor g d a b s
  | .cxor g d a b => Sys2Proof.Machine.execCxor g d a b s
  | .cany g d a => Sys2Proof.Machine.execCany g d a s
  | .cevery g d a => Sys2Proof.Machine.execCevery g d a s
  | .br g a => Sys2Proof.Machine.execBr g a s
  | .brc g mod a b => Sys2Proof.Machine.execBrc g mod a b s
  | .brd g a b c => Sys2Proof.Machine.execBrd g a b c s
  | .join g => Sys2Proof.Machine.execJoin g s
  | .call g a => Sys2Proof.Machine.execCall g a s
  | .ret g => Sys2Proof.Machine.execRet g s
  | .loop g d a b => Sys2Proof.Machine.execLoop g d a b s
  | .brx g a => Sys2Proof.Machine.execBrx g a s
  | .exit g => Sys2Proof.Machine.execExit g s
  | .freeze g => Sys2Proof.Machine.execFreeze g s
  | .yield g => Sys2Proof.Machine.execYield g s
  | .sleep g a => Sys2Proof.Machine.execSleep g a s
  | .trap g a => Sys2Proof.Machine.execTrap g a s
  | .rdsr g d a => Sys2Proof.Machine.execRdsr g d a s
  | .wrsr g d a => Sys2Proof.Machine.execWrsr g d a s
  | .vadd g d a b => Sys2Proof.Machine.execVadd g d a b s
  | .vsub g d a b => Sys2Proof.Machine.execVsub g d a b s
  | .vmul g d a b => Sys2Proof.Machine.execVmul g d a b s
  | .vmulh g d a b => Sys2Proof.Machine.execVmulh g d a b s
  | .vmad g d a b c => Sys2Proof.Machine.execVmad g d a b c s
  | .vand g d a b => Sys2Proof.Machine.execVand g d a b s
  | .vor g d a b => Sys2Proof.Machine.execVor g d a b s
  | .vxor g d a b => Sys2Proof.Machine.execVxor g d a b s
  | .vshl g d a b => Sys2Proof.Machine.execVshl g d a b s
  | .vshr g d a b => Sys2Proof.Machine.execVshr g d a b s
  | .vsar g d a b => Sys2Proof.Machine.execVsar g d a b s
  | .vmin g d a b => Sys2Proof.Machine.execVmin g d a b s
  | .vmax g d a b => Sys2Proof.Machine.execVmax g d a b s
  | .vminw g d a b => Sys2Proof.Machine.execVminw g d a b s
  | .vmaxw g d a b => Sys2Proof.Machine.execVmaxw g d a b s
  | .vabs g d a => Sys2Proof.Machine.execVabs g d a s
  | .vclz g d a => Sys2Proof.Machine.execVclz g d a s
  | .vcnt g d a => Sys2Proof.Machine.execVcnt g d a s
  | .vsel g d a b c => Sys2Proof.Machine.execVsel g d a b c s
  | .vmov g d a => Sys2Proof.Machine.execVmov g d a s
  | .vli g d a => Sys2Proof.Machine.execVli g d a s
  | .vceq g d a b => Sys2Proof.Machine.execVceq g d a b s
  | .vcne g d a b => Sys2Proof.Machine.execVcne g d a b s
  | .vclt g d a b => Sys2Proof.Machine.execVclt g d a b s
  | .vcle g d a b => Sys2Proof.Machine.execVcle g d a b s
  | .vcltw g d a b => Sys2Proof.Machine.execVcltw g d a b s
  | .vclew g d a b => Sys2Proof.Machine.execVclew g d a b s
  | .fceq g d a b => Sys2Proof.Machine.execFceq g d a b s
  | .fclt g d a b => Sys2Proof.Machine.execFclt g d a b s
  | .fcle g d a b => Sys2Proof.Machine.execFcle g d a b s
  | .fcun g d a b => Sys2Proof.Machine.execFcun g d a b s
  | .dceq g d a b => Sys2Proof.Machine.execDceq g d a b s
  | .dclt g d a b => Sys2Proof.Machine.execDclt g d a b s
  | .dcle g d a b => Sys2Proof.Machine.execDcle g d a b s
  | .pand g d a b => Sys2Proof.Machine.execPand g d a b s
  | .por g d a b => Sys2Proof.Machine.execPor g d a b s
  | .pxor g d a b => Sys2Proof.Machine.execPxor g d a b s
  | .pandn g d a b => Sys2Proof.Machine.execPandn g d a b s
  | .pmov g d a => Sys2Proof.Machine.execPmov g d a s
  | .fadd g d a b => Sys2Proof.Machine.execFadd g d a b s
  | .fsub g d a b => Sys2Proof.Machine.execFsub g d a b s
  | .fmul g d a b => Sys2Proof.Machine.execFmul g d a b s
  | .ffma g d a b c => Sys2Proof.Machine.execFfma g d a b c s
  | .ffms g d a b c => Sys2Proof.Machine.execFfms g d a b c s
  | .fnma g d a b c => Sys2Proof.Machine.execFnma g d a b c s
  | .fmin g d a b => Sys2Proof.Machine.execFmin g d a b s
  | .fmax g d a b => Sys2Proof.Machine.execFmax g d a b s
  | .fabs g d a => Sys2Proof.Machine.execFabs g d a s
  | .fneg g d a => Sys2Proof.Machine.execFneg g d a s
  | .frnd g mod d a => Sys2Proof.Machine.execFrnd g mod d a s
  | .frcp g d a => Sys2Proof.Machine.execFrcp g d a s
  | .frsq g d a => Sys2Proof.Machine.execFrsq g d a s
  | .fsqrt g d a => Sys2Proof.Machine.execFsqrt g d a s
  | .fexp2 g d a => Sys2Proof.Machine.execFexp2 g d a s
  | .flog2 g d a => Sys2Proof.Machine.execFlog2 g d a s
  | .dadd g d a b => Sys2Proof.Machine.execDadd g d a b s
  | .dsub g d a b => Sys2Proof.Machine.execDsub g d a b s
  | .dmul g d a b => Sys2Proof.Machine.execDmul g d a b s
  | .dfma g d a b c => Sys2Proof.Machine.execDfma g d a b c s
  | .drcp g d a => Sys2Proof.Machine.execDrcp g d a s
  | .drsq g d a => Sys2Proof.Machine.execDrsq g d a s
  | .dsqrt g d a => Sys2Proof.Machine.execDsqrt g d a s
  | .hadd2 g mod d a b => Sys2Proof.Machine.execHadd2 g mod d a b s
  | .hmul2 g mod d a b => Sys2Proof.Machine.execHmul2 g mod d a b s
  | .hfma2 g mod d a b c => Sys2Proof.Machine.execHfma2 g mod d a b c s
  | .cvtif g mod d a => Sys2Proof.Machine.execCvtif g mod d a s
  | .cvtfi g mod d a => Sys2Proof.Machine.execCvtfi g mod d a s
  | .cvtfd g d a => Sys2Proof.Machine.execCvtfd g d a s
  | .cvtdf g d a => Sys2Proof.Machine.execCvtdf g d a s
  | .cvtn g d a b mode => Sys2Proof.Machine.execCvtn g d a b mode s
  | .cvtw g d a b => Sys2Proof.Machine.execCvtw g d a b s
  | .vshf g d a b c => Sys2Proof.Machine.execVshf g d a b c s
  | .vbcast g d a b => Sys2Proof.Machine.execVbcast g d a b s
  | .vrot g d a b => Sys2Proof.Machine.execVrot g d a b s
  | .vred g mod d a => Sys2Proof.Machine.execVred g mod d a s
  | .vscan g d a => Sys2Proof.Machine.execVscan g d a s
  | .vrdx g d a => Sys2Proof.Machine.execVrdx g d a s
  | .vwrx g a b => Sys2Proof.Machine.execVwrx g a b s
  | .mma g d a b c => Sys2Proof.Machine.execMma g d a b c s
  | .mmaz g d a b c => Sys2Proof.Machine.execMmaz g d a b c s
  | .mdrain g mod d a => Sys2Proof.Machine.execMdrain g mod d a s
  | .mfill g d a => Sys2Proof.Machine.execMfill g d a s
  | .mzero g d => Sys2Proof.Machine.execMzero g d s
  | .halloc g mod d => Sys2Proof.Machine.execHalloc g mod d s
  | .hfree g a => Sys2Proof.Machine.execHfree g a s
  | .hgive g a b c => Sys2Proof.Machine.execHgive g a b c s
  | .htake g d c => Sys2Proof.Machine.execHtake g d c s
  | .hshare g a b c => Sys2Proof.Machine.execHshare g a b c s
  | .hdup g d a => Sys2Proof.Machine.execHdup g d a s
  | .hpub g a => Sys2Proof.Machine.execHpub g a s
  | .hinfo g d a => Sys2Proof.Machine.execHinfo g d a s
  | .hwait g a => Sys2Proof.Machine.execHwait g a s
  | .lds g mod d a b => Sys2Proof.Machine.execLds g mod d a b s
  | .ldsw g mod d a b => Sys2Proof.Machine.execLdsw g mod d a b s
  | .sts g mod a b c => Sys2Proof.Machine.execSts g mod a b c s
  | .ldv g mod d a b => Sys2Proof.Machine.execLdv g mod d a b s
  | .ldvw g mod d a b => Sys2Proof.Machine.execLdvw g mod d a b s
  | .stv g mod a b c => Sys2Proof.Machine.execStv g mod a b c s
  | .ldvb g d a => Sys2Proof.Machine.execLdvb g d a s
  | .stvb g a c => Sys2Proof.Machine.execStvb g a c s
  | .ldl g mod d b => Sys2Proof.Machine.execLdl g mod d b s
  | .stl g mod b c => Sys2Proof.Machine.execStl g mod b c s
  | .atadd g mod d a b c => Sys2Proof.Machine.execAtadd g mod d a b c s
  | .atmin g mod d a b c => Sys2Proof.Machine.execAtmin g mod d a b c s
  | .atmax g mod d a b c => Sys2Proof.Machine.execAtmax g mod d a b c s
  | .atminw g mod d a b c => Sys2Proof.Machine.execAtminw g mod d a b c s
  | .atmaxw g mod d a b c => Sys2Proof.Machine.execAtmaxw g mod d a b c s
  | .atand g mod d a b c => Sys2Proof.Machine.execAtand g mod d a b c s
  | .ator g mod d a b c => Sys2Proof.Machine.execAtor g mod d a b c s
  | .atxor g mod d a b c => Sys2Proof.Machine.execAtxor g mod d a b c s
  | .atxch g mod d a b c => Sys2Proof.Machine.execAtxch g mod d a b c s
  | .atcas g mod d a b c => Sys2Proof.Machine.execAtcas g mod d a b c s
  | .atfadd g mod d a b c => Sys2Proof.Machine.execAtfadd g mod d a b c s
  | .facq g mod => Sys2Proof.Machine.execFacq g mod s
  | .frel g mod => Sys2Proof.Machine.execFrel g mod s
  | .far g mod => Sys2Proof.Machine.execFar g mod s
  | .tld g d a b => Sys2Proof.Machine.execTld g d a b s
  | .tst g a b c => Sys2Proof.Machine.execTst g a b c s
  | .xsv g d a => Sys2Proof.Machine.execXsv g d a s
  | .xvs g mod d a b => Sys2Proof.Machine.execXvs g mod d a b s
  | .cpy g mod d a b c => Sys2Proof.Machine.execCpy g mod d a b c s
  | .cpyb g mod d a b c => Sys2Proof.Machine.execCpyb g mod d a b c s
  | .cpym g mod d a b c => Sys2Proof.Machine.execCpym g mod d a b c s
  | .cpyo g d a b c => Sys2Proof.Machine.execCpyo g d a b c s
  | .cpyg g d a b => Sys2Proof.Machine.execCpyg g d a b s
  | .cpyl g d a b c => Sys2Proof.Machine.execCpyl g d a b c s
  | .cchain g => Sys2Proof.Machine.execCchain g s
  | .cseal g d => Sys2Proof.Machine.execCseal g d s
  | .cwait g a => Sys2Proof.Machine.execCwait g a s
  | .cbind g a => Sys2Proof.Machine.execCbind g a s
  | .barinit g a b c => Sys2Proof.Machine.execBarinit g a b c s
  | .bararv g a => Sys2Proof.Machine.execBararv g a s
  | .barwt g a => Sys2Proof.Machine.execBarwt g a s
  | .barsyn g a => Sys2Proof.Machine.execBarsyn g a s
  | .qpush g a b => Sys2Proof.Machine.execQpush g a b s
  | .qpushn g d a b => Sys2Proof.Machine.execQpushn g d a b s
  | .qpop g d a => Sys2Proof.Machine.execQpop g d a s
  | .qbind g d a => Sys2Proof.Machine.execQbind g d a s
  | .qarm g a b c => Sys2Proof.Machine.execQarm g a b c s
  | .qstat g d a => Sys2Proof.Machine.execQstat g d a s
  | .qdone g => Sys2Proof.Machine.execQdone g s
  | .launch g d a => Sys2Proof.Machine.execLaunch g d a s
  | .gstate g d a b => Sys2Proof.Machine.execGstate g d a b s
  | .gset g a b c => Sys2Proof.Machine.execGset g a b c s
  | .resumeAction core action => Sys2Proof.Machine.execResumeAction core action s
  | .mbox g d a => Sys2Proof.Machine.execMbox g d a s
  | .stop => Sys2Proof.Machine.execStop s
  | .streamFetch gid => Sys2Proof.Machine.execStreamFetch gid s
  | .streamCacheFill core fill => Sys2Proof.Machine.execStreamCacheFill core fill s
  | .refillInstall core refill => Sys2Proof.Machine.execRefillInstall core refill s
  | .starvationBound gid => Sys2Proof.Machine.execStarvationBound gid s
  | .resultLanding core => Sys2Proof.Machine.execResultLanding core s
  | .longWriteFill gid write => Sys2Proof.Machine.execLongWriteFill gid write s
  | .dividerResult core => Sys2Proof.Machine.execDividerResult core s
  | .indexJobLand core => Sys2Proof.Machine.execIndexJobLand core s
  | .matrixOpStart core => Sys2Proof.Machine.execMatrixOpStart core s
  | .matrixOpComplete core => Sys2Proof.Machine.execMatrixOpComplete core s
  | .templateInstall core install => Sys2Proof.Machine.execTemplateInstall core install s
  | .freezeSnapshot gid => Sys2Proof.Machine.execFreezeSnapshot gid s
  | .gangEnd gid => Sys2Proof.Machine.execGangEnd gid s
  | .copyDeadlock core => Sys2Proof.Machine.execCopyDeadlock core s
  | .sleepWake gid => Sys2Proof.Machine.execSleepWake gid s
  | .yieldExpiry gid => Sys2Proof.Machine.execYieldExpiry gid s
  | .stlLand gid write => Sys2Proof.Machine.execStlLand gid write s
  | .tlbWalkDone die walk => Sys2Proof.Machine.execTlbWalkDone die walk s
  | .faultResolution fault success => Sys2Proof.Machine.execFaultResolution fault success s
  | .page gid => Sys2Proof.Machine.execPage gid s
  | .l1Fill core fetch => Sys2Proof.Machine.execL1Fill core fetch s
  | .leaseExpiry core line => Sys2Proof.Machine.execLeaseExpiry core line s
  | .dirtyTimeout core line => Sys2Proof.Machine.execDirtyTimeout core line s
  | .writebackArrival writeback => Sys2Proof.Machine.execWritebackArrival writeback s
  | .atomicAtHome atomic => Sys2Proof.Machine.execAtomicAtHome atomic s
  | .releaseWaitEnd gid => Sys2Proof.Machine.execReleaseWaitEnd gid s
  | .acquireDrop core gid => Sys2Proof.Machine.execAcquireDrop core gid s
  | .copyCompletion copyId => Sys2Proof.Machine.execCopyCompletion copyId s
  | .batchRetirement gid group => Sys2Proof.Machine.execBatchRetirement gid group s
  | .autoPublish copyId => Sys2Proof.Machine.execAutoPublish copyId s
  | .publishSwap team record => Sys2Proof.Machine.execPublishSwap team record s
  | .inboxDelivery delivery => Sys2Proof.Machine.execInboxDelivery delivery s
  | .barrierArrival arrival => Sys2Proof.Machine.execBarrierArrival arrival s
  | .pushArrival push => Sys2Proof.Machine.execPushArrival push s
  | .pushRefusal push => Sys2Proof.Machine.execPushRefusal push s
  | .heldPushAccept queue => Sys2Proof.Machine.execHeldPushAccept queue s
  | .qarmUpdate update => Sys2Proof.Machine.execQarmUpdate update s
  | .latchDelivery delivery => Sys2Proof.Machine.execLatchDelivery delivery s
  | .refillBurstStart queue => Sys2Proof.Machine.execRefillBurstStart queue s
  | .refillBurstLanding queue => Sys2Proof.Machine.execRefillBurstLanding queue s
  | .ageTrigger queue => Sys2Proof.Machine.execAgeTrigger queue s
  | .firing die => Sys2Proof.Machine.execFiring die s
  | .prologueDispatch launch => Sys2Proof.Machine.execPrologueDispatch launch s
  | .teamPlacement die team => Sys2Proof.Machine.execTeamPlacement die team s
  | .teamCompletion team => Sys2Proof.Machine.execTeamCompletion team s
  | .handlerRunStart core => Sys2Proof.Machine.execHandlerRunStart core s
  | .softDeadline team => Sys2Proof.Machine.execSoftDeadline team s
  | .saveComplete team => Sys2Proof.Machine.execSaveComplete team s
  | .saveTimeout team => Sys2Proof.Machine.execSaveTimeout team s
  | .restore team => Sys2Proof.Machine.execRestore team s
  | .doorbell value => Sys2Proof.Machine.execDoorbell value s
  | .resync value => Sys2Proof.Machine.execResync value s
  | .ackSeq value => Sys2Proof.Machine.execAckSeq value s
  | .ringcfg value => Sys2Proof.Machine.execRingcfg value s
  | .carveLock value => Sys2Proof.Machine.execCarveLock value s
  | .debuglvl value => Sys2Proof.Machine.execDebuglvl value s
  | .inw core value => Sys2Proof.Machine.execInw core value s
  | .outw core => Sys2Proof.Machine.execOutw core s
  | .registerWrite offset value => Sys2Proof.Machine.execRegisterWrite offset value s
  | .hostLaunch hsn => Sys2Proof.Machine.execHostLaunch hsn s
  | .copy hsn => Sys2Proof.Machine.execCopy hsn s
  | .queueCfg hsn => Sys2Proof.Machine.execQueueCfg hsn s
  | .queuePush hsn => Sys2Proof.Machine.execQueuePush hsn s
  | .signal hsn => Sys2Proof.Machine.execSignal hsn s
  | .fence hsn => Sys2Proof.Machine.execFence hsn s
  | .preemptSoft hsn => Sys2Proof.Machine.execPreemptSoft hsn s
  | .preemptHard hsn => Sys2Proof.Machine.execPreemptHard hsn s
  | .inval hsn => Sys2Proof.Machine.execInval hsn s
  | .contextCreate hsn => Sys2Proof.Machine.execContextCreate hsn s
  | .contextDestroy hsn => Sys2Proof.Machine.execContextDestroy hsn s
  | .partition hsn => Sys2Proof.Machine.execPartition hsn s
  | .resume hsn => Sys2Proof.Machine.execResume hsn s
  | .queenClaim die => Sys2Proof.Machine.execQueenClaim die s
  | .queenRenew die => Sys2Proof.Machine.execQueenRenew die s
  | .queenExpiry => Sys2Proof.Machine.execQueenExpiry s
  | .packageReset => Sys2Proof.Machine.execPackageReset s
  | .lifecycleFuse => Sys2Proof.Machine.execLifecycleFuse s
  | .scarabLinkDown port => Sys2Proof.Machine.execScarabLinkDown port s
  | .a1Entry core => Sys2Proof.Machine.execA1Entry core s
  | .a2Entry die => Sys2Proof.Machine.execA2Entry die s
  | .a2Exit die => Sys2Proof.Machine.execA2Exit die s
  | .d3hotRequest => Sys2Proof.Machine.execD3hotRequest s
  | .d0Exit => Sys2Proof.Machine.execD0Exit s
  | .halt => Sys2Proof.Machine.execHalt s
  | .scan write gid item sel lane value => Sys2Proof.Machine.execScan write gid item sel lane value s
  | .scanResume => Sys2Proof.Machine.execScanResume s
  | .wearSample die => Sys2Proof.Machine.execWearSample die s
  | .read core => Sys2Proof.Machine.execRead core s
  | .write core => Sys2Proof.Machine.execWrite core s
  | .peek core => Sys2Proof.Machine.execPeek core s
  | .monitorResume core => Sys2Proof.Machine.execMonitorResume core s
  | .monitorUnknown core => Sys2Proof.Machine.execMonitorUnknown core s
  | .partnerSlotFill fill => Sys2Proof.Machine.execPartnerSlotFill fill s
  | .partnerSlotWrite write => Sys2Proof.Machine.execPartnerSlotWrite write s
  | .hallocClearDone gid write => Sys2Proof.Machine.execHallocClearDone gid write s
  | .evcfg value => Sys2Proof.Machine.execEvcfg value s
  | .cxlPortDown port => Sys2Proof.Machine.execCxlPortDown port s
  | .hostBar2Access store offset bytes value => Sys2Proof.Machine.execHostBar2Access store offset bytes value s
  | .peerAccessArrival arrival => Sys2Proof.Machine.execPeerAccessArrival arrival s

end Sys2Proof.Machine
end

