-- ==== Sys2Proof/Machine/Issue.lean ====
section
/-! DEFINITION. Issue: which gangs are ready (R17), which of them issues (R18, R19), and how a bundle issues whole
(R17, R39, R233, R327). -/

namespace Sys2Proof.Machine

/-! ## Readiness -/

/-- BREAK before the gang's next bundle (R326, R394). DEDUCED, log 28. -/
def State.breakTrap (s : State) (g : Gang) : Option Trap :=
  if !s.debugOpen || g.handler || g.breakDone then none
  else
    let d := (s.core g.core).dbg
    let trap := fun (n : Nat) => ({ code := trapBREAK, gmask := g.activeMask, detail0 := n } : Trap)
    let hit := fun (i : Nat) =>
      let w := d.bp.getD (2 * i + 1) 0
      natBit w 63 && w % 2 ^ 32 == g.launch && d.bp.getD (2 * i) 0 == g.pos
    match (List.range 4).find? hit with
    | some i => some (trap i)
    | none =>
      if g.breakNext || (natBit d.step.toNat 16 && g.seat < 16 && natBit d.step.toNat g.seat) then some (trap 0xFF)
      else none

/-- The issuing bundle of a gang, at its first slot. -/
def State.curOf (s : State) (gid : Nat) (g : Gang) (b : Fetched) (e : Entry) (mode : Mode) (ready : List Nat) : Cur :=
  { gid := gid, slot := .s, pos := g.pos, next := b.next, imms := b.imms, mode := mode, verdict := .go, snap := some g,
    bundle := s.bundles, ops := e.ops, ready := ready, claims := [] }

/-- What one operation of a bundle would do. -/
def State.probe (s : State) (c : Cur) (x : Slot × Instr) : Verdict :=
  match exec x.2 { s with cur := some { c with mode := .probe, slot := x.1 } } with
  | .next s' => match s'.cur with | some c' => c'.verdict | none => .go
  | _ => .go

/-- A wait that a trap of the bundle ends: the bundle is ready although a source is empty (R17). -/
def Wait.waived : Wait → Bool
  | .operand => true
  | _ => false

/-- A wait that copy deadlock looks through (R40). -/
def Wait.blockable : Wait → Bool
  | .registers _ | .barrier _ | .inboxEmpty _ | .inboxFull _ _ => true
  | _ => false

/-- The traps among verdicts, and the waits. DEDUCED, log 25. -/
def trapsOf (l : List Verdict) : List Trap := l.filterMap fun v => match v with | .trap t => some t | _ => none
def holdsOf (l : List Verdict) : List Wait := l.filterMap fun v => match v with | .hold w => some w | _ => none

/-- The verdict on a bundle from those on its slots: a wait that no trap ends, else the trap of the lowest slot, else a
wait for an empty source (R17, R26, R327). DEDUCED, log 24, 25. -/
def joinVerdicts (l : List Verdict) : Verdict :=
  let holds := holdsOf l
  match holds.filter (fun w => !w.waived), minBy (fun t : Trap => t.slot) (trapsOf l), holds with
  | [], some t, _ => .trap t
  | _, _, w :: _ => .hold ((holds.find? fun w => !w.blockable).getD w)
  | _, _, [] => .go

/-- A latch that the pop mask names is bound and empty in an active group (R231). -/
def Gang.popWaits (g : Gang) (pop : BitVec 4) : Bool :=
  g.activeGroups.any fun k => (setBits pop).any fun j =>
    match g.group k with
    | some x => (x.latch j).queue.isSome && (x.latch j).held.isNone
    | none => false

/-- Whether a bundle is ready (R17, R196, R231). DEDUCED, log 24. -/
def State.bundleVerdict (s : State) (gid : Nat) (g : Gang) (b : Fetched) (e : Entry) : Verdict :=
  if e.sync && g.inFlight then .hold .sync
  else if g.sync.isSome && e.ops.any fun x => x.1 == .c0 || x.1 == .c1 || x.1 == .m then .hold .fence
  else if g.popWaits e.pop then .hold .pending
  else joinVerdicts (e.ops.map (s.probe (s.curOf gid g b e .probe [])))

/-- REFUSED for a refused entry (R111, R329). DEDUCED, log 28. -/
def refusedTrap (g : Gang) (index reason : Nat) : Trap :=
  { code := trapREFUSED, reason := reason, gmask := g.activeMask, detail0 := index }

/-- A gang of a seat that may issue as far as time, parking and the package go. A run of the Cicada monitor issues nothing of
itself: its words are events. DEDUCED, log 84, 86. -/
def State.mayIssue (s : State) (g : Gang) : Bool :=
  g.seated && g.active != 0 && g.park == .none && !s.halted && decide (s.awakeAt ≤ s.time) &&
  decide ((s.core g.core).wakeAt ≤ s.time) && decide (g.emptyUntil ≤ s.time) && decide (g.wake ≤ s.time) &&
  (g.yieldTo.isEmpty || match g.yieldUntil with | some t => decide (t ≤ s.time) | none => true) &&
  g.heldPushes == 0 && g.page.isEmpty && !(g.handler && (s.core g.core).monitor.isSome)

/-- Whether a gang is ready, waits or is to trap at its next bundle (R17). -/
def State.verdictOf (s : State) (gid : Nat) (g : Gang) : Verdict :=
  match (s.core g.core).parked.find? fun p => p.gid == gid with
  | some p => .hold (.registers (s.lacks p))
  | none =>
    if !s.mayIssue g then .hold .other
    else
      match g.syncBar.find? fun p => !s.waitOver g p.1 (maskGroups p.2), g.syncBar with
      | some p, _ => .hold (s.barWait g p.1 (maskGroups p.2))
      | none, _ :: _ => .hold .other
      | none, [] =>
        match g.fetch with
        | .trap t _ => .trap t
        | .bundle b =>
          match s.breakTrap g with
          | some t => .trap t
          | none =>
            match b.entry with
            | .refused r _ => .trap (refusedTrap g b.index r)
            | .usable e => s.bundleVerdict gid g b e
        | _ => .hold .other

/-- Notes why each gang of a core is not ready, as pinning and copy deadlock look at it (R40, R109). -/
def State.judgeCore (s : State) (core : Nat) : State :=
  (s.core core).seats.foldl (fun (s : State) (p : Nat × Nat) =>
    match s.gang p.2 with
    | none => s
    | some g =>
      let w : Option Wait := match s.verdictOf p.2 g with | .hold w => some w | _ => none
      if g.wait = w then s else s.putGang p.2 { g with wait := w }) s

/-! ## Choice (R18) -/

/-- The order in which ready gangs are taken: the handler seat, then the highest class with aged gangs as class 3,
then the oldest last issue, then the lowest seat. -/
def Gang.rank (g : Gang) (cls : Nat) : Nat :=
  if g.handler then 0
  else
    let cls := if g.aged then 3 else cls
    let last := match g.lastIssue with | some t => t + 1 | none => 0
    (4 - cls) * 2 ^ 80 + last * 32 + g.seat

/-- The seats of the phase of this cycle (R16). -/
def State.phaseSeats (s : State) (core : Nat) : List Nat :=
  ((s.core core).seats.filter fun p => p.1 % 4 == s.time % 4).map Prod.snd

/-- The gangs of the phase that are ready or are to trap. A gang that is ready for a bundle whose entry was replaced
misses again instead (R109). -/
def State.candidates (s : State) (core : Nat) : List (Nat × Gang × Verdict) × State :=
  (s.phaseSeats core).foldl (fun (acc : List (Nat × Gang × Verdict) × State) gid =>
    match acc.2.gang gid with
    | none => acc
    | some g =>
      let v := acc.2.verdictOf gid g
      let s := acc.2
      match v with
      | .hold w => (acc.1, if g.wait = some w then s else s.putGang gid { g with wait := some w })
      | _ =>
        let lost := match g.fetch with | .bundle b => b.lost | _ => false
        if lost then (acc.1, s.setFetch gid .idle)
        else
          let g := { g with wait := none }
          (acc.1 ++ [(gid, g, v)], s.putGang gid g)) ([], s)

/-! ## Issue -/

/-- Runs the operations of a bundle in turn (R233). DESIGN CHOICE, log 15. -/
def State.runOps (s : State) (mode : Mode) : List (Slot × Instr) → Host.Outcome State Fault Refusal
  | [] => .next s
  | x :: xs =>
    match exec x.2 { s with cur := s.cur.map fun c => { c with slot := x.1, mode := mode } } with
    | .next s' => State.runOps s' mode xs
    | .fault f => .fault f
    | .refused r => .refused r

/-- RDSR, which samples the core's and the team's counts at issue (R134). -/
def samples (i : Instr) : Bool := match i with | .rdsr _ _ _ => true | _ => false

/-- The operations in the order they take effect: RDSR first, which samples counts that the others may change (R134); the M
slot after the V and C slots, so that every slot sees the handles as they stood (R233); and any other operation of the S slot
last, so that control takes effect at the bundle's end: an EXIT or FREEZE seals the copies of its own bundle (R136, R145).
DESIGN CHOICE, log 15. -/
def effectOrder (ops : List (Slot × Instr)) : List (Slot × Instr) :=
  ops.filter (fun x => samples x.2) ++ ops.filter (fun x => x.1 != .m && x.1 != .s) ++ ops.filter (fun x => x.1 == .m) ++
    ops.filter fun x => x.1 == .s && !samples x.2

/-- The gang as it stands while its bundle issues: past the bundle, with its counts begun anew (R19, R29, R147). -/
def Gang.issued (g : Gang) (next now : Nat) : Gang :=
  { g with pos := next, fetch := .idle, lastIssue := some now, aged := false, folded := 0, breakDone := false,
           yieldTo := [], yieldUntil := none, wait := none }

/-- A gang of the phase has issued: one gang fewer that a YIELD waits for (R147). -/
def State.noteIssue (s : State) (core seat : Nat) : State :=
  { s with gangs := s.gangs.mapAll fun g =>
      if g.core = core ∧ g.yieldTo.contains seat then { g with yieldTo := g.yieldTo.filter fun n => n != seat } else g }

/-- The claims of a bundle's QPOPs and pop mask, in ascending group position, and of two latches of a group that the mask
names the lower first (R69, R95, R219, R230). DEDUCED, log 41. -/
def State.bundleClaims (s : State) (gid : Nat) (g : Gang) (pop : BitVec 4) : State :=
  let asked := match s.cur with | some c => c.claims | none => []
  g.activeGroups.foldl (fun s k =>
    let s := (asked.filter fun c => c.group == k).foldl State.claim s
    (setBits pop).foldl (fun s j => s.popLatch gid k j) s) s

/-- The end of a bundle: its claims are made, the pop mask advances the named latches of every active group, and copies
and tiles that are no longer bound are let go. -/
def State.finishBundle (s : State) (gid : Nat) (g : Gang) (pop : BitVec 4) : State :=
  let s := s.bundleClaims gid g pop
  let s := { s with cur := none }
  let s := ((s.checkBatches gid).sweep g.team).tally g.core 0x02 1
  let branched := match s.gang gid with | some x => decide (g.emptyUntil < x.emptyUntil) | none => false
  let s := if branched then s.tally g.core 0x04 1 else s
  s.noteIssue g.core g.seat

/-- Parks a gang whose bundle lacks registers; nothing of the bundle has issued (R39). `after` is the state that the bundle
would have left: the registers it would have made private are those it needs, its own or the served gang's (R44, R224).
DEDUCED, log 33. -/
def State.parkFor (s : State) (gid : Nat) (g : Gang) (after : State) : State :=
  let owner := if g.handler then ((s.served g.core).map Prod.fst).getD gid else gid
  let inherited := fun (s : State) => match s.gang owner with | some x => x.inherited | none => 0
  let p : Parked := { gid := gid, owner := owner, regs := inherited s &&& ~~~(inherited after) }
  let s := s.updCore g.core fun c => { c with parked := c.parked ++ [p] }
  (s.putGang gid { g with wait := some (.registers (s.lacks p)) }).tally g.core 0x06 1

/-- Issues the bundle of a gang that is ready; answers whether it has issued. DESIGN CHOICE, log 14. -/
def State.issueBundle (s : State) (gid : Nat) (g : Gang) (b : Fetched) (e : Entry) (ready : List Nat) :
    Host.Outcome (State × Bool) Fault Refusal :=
  let single := decide (e.ops.length = 1) && e.pop == 0
  let c := s.curOf gid g b e (if single then .whole else .commit) ready
  let c := if single then { c with snap := none } else c
  let s1 := ({ s with cur := some c, bundles := s.bundles + 1 } : State).putGang gid (g.issued b.next s.time)
  match s1.runOps c.mode (effectOrder e.ops) with
  | .fault f => .fault f
  | .refused r => .refused r
  | .next s2 =>
    match s2.cur.map Cur.verdict with
    | some (.hold (.registers _)) => .next (s.parkFor gid g s2, false)
    | _ => .next (s2.finishBundle gid g e.pop, true)

/-- Issues a gang: its bundle, or the trap it is to take. DEDUCED, log 26. -/
def State.issueGang (s : State) (gid : Nat) (g : Gang) (v : Verdict) (ready : List Nat) :
    Host.Outcome (State × Bool) Fault Refusal :=
  match v with
  | .hold _ => .next (s, false)
  | .trap t =>
    let next := match g.fetch with
      | .bundle b => b.next
      | .trap _ next => next
      | _ => g.pos
    .next (s.takeTrap gid t g.pos next, true)
  | .go =>
    match g.fetch with
    | .bundle b =>
      match b.entry with
      | .usable e => s.issueBundle gid g b e ready
      | .refused _ _ => .next (s, false)
    | _ => .next (s, false)

/-- Tries candidates in order until one has issued. DEDUCED, log 26. -/
def State.tryIssue (s : State) (all : List (Nat × Gang × Verdict)) :
    List (Nat × Gang × Verdict) → Host.Outcome State Fault Refusal
  | [] => .next s
  | (gid, g, v) :: rest =>
    let ready := (all.filter fun x => x.1 != gid && decide (s.gangClass g ≤ s.gangClass x.2.1)).map fun x => x.2.1.seat
    match s.issueGang gid g v ready with
    | .fault f => .fault f
    | .refused r => .refused r
    | .next (s', true) => .next s'
    | .next (s', false) => State.tryIssue s' all rest

/-- The issue of one core in this cycle: at most one bundle (R18). -/
def State.issueCore (s : State) (core : Nat) : Host.Outcome State Fault Refusal :=
  let (cands, s) := s.candidates core
  let s := if cands.isEmpty then s else s.updCore core fun c => { c with readyAt := some s.time }
  s.tryIssue cands (sortBy (fun x => x.2.1.rank (s.gangClass x.2.1)) cands)

/-! ## The end of a cycle -/

/-- The counters that count cycles (R395). DEDUCED, log 107. -/
def State.tallyCycle (s : State) (n : Nat) (c : Core) : State :=
  if c.dbg.pmsel.isEmpty then s
  else
    let gangs := s.gangs.vals.filter fun g => g.core == n && g.seated
    let s := s.tally n 0x01 1
    let s := if c.readyAt = some s.time then s else s.tally n 0x05 1
    let s := if c.matRun.isSome then s.tally n 0x07 1 else s
    s.tally n 0x0E (gangs.countP fun g => decide (0 < g.heldPushes))

/-- The end of a core's cycle: counter values the host wrote in it stand (R395), and idle time is counted from the end
of the last cycle with work (R389). -/
def Core.endCycle (c : Core) (now : Nat) : Core :=
  let d := c.dbg
  let d := if d.pmwritten.isEmpty then d
    else { d with pmcnt := d.pmwritten.foldl (fun t p => t.put p.1 p.2) d.pmcnt, pmwritten := [] }
  { c with dbg := d, idleFrom := if c.busy then now + 1 else c.idleFrom }

/-- The next cycle begins. -/
def State.nextCycle (s : State) : State :=
  let s := s.cores.foldl (fun s p => s.tallyCycle p.1 p.2) s
  let s := { s with cores := s.cores.mapAll fun c => c.endCycle s.time }
  { s with time := s.time + 1, phase := 0 }

/-- The first core from a number on that has a gang. -/
def State.nextCore (s : State) : Option Nat :=
  (s.cores.find? fun p => decide (s.phase ≤ p.1) && !p.2.seats.isEmpty).map Prod.fst

end Sys2Proof.Machine
end

