-- ==== Sys2Proof/Machine/Poll.lean ====
section
/-! DEFINITION. What the machine does of itself between the bundles, without a time of its own: the first event whose
condition holds (R34, R145, R262, R297 to R303, R316 to R324, R332, R338, R342, R376, R384, R387, R389, R390). -/

namespace Sys2Proof

/-- The first record that meets a test, as an event. -/
def Tbl.event {α : Type} (t : Tbl α) (p : Nat → α → Bool) (e : Nat → Machine.Event) : Option Machine.Event :=
  (t.find? fun x => p x.1 x.2).map fun x => e x.1

end Sys2Proof

namespace Sys2Proof.Machine


/-- Reset, boot and leadership (R384, R387). -/
def State.pollBoot (s : State) : Option Event :=
  if s.bootStage = 1 ∧ s.bootFail = 0 then some .packageReset
  else if s.bootStage = 2 ∧ s.bootFail = 0 ∧ s.queenExpiry ≤ s.time then some (.queenClaim 0)
  else if 4 ≤ s.bootStage ∧ s.bootStage ≤ 6 ∧ s.bootFail = 0 then some .bootStep
  else if s.leading && decide (s.queenExpiry ≤ s.time) then some .queenExpiry
  else none

/-- A gang whose release or acquire can go on, or whose BARSYN's wait is over (R196, R214, R274). -/
def State.syncDue (s : State) (gid : Nat) (g : Gang) : Bool :=
  (g.sync.isSome && s.syncReady gid) || ((g.seated || g.park == .ended) && s.syncBarOver g)

/-- FREEZE can go on (R34). -/
def State.freezeDue (s : State) (gid : Nat) (g : Gang) : Bool :=
  (g.park == .freezing && (!(s.freezePublishes g).isEmpty || s.freezeQuiet gid g)) ||
    (g.park == .frozen && decide (g.wake ≤ s.time))

/-- The gang that fetch serves next at the end of the cycle (R102). DEDUCED, log 110. -/
def State.pollFetch (s : State) : Option Event := s.gangs.event (fun _ g => g.fetchDue) .streamFetch

/-- Copies, arrivals, fences, and gangs that end, freeze or are to trap. -/
def State.pollGangs (s : State) : Option Event :=
  s.copies.event s.copyCanStart .copyCompletion
  <|> s.gangs.findSome? (fun p => p.2.groups.event (fun _ x => s.retireDue p.1 p.2 x) (.batchRetirement p.1))
  <|> s.arrivals.event (fun _ a => s.arrivalReady a) .barrierArrival
  <|> s.gangs.event s.syncDue .releaseWaitEnd
  <|> s.gangs.event (fun _ g => g.pageDue) .page
  <|> s.gangs.event (fun i g => g.mayEnd || (g.park == .killed && s.killSettled i g)) .gangEnd
  <|> s.gangs.event s.freezeDue .freezeSnapshot
  <|> s.gangs.event (fun _ g => g.starved s.time) .starvationBound

/-- A refill of a core that can go on: its translation is there, or a place for it (R108, R109). -/
def State.refillDue (s : State) (core : Nat) (c : Core) : Option Event :=
  c.refills.event (fun id r =>
      r.running && ((r.due.isNone && !s.refillWalks core id) || (r.stalled && (s.makePlace core r.handler r.launch).isSome)))
    (.refillInstall core)

/-- A monitor run that was parked for a register has it, and goes on with the WRITE whose value waits in INW (R224, R396). -/
def State.monitorDue (s : State) (c : Core) : Bool :=
  s.debugOpen && !s.halted && c.dbg.inFull &&
  match c.monitor, c.run with
  | some m, some r => m.waits && m.pending.isSome && r.served.isSome && !(c.parked.any fun p => p.gid == r.gid)
  | _, _ => false

/-- Refills, traps and a monitor's WRITE. -/
def State.pollCores (s : State) : Option Event :=
  s.cores.findSome? (fun p => s.refillDue p.1 p.2)
  <|> s.cores.event (fun _ c => s.monitorDue c) .write
  <|> s.cores.event (fun n _ => (s.trapWork n).isSome) .handlerRunStart

/-- The firing a die makes now, named by what made the queue eligible (R299, R300). -/
def State.firingEvent (s : State) (die : Nat) : Option Event :=
  (s.nextFiring die).map fun q =>
    let x := s.queue q
    if (match x.cfg with | some c => x.full c | none => false) then .firing die else .ageTrigger q

/-- The Hive: bursts and held pushes. -/
def State.pollHive (s : State) : Option Event :=
  if s.sleeping then none
  else
    s.queues.event (fun _ x => s.burstDue x) .refillBurstStart
    <|> s.queues.event (fun _ x => !x.held.isEmpty && !x.refuses) .heldPushAccept

/-- Firings, decided on every record that has arrived in the cycle, at its end too (R300, R310). DEDUCED, log 70. -/
def State.pollFirings (s : State) : Option Event := if s.sleeping then none else dies.findSome? s.firingEvent

/-- A team that waits for a save can go on to form it (R338). -/
def State.saveDue (s : State) (tid : Nat) (t : Team) : Bool :=
  t.phase == .stopping && match t.saved with
    | some v => !v.formed && s.saveSettled tid t v && !(s.faults.vals.any fun f => f.clients.contains (.save tid))
    | none => false

/-- Launches and teams. -/
def State.pollTeams (s : State) : Option Event :=
  if s.sleeping then none
  else
    s.launches.event (fun _ l => l.stage == 0) .prologueDispatch
    <|> s.teams.event (fun _ t => s.teamMayComplete t) .teamCompletion
    <|> s.teams.event s.saveDue .saveComplete
    <|> dies.findSome? (fun d => (s.nextPlacement d).map fun p => if p.2 then Event.restore p.1 else .teamPlacement d p.1)
    <|> dies.findSome? (fun d => (s.nextVictim d).map fun v => Event.teamPlacement d v.1)
    <|> s.teams.event (fun i t => s.loadDue i t || s.restoreReady i t) .restore

/-- Walks that wait to start (R262). -/
def State.pollWalks (s : State) : Option Event :=
  (s.walks.find? fun p => p.2.due.isNone && decide (s.walksRunning (dieOf p.2.core) < Config.walksPerDie)).map fun p =>
    .tlbWalkDone (dieOf p.2.core) p.1

/-- Cores and dies that go idle, at the end of the cycle: a placement decided in it wins (R389, R390). -/
def State.pollIdle (s : State) : Option Event :=
  (if s.sleeping || decide (s.time < 10000) then none
   else ((List.range Config.coreCount).find? s.mayGate).map Event.a1Entry)
  <|> (if s.sleeping || decide (s.time < 1000000) then none else (dies.find? fun d => s.mayPark d && (s.dirtyOn d || !s.writingFrom d)).map Event.a2Entry)

/-- HALT's withdrawals, and power states (R389, R390, R393). -/
def State.pollPower (s : State) : Option Event :=
  s.parkedDies.event (fun d _ => s.wantsDie d) .a2Exit
  <|> (if s.halted && s.cores.keys.any s.portHeld then some .halt else none)
  <|> (if s.maySleep && (s.dirtyAnywhere || s.writebacks.isEmpty) then some .d3hotRequest else none)

/-- The next event at the end of a cycle: firings, fetches, and what goes idle (R102, R310, R390). -/
def State.pollEnd (s : State) : Option Event := s.pollFirings <|> s.pollFetch <|> s.pollIdle

/-- The next event without a time of its own. DESIGN CHOICE, log 11. -/
def State.poll (s : State) : Option Event :=
  s.pollBoot <|> s.pollGangs <|> s.pollWalks <|> s.pollCores <|> s.pollHive <|> s.nextCommand <|> s.pollFirings <|>
  s.pollTeams <|> s.pollPower

/-- A group of the gang has GUARD to raise (R73). -/
def Gang.guardDue (g : Gang) (groups : List Nat) : Bool :=
  groups.any fun k => match g.group k with | some x => x.guardPend | none => false

/-- A gang whose next reference is the STOP escape, and whose groups can end, or have GUARD to raise: the trap comes
before the wait for an unretired batch, as at EXIT and FREEZE (R73, R101). DEDUCED, log 27. -/
def State.nextStop (s : State) : Option (Nat × Gang) :=
  if s.halted then none
  else s.gangs.find? fun p =>
    p.2.seated && p.2.fetch == .stop && p.2.park == .none && p.2.active != 0 &&
      (p.2.guardDue p.2.liveGroups || !p.2.sealsFull [] p.2.liveGroups)

end Sys2Proof.Machine
end

