-- ==== Sys2Proof/Machine/Step.lean ====
section
/-! DEFINITION. The step of the package: the event that is due, else what the machine does of itself, else the issue of
the next core of this cycle, else the next cycle (R16 to R18, R71). -/

namespace Sys2Proof.Machine

/-- Takes the first agenda event out when its key is not above `k`. -/
def State.popAgenda (s : State) (k : Nat) : Option (Event × State) :=
  match s.agenda with
  | [] => none
  | (t, e) :: rest => if t ≤ k then some (e, { s with agenda := rest }) else none

/-- The host's write of DOORBELL, and its write of RESYNC, under either of their events. -/
def Event.isDoorbell : Event → Bool
  | .doorbell _ => true
  | .registerWrite offset _ => offset == 0
  | _ => false
def Event.isResync : Event → Bool
  | .resync _ => true
  | .registerWrite offset _ => offset == 8
  | _ => false

/-- The outside event that comes next: the first that is due, but a RESYNC before a DOORBELL of its cycle (R377). -/
def State.nextInput (s : State) : Option (Nat × Event) :=
  match s.inputs.find? fun p => decide (p.1 ≤ s.time) with
  | none => none
  | some x => if x.2.isDoorbell then (s.inputs.find? fun p => p.1 == x.1 && p.2.isResync).or (some x) else some x

/-- Takes the next outside event that is due out. -/
def State.popInput (s : State) : Option (Event × State) :=
  match s.nextInput with
  | none => none
  | some x => some (x.2, { s with inputs := eraseFirst (fun p => p == x) s.inputs })

/-- What an event finds: an install looks at which gangs are ready (R109). -/
def State.readyFor (s : State) (e : Event) : State :=
  match e with
  | .refillInstall core _ => s.judgeCore core
  | _ => s

/-- Runs one event. -/
def State.happen (s : State) (e : Event) : Host.Outcome State Fault Refusal := runEvent e (s.readyFor e)

/-- The state in which a gang's STOP is executed: the next position is the one after the escape's two bytes (R101), where
action 1 continues after a GUARD raised here (R326, R345). DEDUCED, log 27. -/
def State.atStop (s : State) (gid : Nat) (g : Gang) : State :=
  { s with cur := some { gid := gid, slot := .s, pos := g.pos, next := posAfter g.pos 2, imms := [], mode := .whole, verdict := .go,
                         snap := none, bundle := s.bundles, ops := [], ready := [], claims := [] } }

/-- The issue of a core in this cycle. Where a gang of the pair waits for registers or a refill for a place, it is noted
first which gangs are ready (R109), and a copy deadlock is declared in place of an issue (R40). -/
def State.issuePhase (s : State) (core : Nat) : Host.Outcome State Fault Refusal :=
  let near := [core, partnerOf core]
  let parked := near.any fun k => !(s.core k).parked.isEmpty
  let s := { s with phase := core + 1 }
  let s := if parked then near.foldl State.judgeCore s
    else if (s.core core).refills.vals.any (fun r => r.stalled) then s.judgeCore core else s
  if parked && s.copyDeadlocked core && (s.latestTeam core).isSome then s.happen (.copyDeadlock core)
  else s.issueCore core

/-- Every core has had its turn in this cycle, and what the last one's issue brought about has happened. -/
def cycleOver : Nat := Config.coreCount + 1

/-- The rest of the step when nothing is due before the issues of the cycle. -/
def State.advance (s : State) : Host.Outcome State Fault Refusal :=
  if s.phase < cycleOver then
    match s.poll with
    | some e => s.happen e
    | none =>
      match s.nextStop with
      | some (gid, g) => exec .stop (s.atStop gid g)
      | none =>
        match s.nextCore with
        | some core => s.issuePhase core
        | none => .next { s with phase := cycleOver }
  else
    match s.popAgenda (2 * s.time + 1) with
    | some (e, s) => s.happen e
    | none =>
      match s.pollEnd with
      | some e => s.happen e
      | none => .next s.nextCycle

/-- One step of the package. DESIGN CHOICE, log 11. -/
def step (s : State) : Host.Outcome State Fault Refusal :=
  match s.popAgenda (2 * s.time) with
  | some (e, s) => s.happen e
  | none =>
    match s.popInput with
    | some (e, s) => s.happen e
    | none => s.advance

/-! ## Placing one instruction -/

/-- The launch under which a placed instruction runs. DESIGN CHOICE, log 12. -/
def placedLaunch : Launch :=
  { launchOf 1 0 [] none [] with
    nx := 1, ny := 1, nz := 1, groups := 1, width := 64, decodeQuota := 8, quotaA := 8, quotaB := 8, banks := 2, pad := 256,
    count := 1, stage := 3, cursor := 1, completion := 0xFFFFFFFF, dict := 0x10000, formats := List.replicate 8 0 }

/-- The context of a placed instruction. DESIGN CHOICE, log 12. -/
def placedContext : Context :=
  { partition := 0, root := 0, trapArea := 0, saveArea := 0, templateBase := 0, templateSize := 0, privileged := false,
    spans := [], saves := [], checked := [] }

/-- The team of a placed instruction. DESIGN CHOICE, log 12. -/
def placedTeam (gid : Nat) : Team :=
  { Team.make 1 0 0 0 0 0 false false with
    phase := .placed, cores := [0], gangs := [gid], freeA := 8, freeB := 8
    bars := (List.range 8).map fun b => (b, Barrier.atDispatch 1) }

/-- The stream bytes and the decode entry of a word: a control word is entry 0 of the dictionary, with its reference and
immediates of zeros in the stream; sixteen bits or fewer are the stream itself. DESIGN CHOICE, log 12. -/
def placedStream (nbits w : Nat) : List Byte :=
  (if nbits ≤ 16 then bytesOfNat 2 w else []) ++ List.replicate Config.lineBytes 0

def placedEntry (handler : Bool) (w : Nat) : DecodeEntry :=
  let word := BitVec.ofNat 320 w
  { launch := 1, dict := if handler then 0 else 0x10000, index := 0,
    entry := match decodeEntry handler true word with
      | .ok e => .usable e
      | .error r => .refused r.code (Header.of (word.extractLsb' 288 32)).widths }

/-- A word that only a handler image may hold. -/
def handlerOnly (w : Nat) : Bool :=
  match decodeEntry false true (BitVec.ofNat 320 w), decodeEntry true true (BitVec.ofNat 320 w) with
  | .error _, .ok _ => true
  | _, _ => false

/-- A word is placed as the next bundle of the only gang of the package: a team of one group of 64 lanes on core 0, in
seat 0, or a handler run in seat 16 where only a handler image may hold it. This stands for a launch by the host.
DESIGN CHOICE, log 12. -/
def State.withFetchWord (s : State) (nbits w : Nat) : State :=
  let handler := decide (16 < nbits) && handlerOnly w
  let gid := s.nextId
  let tid := s.nextId + 1
  let seat := if handler then Config.handlerSeat else 0
  let g := Gang.atDispatch 1 1 0 seat 64 0 0 0 [(0, Group.atDispatch 0 0)]
  let g := { g with team := if handler then 0 else tid, handler := handler, banks := if handler then [] else [0, 1] }
  let line : StreamLine := { context := 1, line := 0, bytes := (placedStream nbits w).take Config.lineBytes }
  let e := placedEntry handler w
  let c := { Core.reset with
    seats := [(seat, gid)], streamCache := [line], quotas := [(1, 8)], bankOwner := if handler then [] else [(0, gid), (1, gid)]
    decode := if handler then [] else [e], handlerTable := if handler then [e] else []
    run := if handler then some { gid := gid, served := none, moved := false } else none }
  let l := if handler then { placedLaunch with handler := some (0, 0, 0) } else placedLaunch
  ({ s with
    time := 0, phase := 0, agenda := [], inputs := [], cur := none, nextId := s.nextId + 2, bootStage := 7, leading := false
    halted := false, sleeping := false, d3hotHeld := false, awakeAt := 0, debugLvl := 0, gangs := [(gid, g)], cores := [(0, c)]
    teams := if handler then [] else [(tid, placedTeam gid)], launches := [(1, l)], contexts := [(1, placedContext)]
    copies := [], arrivals := [], walks := [], queues := [], claims := [], commands := [], parkedDies := []
    : State }).fetchNext gid

end Sys2Proof.Machine
end

