-- ==== Sys2Proof/Safety.lean ====
section
/-! DEFINITION. What counts as a safe run, the invariant that runs keep, and the conditions under which a slot
operation completes, in the terms the statements use. -/

namespace Sys2Proof.Machine

/-- A step of the machine ends in a fault or a refusal. -/
def State.stops (s : State) : Prop := ∀ t, step s ≠ .next t

/-- A run of `n` steps that never stops, and the state it ends in. -/
inductive Runs : Nat → State → State → Prop where
  | done (s : State) : Runs 0 s s
  | more {n : Nat} {s t u : State} (h : step s = .next t) (r : Runs n t u) : Runs (n + 1) s u

/-- The memory, the operand stores and the accumulator banks are in canonical form: addresses rising, no zero listed. -/
def State.canonical (s : State) : Prop := Memory.wf s.mem = true ∧ s.tiles.wf = true ∧ s.acc.wf = true

/-- A bundle is issuing whose operations read the gang `g`: nothing has yet held or trapped it, and an operation
that runs now has its effect (R17, R20). -/
structure State.Issues (s : State) (c : Cur) (g : Gang) : Prop where
  cur : s.cur = some c
  mode : c.mode ≠ .probe
  verdict : c.verdict = .go
  gang : s.issuing c = some g

/-- No source that the groups given read is empty (R25, R26). -/
def Gang.Full (g : Gang) (groups : List Nat) (srcs : List Src) : Prop := ∀ x ∈ srcs, x.empties g groups = []

/-- An S or M operation's guard is settled and its sources are full (R17, R25). -/
def Gang.ReadyS (g : Gang) (gd : Guard) (srcs : List Src) : Prop :=
  guardPending g gd = false ∧ g.Full (g.effConds gd) srcs

/-- A lane operation's sources are full (R17, R25). -/
def Gang.ReadyV (g : Gang) (gd : Guard) (srcs : List Src) : Prop := g.Full (g.groupsOf (g.effLanes gd)) srcs

/-- A gang-wide operation's guard is settled and met by every active group, and its sources are full (R136). -/
def Gang.ReadyAll (g : Gang) (gd : Guard) (srcs : List Src) : Prop :=
  guardPending g gd = false ∧ (∀ k ∈ g.activeGroups, k ∈ g.effConds gd) ∧ g.Full g.activeGroups srcs

/-- Each of the vector registers given that the gang still reads from its template can have a register of its
own: the reserve and the core's pool hold enough (R39, R44). -/
def State.CanOwn (s : State) (gid : Nat) (regs : List Nat) : Prop :=
  ∀ g, s.gang gid = some g →
    regs.countP (fun r => g.inherited.getLsbD r) ≤ g.reserve + (s.core g.core).pool

end Sys2Proof.Machine
end

