-- ==== Sys2Proof/WellFormed.lean ====
section
/-! DEFINITION. Which instructions are well formed: each operand stands in a role its field takes (R98, R100), and, for
a place in an entry, the slot, the image and the immediates allow it (R110). -/

namespace Sys2Proof

/-- Every field of an operation meets its role. -/
def Shape.fieldsOk (s : Shape) : Bool := s.d.ok s.cls && s.a.ok s.cls && s.b.ok s.cls && s.c.ok s.cls

/-- An instruction whose operands meet the roles of their fields; an event has no fields. -/
def Instr.wf (i : Instr) : Bool :=
  match i.shape with
  | some sh => sh.fieldsOk
  | none => true

/-- A slot operation that may stand in a slot of an entry with `nimm` immediates, of a handler image or not (R110). -/
def Instr.wfIn (i : Instr) (slot : Slot) (handler : Bool) (nimm : Nat) : Bool :=
  i.wf && match i.shape with
    | some sh => sh.cls == slot.cls && (sh.reasons slot handler nimm).isEmpty
    | none => false

end Sys2Proof
end

