-- ==== Sys2Proof/Certificates/Slice0/Obligations.lean ====
section
/-! DEFINITION. The statements for the provers. The helpers of Sys2Proof.Claims say, in the spec's terms, what a
landing, a long write or an access of an operation is; each statement's docstring names the rules it formalises. -/

namespace Sys2Proof.Claims

open Sys2Proof.Machine

/-! ## Results of the S slot -/

/-- A scalar lands in every effective group `n` beats after issue; with no effective group nothing happens
(R125, R126). -/
def landS (s : State) (c : Cur) (g : Gang) (gd : Guard) (d : SReg) (n : Nat) (f : Nat → Nat) : State :=
  if g.effConds gd = [] then s
  else s.land c n (.s d.val) ((g.effConds gd).map fun k => (k, f k)) [] true

/-- A condition lands in every effective group one beat after issue (R132). -/
def landC (s : State) (c : Cur) (g : Gang) (gd : Guard) (d : Flag) (f : Nat → Bool) : State :=
  if g.effConds gd = [] then s
  else s.land c 1 (.c d.val) ((g.effConds gd).map fun k => (k, (f k).toNat)) [] false

/-- An unsigned scalar source. -/
def un (s : State) (c : Cur) (g : Gang) (o : Operand) (k : Nat) : Nat := (ssrc s c g o k).toNat

/-- A signed scalar source. -/
def si (s : State) (c : Cur) (g : Gang) (o : Operand) (k : Nat) : Int := (ssrc s c g o k).toInt

/-- An integer as a word of `w` bits. -/
def wrap (w : Nat) (x : Int) : Nat := (x % 2 ^ w).toNat

/-- The number of leading zero bits of a word of `w` bits. -/
def zerosAbove (w x : Nat) : Nat := if x = 0 then w else w - 1 - Nat.log2 x

/-- The number of set bits of a word of `w` bits. -/
def ones (w x : Nat) : Nat := ((List.range w).filter x.testBit).length

end Sys2Proof.Claims

open Sys2Proof Sys2Proof.Machine Sys2Proof.Claims

/-! ## The S slot -/

/-- R128: the two-source integer operations of the S slot. -/
def Obligations.ScalarIntegerResults : Prop :=
  ∀ (s : State) (c : Cur) (g : Gang) (gd : Guard) (d : SReg) (a b : Operand),
    s.Issues c g → g.ReadyS gd [.sca a, .sca b] →
    let x := un s c g a
    let y := un s c g b
    let i := si s c g a
    let j := si s c g b
    let land := landS s c g gd d
    exec (.add gd d a b) s = .next (land 1 fun k => (x k + y k) % 2 ^ 64) ∧
    exec (.sub gd d a b) s = .next (land 1 fun k => wrap 64 (x k - y k)) ∧
    exec (.mul gd d a b) s = .next (land 2 fun k => x k * y k % 2 ^ 64) ∧
    exec (.mulh gd d a b) s = .next (land 2 fun k => wrap 64 (i k * j k / 2 ^ 64)) ∧
    exec (.mulhw gd d a b) s = .next (land 2 fun k => x k * y k / 2 ^ 64) ∧
    exec (.and gd d a b) s = .next (land 1 fun k => x k &&& y k) ∧
    exec (.or gd d a b) s = .next (land 1 fun k => x k ||| y k) ∧
    exec (.xor gd d a b) s = .next (land 1 fun k => x k ^^^ y k) ∧
    exec (.andn gd d a b) s = .next (land 1 fun k => x k &&& (2 ^ 64 - 1 - y k)) ∧
    exec (.shl gd d a b) s = .next (land 1 fun k => x k * 2 ^ (y k % 64) % 2 ^ 64) ∧
    exec (.shr gd d a b) s = .next (land 1 fun k => x k / 2 ^ (y k % 64)) ∧
    exec (.sar gd d a b) s = .next (land 1 fun k => wrap 64 (i k / 2 ^ (y k % 64))) ∧
    exec (.rol gd d a b) s = .next (land 1 fun k =>
      x k * 2 ^ (y k % 64) % 2 ^ 64 + x k / 2 ^ (64 - y k % 64)) ∧
    exec (.min gd d a b) s = .next (land 1 fun k => if i k < j k then x k else y k) ∧
    exec (.max gd d a b) s = .next (land 1 fun k => if j k < i k then x k else y k) ∧
    exec (.minw gd d a b) s = .next (land 1 fun k => if x k < y k then x k else y k) ∧
    exec (.maxw gd d a b) s = .next (land 1 fun k => if y k < x k then x k else y k) ∧
    exec (.clz gd d a) s = .next (land 1 fun k => zerosAbove 64 (x k)) ∧
    exec (.cnt gd d a) s = .next (land 1 fun k => ones 64 (x k))

/-- R131: the moves and immediates of the S slot. -/
def Obligations.ScalarMoves : Prop :=
  ∀ (s : State) (c : Cur) (g : Gang) (gd : Guard) (d : SReg) (a b cn : Operand) (n : ImmSlot),
    s.Issues c g →
    let x := un s c g a
    let y := un s c g b
    (g.ReadyS gd [.sca a, .sca b, .cnd cn] →
      exec (.sel gd d a b cn) s = .next (landS s c g gd d 1 fun k => if condSrc g cn k then x k else y k)) ∧
    (g.ReadyS gd [.sca a] →
      exec (.mov gd d a) s = .next (landS s c g gd d 1 x) ∧
      exec (.lih gd d a n) s = .next (landS s c g gd d 1 fun k =>
        (c.imm n.val).toNat % 2 ^ 32 * 2 ^ 32 + x k % 2 ^ 32)) ∧
    (g.ReadyS gd [] → exec (.li gd d n) s = .next (landS s c g gd d 1 fun _ => (c.imm n.val).toNat))

/-- R132 and R133: compares, condition logic and the tests of a lane predicate over a group. -/
def Obligations.ScalarConditions : Prop :=
  ∀ (s : State) (c : Cur) (g : Gang) (gd : Guard) (d : Flag) (a b : Operand), s.Issues c g →
    let x := un s c g a
    let y := un s c g b
    let i := si s c g a
    let j := si s c g b
    let land := landC s c g gd d
    (g.ReadyS gd [.sca a, .sca b] →
      exec (.ceq gd d a b) s = .next (land fun k => decide (x k = y k)) ∧
      exec (.cne gd d a b) s = .next (land fun k => decide (x k ≠ y k)) ∧
      exec (.clt gd d a b) s = .next (land fun k => decide (i k < j k)) ∧
      exec (.cle gd d a b) s = .next (land fun k => decide (i k ≤ j k)) ∧
      exec (.cltw gd d a b) s = .next (land fun k => decide (x k < y k)) ∧
      exec (.clew gd d a b) s = .next (land fun k => decide (x k ≤ y k))) ∧
    (g.ReadyS gd [.cnd a, .cnd b] →
      exec (.cand gd d a b) s = .next (land fun k => condSrc g a k && condSrc g b k) ∧
      exec (.cor gd d a b) s = .next (land fun k => condSrc g a k || condSrc g b k) ∧
      exec (.cxor gd d a b) s = .next (land fun k => condSrc g a k != condSrc g b k)) ∧
    (g.ReadyS gd [] →
      exec (.cany gd d a) s = .next (land fun k => decide (∃ p ∈ g.lanes k, predSrc g a p = true)) ∧
      exec (.cevery gd d a) s = .next (land fun k => decide (∀ p ∈ g.lanes k, predSrc g a p = true))) ∧
    (∀ e p, predSrc g ⟨e, .flag 0⟩ p = true) ∧ ∀ e k, condSrc g ⟨e, .flag 0⟩ k = true

namespace Sys2Proof.Claims

open Sys2Proof.Machine

/-- A branch target: the position of the branching bundle and a signed offset (R137). -/
def target (c : Cur) (n : ImmSlot) : Nat := wrap 64 (c.pos + (c.imm n.val).toInt)

/-- The gang goes on at a position after one empty beat (R30, R138). -/
def goTo (s : State) (p : Nat) (l : Gang) : Gang := { l with pos := p, emptyUntil := 4 * (s.time / 4 + 2) }

/-- A group whose open batch holds a copy has room to seal it (R145, R206). -/
def sealRoom (ops : List (Slot × Instr)) (g : Gang) (groups : List Nat) : Prop :=
  let has := fun (p : Shape → Bool) (x : Slot × Instr) => x.2.shape.elim false p
  ∀ k ∈ groups, ∀ x, g.group k = some x →
    (x.openBatch = [] ∧ ops.any (has isCopyOp) = false) ∨ x.sealed.length + ops.countP (has isSealOp) < 16

/-- No group has a guard touch pending (R73). -/
def noGuard (g : Gang) (groups : List Nat) : Prop := ∀ k ∈ groups, ∀ x, g.group k = some x → x.guardPend = false

/-- A group's open batch is sealed where it holds a copy, under the next number (R145, R206). -/
def batchSealed (x y : Group) : Prop :=
  if x.openBatch = [] then y = x
  else y.openBatch = [] ∧ y.batch = x.batch + 1 ∧
    y.sealed.map (fun b => (b.number, b.copies)) =
      x.sealed.map (fun b => (b.number, b.copies)) ++ [((x.batch + 1).toNat, x.openBatch)]

/-- The special registers as software reads them (R49 to R56, R134). -/
def special (s : State) (g : Gang) (k n : Nat) : Nat :=
  match g.group k with
  | none => 0
  | some x =>
    match n with
    | 0 => s.time % 2 ^ 64
    | 1 => g.horizon % 2 ^ 64
    | 2 => x.fpflags.toNat
    | 3 => x.fpmode.toNat
    | 4 => x.visible.toNat + 2 * x.collide.toNat + 4 * x.guardPend.toNat + 256 * x.trapcode.toNat
    | 5 => x.batch.toNat
    | 6 => ((s.team g.team).elim 0 Team.qbatch) % 2 ^ 64
    | 7 => g.dictmiss % 2 ^ 32
    | 8 => (s.core g.core).pool % 2 ^ 64
    | 9 => ((s.launch g.launch).elim 0 Launch.lease) % 2 ^ 64
    | 10 => (s.team g.team).elim 0 fun t => t.freeA % 256 + 256 * (t.freeB % 256)
    | 11 => g.core % 2 ^ 64
    | _ => 0

end Sys2Proof.Claims

/-- R129, R130: a division marks its destination empty and is written 48 cycles after the divider accepts it.
The model's own readings: log 99. -/
def Obligations.Division : Prop :=
  ∀ (s : State) (c : Cur) (g l : Gang) (gd : Guard) (d : SReg) (a b : Operand),
    s.Issues c g → g.ReadyS gd [.sca a, .sca b] → (s.core g.core).divWaiting s.time < 4 →
    s.gang c.gid = some l → g.effConds gd ≠ [] →
    let x := un s c g a
    let y := un s c g b
    let i := si s c g a
    let j := si s c g b
    let accepts := (s.core g.core).divAccept s.time
    let Divides := fun (op : Instr) (q : Nat → Nat) => ∃ t id m, exec op s = .next t ∧
      t.gang c.gid = some m ∧
      (∀ k ∈ g.effConds gd, ∀ z, l.group k = some z →
        ∃ z', m.group k = some z' ∧ z'.sAwait.find d.val = some c.seq ∧ z'.s = z.s) ∧
      m.longs.find id = some { seq := c.seq, dest := .s d.val, vals := (g.effConds gd).map fun k => (k, q k),
                               want := 1, due := 0, groups := groupMask (g.effConds gd), acquire := false } ∧
      (t.core g.core).divider = (s.core g.core).divider ++ [{ gid := c.gid, long := id, due := accepts + 48, accept := accepts }] ∧
      (2 * (accepts + 48) + 1, .dividerResult g.core) ∈ t.agenda
    Divides (.div gd d a b) (fun k => if y k = 0 then 2 ^ 64 - 1 else wrap 64 ((i k).tdiv (j k))) ∧
    Divides (.rem gd d a b) (fun k => if y k = 0 then x k else wrap 64 ((i k).tmod (j k))) ∧
    Divides (.divw gd d a b) (fun k => if y k = 0 then 2 ^ 64 - 1 else x k / y k) ∧
    Divides (.remw gd d a b) (fun k => if y k = 0 then x k else x k % y k)

/-- R134, R135, R50: RDSR lands the special register's value as it stands at issue; WRSR's write lands one beat
later. The model's own reading: log 122. -/
def Obligations.SpecialRegisters : Prop :=
  ∀ (s : State) (c : Cur) (g : Gang) (gd : Guard) (d : SReg) (n : Special) (a : Operand), s.Issues c g →
    (g.ReadyS gd [] → exec (.rdsr gd d n) s = .next (landS s c g gd d 1 fun k => special s g k n.val)) ∧
    (g.ReadyS gd [.sca a] → exec (.wrsr gd n a) s = .next (if g.effConds gd = [] then s else
      s.land c 1 (.special n.val) ((g.effConds gd).map fun k => (k, un s c g a k)) [] false))

/-- R137 to R141, R144: branches, calls, returns, loops and indexed branches that every active group takes or does
not take. The model's own readings: log 29, 92. -/
def Obligations.Branches : Prop :=
  ∀ (s : State) (c : Cur) (g : Gang) (gd : Guard) (inv : Bool) (d : SReg) (a : Operand) (n : ImmSlot), s.Issues c g →
    let go := fun (p : Nat) => s.updGang c.gid (goTo s p)
    let x := un s c g a
    (g.ReadyAll gd [] →
      exec (.br gd n) s = .next (go (target c n)) ∧
      (g.returns.length < 8 → exec (.call gd n) s =
        .next (s.updGang c.gid fun l => { goTo s (target c n) l with returns := c.next :: l.returns })) ∧
      (∀ p rest, g.returns = p :: rest → exec (.ret gd) s =
        .next (s.updGang c.gid fun l => { goTo s p l with returns := rest }))) ∧
    (g.ReadyAll gd [.cnd a] →
      ((∀ k ∈ g.activeGroups, condSrc g a k ≠ inv) → exec (.brc gd inv a n) s = .next (go (target c n))) ∧
      (g.activeGroups ≠ [] → (∀ k ∈ g.activeGroups, condSrc g a k = inv) → exec (.brc gd inv a n) s = .next s)) ∧
    (g.ReadyAll gd [.sca a] →
      let t := s.land c 1 (.s d.val) (g.activeGroups.map fun k => (k, wrap 64 (x k - 1))) [] true
      ((∀ k ∈ g.activeGroups, x k ≠ 1) →
        exec (.loop gd d a n) s = .next (t.updGang c.gid (goTo s (target c n)))) ∧
      (g.activeGroups ≠ [] → (∀ k ∈ g.activeGroups, x k = 1) → exec (.loop gd d a n) s = .next t) ∧
      (∀ p, g.activeGroups ≠ [] → (∀ k ∈ g.activeGroups, x k = p) → s.streamBase g + p < 2 ^ 48 →
        exec (.brx gd a) s = .next (go p)))

/-- R32, R142, R143: divergence pushes the two entries or branches whole; a JOIN at its tag resumes the entry. -/
def Obligations.DivergenceAndJoin : Prop :=
  ∀ (s : State) (c : Cur) (g : Gang) (gd : Guard) (a : Operand) (nt nj : ImmSlot), s.Issues c g →
    let taken := (g.effConds gd).filter fun k => condSrc g a k
    let others := g.activeGroups.filter fun k => !taken.contains k
    (guardPending g gd = false → g.Full (g.effConds gd) [.cnd a] →
      (taken = [] → exec (.brd gd a nt nj) s = .next s) ∧
      (taken ≠ [] → others = [] → exec (.brd gd a nt nj) s = .next (s.updGang c.gid (goTo s (target c nt)))) ∧
      (taken ≠ [] → others ≠ [] → g.reconv.length ≤ 2 → exec (.brd gd a nt nj) s =
        .next (s.updGang c.gid fun l => { l with
          active := BitVec.ofNat 4 (groupMask others)
          reconv := ⟨BitVec.ofNat 4 (groupMask taken), target c nt, target c nj, false⟩ ::
            ⟨g.active, target c nj, target c nj, true⟩ :: l.reconv }))) ∧
    (g.ReadyAll gd [] →
      (∀ e rest, g.reconv = e :: rest → e.tag = c.pos → e.mask ≠ 0 → ∃ t, exec (.join gd) s = .next t ∧
        ∀ l, s.gang c.gid = some l → ∃ l', t.gang c.gid = some l' ∧ l'.active = e.mask ∧ l'.reconv = rest ∧
          l'.pos = (if e.resolve then c.next else e.pos) ∧
          l'.emptyUntil = (if l'.pos = c.next then l.emptyUntil else 4 * (s.time / 4 + 2))) ∧
      ((∀ e ∈ g.reconv.head?, e.tag ≠ c.pos) → exec (.join gd) s = .next s))

/-- R145, R146: EXIT ends the effective groups; the gang goes on, or ends when no group remains in any mask.
FREEZE parks the gang for its snapshot with the open batches sealed. -/
def Sys2Proof.Claims.ExitAndFreeze : Prop :=
  ∀ (s : State) (c : Cur) (g l : Gang) (gd : Guard), s.Issues c g → s.gang c.gid = some l →
    let ends := BitVec.ofNat 4 (groupMask (g.effConds gd))
    (guardPending g gd = false → noGuard g (g.effConds gd) → sealRoom c.ops g (g.effConds gd) →
      (g.effConds gd = [] → exec (.exit gd) s = .next s) ∧
      (g.effConds gd ≠ [] → ∃ t m, exec (.exit gd) s = .next t ∧ t.gang c.gid = some m ∧
        (∀ k ∈ g.effConds gd, ∀ x, l.group k = some x → ∃ y, m.group k = some y ∧ batchSealed x y) ∧
        (l.active &&& ~~~ends ≠ 0 → m.active = l.active &&& ~~~ends ∧
          m.reconv = l.reconv.map (fun e => { e with mask := e.mask &&& ~~~ends }) ∧ m.park = l.park) ∧
        (l.active &&& ~~~ends = 0 → (∀ e ∈ l.reconv, e.mask &&& ~~~ends = 0) → m.active = 0 ∧ m.park = .ending) ∧
        (∀ e, l.active &&& ~~~ends = 0 → l.reconv.find? (fun e => e.mask &&& ~~~ends != 0) = some e →
          m.active = e.mask &&& ~~~ends ∧ m.pos = e.pos ∧ m.resolving = e.resolve ∧ m.park = l.park))) ∧
    (g.ReadyAll gd [] → (g.prologue ∨ g.teamPrologue) → g.handler = false → noGuard g g.activeGroups →
      sealRoom c.ops g g.activeGroups → ∃ t m, exec (.freeze gd) s = .next t ∧ t.gang c.gid = some m ∧ m.park = .freezing ∧
        ∀ k ∈ l.activeGroups, ∀ x, l.group k = some x → ∃ y, m.group k = some y ∧ batchSealed x y)

/-- R147, R148: YIELD waits for the gangs of its phase that were ready, for 16 cycles at most; SLEEP waits until the
largest of its groups' times. -/
def Sys2Proof.Claims.YieldAndSleep : Prop :=
  ∀ (s : State) (c : Cur) (g : Gang) (gd : Guard) (a : Operand), s.Issues c g →
    (g.ReadyAll gd [] →
      (g.handler = true → exec (.yield gd) s = .next s) ∧
      (g.handler = false → exec (.yield gd) s = .next ((s.updGang c.gid fun l =>
        { l with yieldTo := c.ready, yieldUntil := some (s.time + 16) }).at (s.time + 16) (.yieldExpiry c.gid)))) ∧
    (g.ReadyAll gd [.sca a] → g.activeGroups ≠ [] → ∃ w,
      (∃ k ∈ g.activeGroups, w = min (un s c g a k) (2 ^ 32 - 1)) ∧
      (∀ k ∈ g.activeGroups, min (un s c g a k) (2 ^ 32 - 1) ≤ w) ∧
      exec (.sleep gd a) s = .next ((s.updGang c.gid fun l => { l with wake := s.time + w }).at (s.time + w)
        (.sleepWake c.gid)))

/-- EXIT, FREEZE, YIELD and SLEEP: the claims ExitAndFreeze and YieldAndSleep together.
The model's own readings: log 27, 63. -/
def Obligations.EndingAndWaiting : Prop := Claims.ExitAndFreeze ∧ Claims.YieldAndSleep

namespace Sys2Proof.Claims

open Sys2Proof.Machine

/-- The little-endian field of `n` bytes at an offset. -/
def field (r : List Byte) (off n : Nat) : Nat := natOfBytes ((r.drop off).take n)

/-- The operation traps: the gang is parked by the trap and the bundle has no effect (R327). -/
def Traps (s : State) (c : Cur) (i : Instr) (t : Trap) : Prop :=
  exec i s = .next ((s.takeTrap c.gid t c.pos c.next).setVerdict (.trap t))

/-- The operation waits: nothing but the verdict changes (R17). -/
def Waits (s : State) (i : Instr) (w : Wait) : Prop := exec i s = .next (s.setVerdict (.hold w))

end Sys2Proof.Claims

/-- R328: the trap record's fields. -/
def Sys2Proof.Claims.TrapRecordLayout : Prop :=
  ∀ (s : State) (g : Gang) (t : Trap) (pos next : Nat), t.log.length ≤ 32 →
    let r := trapRecord s g t pos next
    r.length = 128 ∧ field r 0x00 1 = t.code % 2 ^ 8 ∧ field r 0x01 1 = t.slot % 2 ^ 8 ∧
    field r 0x02 1 = t.reason % 2 ^ 8 ∧ field r 0x03 1 = t.gmask % 2 ^ 8 ∧ field r 0x04 1 = g.active.toNat ∧
    field r 0x05 1 = g.seat % 2 ^ 8 ∧ field r 0x06 2 = g.core % 2 ^ 16 ∧ field r 0x08 8 = pos % 2 ^ 64 ∧
    field r 0x10 8 = next % 2 ^ 64 ∧ field r 0x18 8 = s.time % 2 ^ 64 ∧ field r 0x20 4 = g.launch % 2 ^ 32 ∧
    field r 0x24 4 = s.teamNumber g % 2 ^ 32 ∧ field r 0x28 8 = t.lmask % 2 ^ 64 ∧
    field r 0x30 8 = t.detail0 % 2 ^ 64 ∧ field r 0x38 8 = t.detail1 % 2 ^ 64 ∧
    (r.drop 0x40).take t.log.length = t.log ∧ r.drop 0x60 = List.replicate 32 0

/-- R327, R328, R53: taking a trap parks the gang, gives its code to the groups that raised it, writes the record
through the context's page table and queues the gang for its core's handler; every other gang stays as it was. -/
def Sys2Proof.Claims.TrapTaken : Prop :=
  ∀ (s : State) (gid : Nat) (g : Gang) (t : Trap) (pos next : Nat), s.gang gid = some g →
    let u := s.takeTrap gid t pos next
    (∃ g', u.gang gid = some g' ∧ g'.park = .trapped ∧ g'.trap = some t ∧ g'.trapPos = pos ∧ g'.trapNext = next ∧
      g'.v = g.v ∧ g'.p = g.p ∧ g'.active = g.active ∧ g'.reconv = g.reconv ∧ g'.returns = g.returns ∧
      (∀ k x, g.group k = some x → ∃ y, g'.group k = some y ∧ y.s = x.s ∧ y.c = x.c ∧ y.fpflags = x.fpflags ∧
        y.trapcode = (if natBit t.gmask k then BitVec.ofNat 8 t.code else x.trapcode) ∧
        y.guardPend = (x.guardPend && !(natBit t.gmask k && t.code == 0x06)))) ∧
    (∀ j, j ≠ gid → u.gang j = s.gang j) ∧
    (u.core g.core).trapped = (s.core g.core).trapped ++ [gid] ∧
    u.mem = (match s.context g.context with
      | some x => (s.writeVirt g.context (x.trapArea + 128 * (17 * g.core + g.seat))
          (trapRecord s g t pos next)).mem
      | none => s.mem)

/-- The trap record field by field, and what taking a trap saves and changes: the claims TrapRecordLayout and TrapTaken together.
The model's own readings: log 91. -/
def Obligations.TrapRecords : Prop := Claims.TrapRecordLayout ∧ Claims.TrapTaken

namespace Sys2Proof.Claims

open Sys2Proof.Machine

/-- The S-slot operations of one scalar source. -/
def readsOne (gd : Guard) (d : SReg) (a : Operand) (n : ImmSlot) : List Instr :=
  [.mov gd d a, .clz gd d a, .cnt gd d a, .lih gd d a n]

/-- The S-slot operations of two scalar sources and a fixed latency. -/
def readsTwo (gd : Guard) (d : SReg) (f : Flag) (a b : Operand) : List Instr :=
  [.add gd d a b, .sub gd d a b, .mul gd d a b, .mulh gd d a b, .mulhw gd d a b, .and gd d a b, .or gd d a b, .xor gd d a b,
   .andn gd d a b, .shl gd d a b, .shr gd d a b, .sar gd d a b, .rol gd d a b, .min gd d a b, .max gd d a b, .minw gd d a b,
   .maxw gd d a b, .ceq gd f a b, .cne gd f a b, .clt gd f a b, .cle gd f a b, .cltw gd f a b, .clew gd f a b]

/-- The gang-wide operations of one scalar source. -/
def readsAll (gd : Guard) (d : SReg) (a : Operand) (n : ImmSlot) : List Instr := [.loop gd d a n, .brx gd a, .sleep gd a]

/-- The groups, of those given, for which a scalar source is empty. -/
def emptyFor (g : Gang) (ks : List Nat) (a : Operand) : List Nat := ks.filter fun k => !((Src.sca a).empties g [k]).isEmpty

end Sys2Proof.Claims

/-- R149, R136, R139 to R141, R31 to R33, R146, R26: the traps of the S slot. TRAP's own effect is its trap. -/
def Sys2Proof.Claims.ScalarTraps : Prop :=
  ∀ (s : State) (c : Cur) (g : Gang) (gd : Guard) (d : SReg) (f : Flag) (a b : Operand) (n m : ImmSlot),
    s.Issues c g → c.mode = .whole → guardPending g gd = false →
    let diverge := c.trap 0x08 (groupMask g.activeGroups) 0 0 0
    let empty := fun (ks : List Nat) (r : Nat) => c.trap 0x03 (groupMask (emptyFor g ks a)) 0 r 0
    (g.effConds gd ≠ [] → Traps s c (.trap gd n)
      (c.trap 0x0D (groupMask (g.effConds gd)) 0 ((c.imm n.val).toNat % 2 ^ 16) 0)) ∧
    (g.effConds gd = [] → exec (.trap gd n) s = .next s) ∧
    -- a mixed guard of a gang-wide operation
    ((∃ k ∈ g.activeGroups, k ∈ g.effConds gd) → (∃ k ∈ g.activeGroups, k ∉ g.effConds gd) →
      ∀ i ∈ ([.br gd n, .brc gd false a n, .brc gd true a n, .join gd, .call gd n, .ret gd, .loop gd d a n, .brx gd a,
          .freeze gd, .yield gd, .sleep gd a] : List Instr), Traps s c i diverge) ∧
    (g.ReadyAll gd [] → 8 ≤ g.returns.length → Traps s c (.call gd n) (c.trap 0x10 (groupMask g.activeGroups) 0 1 0)) ∧
    (g.ReadyAll gd [] → g.returns = [] → Traps s c (.ret gd) (c.trap 0x10 (groupMask g.activeGroups) 0 1 0)) ∧
    (g.ReadyAll gd [] → (g.handler = true ∨ (g.prologue = false ∧ g.teamPrologue = false)) →
      Traps s c (.freeze gd) (c.trap 0x09 (groupMask g.activeGroups) 0 0 0)) ∧
    -- active groups that disagree at a branch
    (g.ReadyAll gd [.cnd a] → (∃ k ∈ g.activeGroups, condSrc g a k = true) →
      (∃ k ∈ g.activeGroups, condSrc g a k = false) → ∀ inv, Traps s c (.brc gd inv a n) diverge) ∧
    (g.ReadyAll gd [.sca a] →
      ((∃ k ∈ g.activeGroups, un s c g a k = 1) → (∃ k ∈ g.activeGroups, un s c g a k ≠ 1) →
        Traps s c (.loop gd d a n) diverge) ∧
      ((∃ j ∈ g.activeGroups, ∃ k ∈ g.activeGroups, un s c g a j ≠ un s c g a k) → Traps s c (.brx gd a) diverge)) ∧
    (g.Full (g.effConds gd) [.cnd a] → 3 ≤ g.reconv.length → (∃ k ∈ g.effConds gd, condSrc g a k = true) →
      (∃ k ∈ g.activeGroups, ¬(k ∈ g.effConds gd ∧ condSrc g a k = true)) →
      Traps s c (.brd gd a n m) (c.trap 0x10 (groupMask g.activeGroups) 0 0 0)) ∧
    -- an empty register read with E = 1 traps, and with E = 0 waits
    (∀ r : Fin 64, a.code = .reg r →
      (emptyFor g (g.effConds gd) a ≠ [] →
        (a.e = true → ∀ i ∈ readsOne gd d a n ++ readsTwo gd d f a b, Traps s c i (empty (g.effConds gd) r.val)) ∧
        (a.e = false → (∀ i ∈ readsOne gd d a n, Waits s i .operand) ∧
          (g.Full (g.effConds gd) [.sca b] → ∀ i ∈ readsTwo gd d f a b, Waits s i .operand))) ∧
      (g.ReadyAll gd [] → emptyFor g g.activeGroups a ≠ [] → ∀ i ∈ readsAll gd d a n,
        (a.e = true → Traps s c i (empty g.activeGroups r.val)) ∧ (a.e = false → Waits s i .operand)))

/-- R73, R101: an EXIT or STOP of a group with a guard touch pending raises GUARD instead; a STOP without one ends
every group of the gang. -/
def Sys2Proof.Claims.StopAndGuard : Prop :=
  ∀ (s : State) (c : Cur) (g : Gang) (gd : Guard), s.Issues c g → c.mode = .whole →
    (s.gang c.gid = some g → noGuard g g.liveGroups → sealRoom [] g g.liveGroups →
      (∀ k, g.active.getLsbD k = true → k ∈ g.liveGroups) →
      (∀ e ∈ g.reconv, ∀ k, e.mask.getLsbD k = true → k ∈ g.liveGroups) →
      ∃ t m, exec .stop s = .next t ∧ t.gang c.gid = some m ∧ m.active = 0 ∧ m.park = .ending ∧
        ∀ k ∈ g.liveGroups, ∀ x, g.group k = some x → ∃ y, m.group k = some y ∧ batchSealed x y) ∧
    (∀ k rest x touch, guardPending g gd = false →
      ((g.effConds gd).filter fun k => (g.group k).elim false Group.guardPend) = k :: rest →
      g.group k = some x → x.touch = some touch →
      Traps s c (.exit gd)
        (c.trap 0x06 (groupMask (k :: rest)) 0 touch.position (touch.lane + 256 * touch.bank))) ∧
    (∀ k rest x touch, (g.liveGroups.filter fun k => (g.group k).elim false Group.guardPend) = k :: rest →
      g.group k = some x → x.touch = some touch →
      Traps s c .stop { c.trap 0x06 (groupMask (k :: rest)) 0 touch.position (touch.lane + 256 * touch.bank) with
        slot := 0xFF })

/-- TRAP, DIVERGE, STACK, FREEZE, EMPTY and GUARD: where the S slot traps, and STOP: the claims ScalarTraps and StopAndGuard together.
The model's own readings: log 24, 25, 27, 29, 91. -/
def Obligations.ControlTraps : Prop := Claims.ScalarTraps ∧ Claims.StopAndGuard

namespace Sys2Proof.Claims

open Sys2Proof.Machine

/-- A result lands in every effective lane `n` beats after issue, with the flags it raises (R153, R155). -/
def landL (s : State) (c : Cur) (g : Gang) (gd : Guard) (d : RDest) (n : Nat) (latch : Bool) (f : Nat → FResult) :
    State :=
  if g.effLanes gd = [] then s
  else s.land c n d ((g.effLanes gd).map fun p => (p, (f p).1))
    (g.groupFlags ((g.effLanes gd).map fun p => (p, (f p).2))) latch

/-- An integer result lands in a vector register and raises no flag (R159). -/
def landV (s : State) (c : Cur) (g : Gang) (gd : Guard) (d : VReg) (n : Nat) (f : Nat → Nat) : State :=
  landL s c g gd (.v d.val) n true fun p => (f p, 0)

/-- A predicate lands one beat after issue, and no latch is written (R160, R161). -/
def landP (s : State) (c : Cur) (g : Gang) (gd : Guard) (d : Flag) (f : Nat → Bool) : State :=
  landL s c g gd (.p d.val) 1 false fun p => ((f p).toNat, 0)

/-- An unsigned lane source. -/
def vun (s : State) (c : Cur) (g : Gang) (o : Operand) (p : Nat) : Nat := (vsrc s c g o p).toNat

/-- A signed lane source. -/
def vsi (s : State) (c : Cur) (g : Gang) (o : Operand) (p : Nat) : Int := (vsrc s c g o p).toInt

/-- The pairwise tree of R177 over `2^n` values. -/
def pairwise (f : Nat → Nat → Nat) : Nat → (Nat → Nat) → Nat → Nat
  | 0, v, i => v i
  | n + 1, v, i => f (pairwise f n v (2 * i)) (pairwise f n v (2 * i + 1))

/-- The FP32 sum of a list in order, from negative zero (R178). -/
def sumInOrder (rm : Rounding) (l : List Nat) : Nat := l.foldl (fun a x => (fAdd fp32 rm a x).1) 0x80000000

end Sys2Proof.Claims

/-! ## The V slots -/

/-- R159: the integer operations of the V slots, lane by lane. -/
def Obligations.VectorIntegerResults : Prop :=
  ∀ (s : State) (c : Cur) (g : Gang) (gd : Guard) (d : VReg) (a b e : Operand) (n : ImmSlot),
    s.Issues c g → s.CanOwn c.gid [d.val] →
    let x := vun s c g a
    let y := vun s c g b
    let z := vun s c g e
    let i := vsi s c g a
    let j := vsi s c g b
    let land := landV s c g gd d
    (g.ReadyV gd [.vec a, .vec b] →
      exec (.vadd gd d a b) s = .next (land 1 fun p => (x p + y p) % 2 ^ 32) ∧
      exec (.vsub gd d a b) s = .next (land 1 fun p => wrap 32 (x p - y p)) ∧
      exec (.vmul gd d a b) s = .next (land 2 fun p => x p * y p % 2 ^ 32) ∧
      exec (.vmulh gd d a b) s = .next (land 2 fun p => wrap 32 (i p * j p / 2 ^ 32)) ∧
      exec (.vand gd d a b) s = .next (land 1 fun p => x p &&& y p) ∧
      exec (.vor gd d a b) s = .next (land 1 fun p => x p ||| y p) ∧
      exec (.vxor gd d a b) s = .next (land 1 fun p => x p ^^^ y p) ∧
      exec (.vshl gd d a b) s = .next (land 1 fun p => x p * 2 ^ (y p % 32) % 2 ^ 32) ∧
      exec (.vshr gd d a b) s = .next (land 1 fun p => x p / 2 ^ (y p % 32)) ∧
      exec (.vsar gd d a b) s = .next (land 1 fun p => wrap 32 (i p / 2 ^ (y p % 32))) ∧
      exec (.vmin gd d a b) s = .next (land 1 fun p => if i p < j p then x p else y p) ∧
      exec (.vmax gd d a b) s = .next (land 1 fun p => if j p < i p then x p else y p) ∧
      exec (.vminw gd d a b) s = .next (land 1 fun p => if x p < y p then x p else y p) ∧
      exec (.vmaxw gd d a b) s = .next (land 1 fun p => if y p < x p then x p else y p) ∧
      exec (.vsel gd d a b e) s = .next (land 1 fun p => if predSrc g e p then x p else y p)) ∧
    (g.ReadyV gd [.vec a, .vec b, .vec e] →
      exec (.vmad gd d a b e) s = .next (land 2 fun p => (x p * y p + z p) % 2 ^ 32)) ∧
    (g.ReadyV gd [.vec a] →
      exec (.vabs gd d a) s = .next (land 1 fun p => (i p).natAbs) ∧
      exec (.vclz gd d a) s = .next (land 1 fun p => zerosAbove 32 (x p)) ∧
      exec (.vcnt gd d a) s = .next (land 1 fun p => ones 32 (x p)) ∧
      exec (.vmov gd d a) s = .next (land 1 x)) ∧
    exec (.vli gd d n) s = .next (land 1 fun _ => (c.imm n.val).toNat % 2 ^ 32)

/-- R160, R161: the compares of the V slots and the logic of predicates. -/
def Obligations.VectorPredicates : Prop :=
  ∀ (s : State) (c : Cur) (g : Gang) (gd : Guard) (d : Flag) (a b : Operand), s.Issues c g →
    let x := vun s c g a
    let y := vun s c g b
    let i := vsi s c g a
    let j := vsi s c g b
    let land := landP s c g gd d
    let single := fun (m : FCompare) => landL s c g gd (.p d.val) 1 false fun p =>
      ((fCompare fp32 m (x p) (y p)).1.toNat, (fCompare fp32 m (x p) (y p)).2)
    let double := fun (m : FCompare) => landL s c g gd (.p d.val) 4 false fun p =>
      ((fCompare fp64 m (psrc c g a p) (psrc c g b p)).1.toNat, (fCompare fp64 m (psrc c g a p) (psrc c g b p)).2)
    (g.ReadyV gd [.vec a, .vec b] →
      exec (.vceq gd d a b) s = .next (land fun p => decide (x p = y p)) ∧
      exec (.vcne gd d a b) s = .next (land fun p => decide (x p ≠ y p)) ∧
      exec (.vclt gd d a b) s = .next (land fun p => decide (i p < j p)) ∧
      exec (.vcle gd d a b) s = .next (land fun p => decide (i p ≤ j p)) ∧
      exec (.vcltw gd d a b) s = .next (land fun p => decide (x p < y p)) ∧
      exec (.vclew gd d a b) s = .next (land fun p => decide (x p ≤ y p)) ∧
      exec (.fceq gd d a b) s = .next (single .eq) ∧
      exec (.fclt gd d a b) s = .next (single .lt) ∧
      exec (.fcle gd d a b) s = .next (single .le) ∧
      exec (.fcun gd d a b) s = .next (single .un)) ∧
    (g.ReadyV gd [.pair a, .pair b] →
      exec (.dceq gd d a b) s = .next (double .eq) ∧
      exec (.dclt gd d a b) s = .next (double .lt) ∧
      exec (.dcle gd d a b) s = .next (double .le)) ∧
    exec (.pand gd d a b) s = .next (land fun p => predSrc g a p && predSrc g b p) ∧
    exec (.por gd d a b) s = .next (land fun p => predSrc g a p || predSrc g b p) ∧
    exec (.pxor gd d a b) s = .next (land fun p => predSrc g a p ^^ predSrc g b p) ∧
    exec (.pandn gd d a b) s = .next (land fun p => predSrc g a p && !predSrc g b p) ∧
    exec (.pmov gd d a) s = .next (land fun p => predSrc g a p)

/-- R162 to R165: the FP32 operations, under the rounding mode of the lane's group where R156 says so.
The model's own readings: log 71. -/
def Obligations.FloatOperations : Prop :=
  ∀ (s : State) (c : Cur) (g : Gang) (gd : Guard) (d : VReg) (a b e : Operand) (rm : Rounding),
    s.Issues c g → s.CanOwn c.gid [d.val] →
    let x := vun s c g a
    let y := vun s c g b
    let z := vun s c g e
    let m := fun (p : Nat) => g.rounding (p / g.width)
    let land := landL s c g gd (.v d.val)
    (g.ReadyV gd [.vec a, .vec b, .vec e] →
      exec (.ffma gd d a b e) s = .next (land 2 true fun p => fFma fp32 (m p) (x p) (y p) (z p)) ∧
      exec (.ffms gd d a b e) s = .next (land 2 true fun p => fFms fp32 (m p) (x p) (y p) (z p)) ∧
      exec (.fnma gd d a b e) s = .next (land 2 true fun p => fFnma fp32 (m p) (x p) (y p) (z p))) ∧
    (g.ReadyV gd [.vec a, .vec b] →
      exec (.fadd gd d a b) s = .next (land 2 true fun p => fAdd fp32 (m p) (x p) (y p)) ∧
      exec (.fsub gd d a b) s = .next (land 2 true fun p => fSub fp32 (m p) (x p) (y p)) ∧
      exec (.fmul gd d a b) s = .next (land 2 true fun p => fMul fp32 (m p) (x p) (y p)) ∧
      exec (.fmin gd d a b) s = .next (land 1 true fun p => fMinMax fp32 false (x p) (y p)) ∧
      exec (.fmax gd d a b) s = .next (land 1 true fun p => fMinMax fp32 true (x p) (y p))) ∧
    (g.ReadyV gd [.vec a] →
      exec (.fabs gd d a) s = .next (land 1 true fun p => fSignOp fp32 false (x p)) ∧
      exec (.fneg gd d a) s = .next (land 1 true fun p => fSignOp fp32 true (x p)) ∧
      exec (.frnd gd rm d a) s = .next (land 1 true fun p => fRound fp32 rm (x p)) ∧
      exec (.frcp gd d a) s = .next (land 3 true fun p => fRcp fp32 (x p)) ∧
      exec (.frsq gd d a) s = .next (land 3 true fun p => fRsq fp32 (x p)) ∧
      exec (.fsqrt gd d a) s = .next (land 4 true fun p => fSqrt fp32 (m p) (x p)) ∧
      exec (.fexp2 gd d a) s = .next (land 3 true fun p => fExp2 (x p)) ∧
      exec (.flog2 gd d a) s = .next (land 3 true fun p => fLog2 (x p)))

/-- R166, R167: FP64 operations on register pairs and operations on packed 16-bit halves. -/
def Obligations.DoubleAndPackedOperations : Prop :=
  ∀ (s : State) (c : Cur) (g : Gang) (gd : Guard) (d : VReg) (a b e : Operand) (bf : Bool), s.Issues c g →
    let q := psrc c g
    let w := vun s c g
    let m := fun (p : Nat) => g.rounding (p / g.width)
    let pair := landL s c g gd (.pair d.val)
    let halves := landL s c g gd (.v d.val) 2 true
    let f := if bf then bf16 else fp16
    (s.CanOwn c.gid [d.val, d.val + 1] →
      (g.ReadyV gd [.pair a, .pair b] →
        exec (.dadd gd d a b) s = .next (pair 4 true fun p => fAdd fp64 (m p) (q a p) (q b p)) ∧
        exec (.dsub gd d a b) s = .next (pair 4 true fun p => fSub fp64 (m p) (q a p) (q b p)) ∧
        exec (.dmul gd d a b) s = .next (pair 4 true fun p => fMul fp64 (m p) (q a p) (q b p))) ∧
      (g.ReadyV gd [.pair a, .pair b, .pair e] →
        exec (.dfma gd d a b e) s = .next (pair 4 true fun p => fFma fp64 (m p) (q a p) (q b p) (q e p))) ∧
      (g.ReadyV gd [.pair a] →
        exec (.drcp gd d a) s = .next (pair 4 true fun p => fRcp fp64 (q a p)) ∧
        exec (.drsq gd d a) s = .next (pair 4 true fun p => fRsq fp64 (q a p)) ∧
        exec (.dsqrt gd d a) s = .next (pair 8 true fun p => fSqrt fp64 (m p) (q a p)))) ∧
    (s.CanOwn c.gid [d.val] →
      (g.ReadyV gd [.vec a, .vec b] →
        exec (.hadd2 gd bf d a b) s = .next (halves fun p =>
          packed2 (fun x y _ => fAdd f (m p) x y) (w a p) (w b p) 0) ∧
        exec (.hmul2 gd bf d a b) s = .next (halves fun p =>
          packed2 (fun x y _ => fMul f (m p) x y) (w a p) (w b p) 0)) ∧
      (g.ReadyV gd [.vec a, .vec b, .vec e] →
        exec (.hfma2 gd bf d a b e) s = .next (halves fun p =>
          packed2 (fFma f (m p)) (w a p) (w b p) (w e p))))

/-- R168 to R174, R89: the conversions. -/
def Obligations.Conversions : Prop :=
  ∀ (s : State) (c : Cur) (g : Gang) (gd : Guard) (d r : VReg) (a : Operand) (uns er : Bool) (fm : FiMode)
    (sp : SlotPart) (w : Word32) (f : ElemFormat), s.Issues c g →
    let x := vun s c g a
    let m := fun (p : Nat) => g.rounding (p / g.width)
    let word := landL s c g gd (.v d.val) 2 true
    let low := fieldLow f sp.part.val
    let part := landL s c g gd (.field d.val low f.bits) 2 true
    (s.CanOwn c.gid [d.val] →
      (g.ReadyV gd [.vec a] →
        exec (.cvtif gd uns d a) s = .next (word fun p => cvtIF (m p) uns (vsrc s c g a p)) ∧
        exec (.cvtfi gd fm d a) s = .next (word fun p => cvtFI (if fm.rz then .rz else m p) fm.uns (x p))) ∧
      (g.ReadyV gd [.pair a] →
        exec (.cvtdf gd d a) s = .next (word fun p => cvtDF (m p) (psrc c g a p)))) ∧
    (s.CanOwn c.gid [d.val, d.val + 1] → g.ReadyV gd [.vec a] →
      exec (.cvtfd gd d a) s = .next (landL s c g gd (.pair d.val) 2 true fun p => cvtFD (x p))) ∧
    -- the format slot holds a format of 32 bits or fewer
    (s.formatSlot g sp.slot.val = w → slotFormat w = some f → f ≠ .fp64 →
      (s.CanOwn c.gid [d.val] → g.ReadyV gd [.vec a] →
        exec (.cvtn gd d a sp .rne) s = .next (part fun p => narrow w f .rne (slotSat w) (x p)) ∧
        exec (.cvtn gd d a sp .rz) s = .next (part fun p => narrow w f .rz (slotSat w) (x p)) ∧
        exec (.cvtn gd d a sp .sat) s = .next (part fun p => narrow w f .rne true (x p)) ∧
        exec (.cvtw gd d a sp) s = .next (word fun p => widen w f (x p / 2 ^ low % 2 ^ f.bits))) ∧
      (s.CanOwn c.gid [d.val, r.val] →
        g.ReadyV gd [.vec a, .vreg r.val er] → g.effLanes gd ≠ [] →
        exec (.cvtn gd d a sp (.ef r er)) s = .next ((part fun p =>
            let y := feedback w f (x p) (g.vreg r.val p).toNat
            (y.1, y.2.2)).land c 2 (.v r.val)
          ((g.effLanes gd).map fun p => (p, (feedback w f (x p) (g.vreg r.val p).toNat).2.1)) [] false))) ∧
    -- a format slot that holds FP64 traps MFORMAT
    (slotFormat (s.formatSlot g sp.slot.val) = some .fp64 → c.mode = .whole → g.effLanes gd ≠ [] →
      let bad := c.trap 0x13 (groupMask (g.groupsOf (g.effLanes gd))) 0 (8 * sp.part.val + sp.slot.val) 0
      (g.ReadyV gd [.vec a] → ∀ i ∈ ([.cvtw gd d a sp, .cvtn gd d a sp .rne, .cvtn gd d a sp .rz, .cvtn gd d a sp .sat] :
          List Instr), Traps s c i bad) ∧
      (g.ReadyV gd [.vec a, .vreg r.val er] → Traps s c (.cvtn gd d a sp (.ef r er)) bad))

/-- R175 to R178: the operations across the lanes of a group. -/
def Obligations.CrossLaneOperations : Prop :=
  ∀ (s : State) (c : Cur) (g : Gang) (gd : Guard) (d : VReg) (a b e : Operand) (op : RedOp),
    s.Issues c g → s.CanOwn c.gid [d.val] →
    let W := g.width
    let x := vun s c g a
    let first := fun (p : Nat) => p / W * W
    let land := landV s c g gd d
    (g.ReadyV gd [.vec a, .vec b, .vec e] →
      exec (.vshf gd d a b e) s = .next (land 2 fun p =>
        if vun s c g b p < W then x (first p + vun s c g b p) else vun s c g e p)) ∧
    (g.ReadyV gd [.vec a, .vec b] →
      let k := fun (p : Nat) => vun s c g b (first p)
      exec (.vbcast gd d a b) s = .next (land 2 fun p => if k p < W then x (first p + k p) else 0) ∧
      exec (.vrot gd d a b) s = .next (land 2 fun p =>
        if k p < W then x (first p + (p - first p + k p) % W) else 0)) ∧
    (g.ReadyV gd [.vec a] → g.effLanes gd ≠ [] → (g.width = 16 ∨ g.width = 32 ∨ g.width = 64) →
      Tbl.wf g.groups = true →
      (∃ vals flags, exec (.vred gd op d a) s = .next (s.land c 3 (.v d.val) vals flags true) ∧
        (∀ p v, (p, v) ∈ vals ↔ p ∈ g.effLanes gd ∧ v = pairwise (fun u w => (redFn op (g.rounding (p / W)) u w).1)
          (Nat.log2 W) (fun q => if first p + q ∈ g.effLanes gd then x (first p + q) else redNeutral op) 0)) ∧
      (∃ vals flags, exec (.vscan gd d a) s = .next (s.land c 3 (.v d.val) vals flags true) ∧
        (∀ p v, (p, v) ∈ vals ↔ p ∈ g.effLanes gd ∧ v = sumInOrder (g.rounding (p / W))
          (((g.effLanes gd).filter fun q => q / W = p / W ∧ q ≤ p).map x))))

/-- R179 to R182: VRDX and VWRX put a job in the port's queue, which holds four waiting ahead of the port, and one more
while the port is idle; they mark the registers the job will write empty, but for those that a later slot of the bundle
writes. The model's own readings: log 69, 109. -/
def Sys2Proof.Claims.IndexedRegisterJobs : Prop :=
  ∀ (s : State) (c : Cur) (g l : Gang) (gd : Guard) (d : VReg) (a b : Operand),
    s.Issues c g → s.gang c.gid = some l → g.effLanes gd ≠ [] →
    let port := s.core g.core
    port.index.countP (fun j => !j.started) + indexBefore c g <
      (if port.index = [] ∧ port.indexAt ≤ s.time / 4 then 5 else 4) →
    let names := fun (o : Operand) => g.activeLanes.map fun p => (p, vun s c g o p % 64)
    let writes := (List.range 64).filter fun r => decide (∃ p ∈ g.effLanes gd, vun s c g b p % 64 = r) &&
      !(otherDests s c g true).contains r
    let Queued := fun (op : Instr) (regs : List Nat) (o : Operand) (dest : Option Nat) (vals : List (Nat × Nat)) =>
      ∃ t m j, exec op s = .next t ∧ t.gang c.gid = some m ∧ (t.core g.core).index = (s.core g.core).index ++ [j] ∧
        j.gid = c.gid ∧ j.seq = c.seq ∧ j.dest = dest ∧ j.names = names o ∧ j.vals = vals ∧
        (∀ p < 64, j.effective.getLsbD p = decide (p ∈ g.effLanes gd)) ∧
        j.banks = (List.range 8).filter (fun k => decide (∃ q ∈ names o, q.2 % 8 = k)) ∧
        j.started = false ∧ j.issued = s.time / 4 ∧
        (∀ x b bs, dest = some x → j.banks = b :: bs → (∀ p ∈ names o, p.2 % 8 = b → p.2 ≠ x →
            g.vEmpty p.2 = false ∧ g.vFilled.find p.2 ≠ some (s.time / 4)) →
          j.first = some (((names o).filter fun p => p.2 % 8 == b && j.effective.getLsbD p.1).map fun p =>
            (p.1, (g.v.get (64 * p.2 + p.1)).toNat))) ∧
        (∀ r ∈ regs, m.vAwait.find r = some c.seq) ∧ m.v = l.v ∧
        (8 * (s.time / 4), .indexJobLand g.core) ∈ t.agenda
    (g.ReadyV gd [.vec a] → s.CanOwn c.gid [d.val] → Queued (.vrdx gd d a) [d.val] a (some d.val) []) ∧
    (g.ReadyV gd [.vec a, .vec b] → s.CanOwn c.gid writes →
      Queued (.vwrx gd a b) writes b none ((g.effLanes gd).map fun p => (p, vun s c g a p)))

/-- R80, R156, R52: one rounding of a magnitude m · 2^e to a multiple of 2^q: exact when it is one, toward zero,
upward, downward, or to the nearest with ties to even. -/
def Sys2Proof.Claims.OneRounding : Prop :=
  ∀ (rm : Rounding) (neg : Bool) (m : Nat) (e q : Int), e < q →
    let unit := 2 ^ (q - e).toNat
    let r := roundAt rm neg m e false q
    (r.2 = true ↔ m % unit ≠ 0) ∧ (m % unit = 0 → r.1 * unit = m) ∧
    (rm = .rz → r.1 = m / unit) ∧
    ((rm = .ru ∧ neg = false) ∨ (rm = .rd ∧ neg = true) → m ≤ r.1 * unit ∧ r.1 * unit < m + unit) ∧
    ((rm = .ru ∧ neg = true) ∨ (rm = .rd ∧ neg = false) → r.1 = m / unit) ∧
    (rm = .rne → 2 * (r.1 * unit) ≤ 2 * m + unit ∧ 2 * m ≤ 2 * (r.1 * unit) + unit ∧
      (2 * (m % unit) = unit → r.1 % 2 = 0))

/-- R80, R51, R81: what NaN operands do. Arithmetic gives the canonical NaN and raises NV for a signalling operand;
FMIN and FMAX take the other operand; comparisons are false; FNEG and FABS of a number change its sign alone. -/
def Sys2Proof.Claims.NaNOperands : Prop :=
  ∀ (f : FloatFormat) (rm : Rounding) (a b e : Nat),
    let x := f.value a
    let y := f.value b
    let z := f.value e
    let signals := fun (l : List FVal) => if l.any FVal.signalling then flagNV else (0 : FFlags)
    (x.isNaN ∨ y.isNaN →
      fAdd f rm a b = (f.nan, signals [x, y]) ∧ fMul f rm a b = (f.nan, signals [x, y]) ∧
      (fCompare f .eq a b).1 = false ∧ fCompare f .lt a b = (false, flagNV) ∧ fCompare f .le a b = (false, flagNV) ∧
      fCompare f .un a b = (true, signals [x, y])) ∧
    (x.isNaN ∨ y.isNaN ∨ z.isNaN → (fFma f rm a b e).1 = f.nan) ∧
    (x.isNaN → y.isNaN = false → fMinMax f true a b = (b, signals [x, y]) ∧ fMinMax f false a b = (b, signals [x, y])) ∧
    (x.isNaN → fSignOp f true a = (f.nan, signals [x]) ∧ fSqrt f rm a = (f.nan, signals [x]) ∧
      fRcp f a = (f.nan, signals [x]) ∧ fRsq f a = (f.nan, signals [x])) ∧
    (x.isNaN = false → a < 2 ^ (f.sign + 1) →
      (fSignOp f false a).1 = a % 2 ^ f.sign ∧ (fSignOp f true a).1 = (a + 2 ^ f.sign) % 2 ^ (f.sign + 1))

namespace Sys2Proof.Claims

open Sys2Proof.Machine

/-- `r` is the exact value (-1)^neg · m · 2^e rounded once into a format (R80, R82, R156): to a multiple of the unit of its
binade, or of the least subnormal. Within the format's range the code's value is that multiple, with NX where it is not exact
and UF where it is tiny after rounding as well; beyond it the result is an infinity or the largest finite number, as the mode
says, with OF and NX. -/
def RoundedOnce (f : FloatFormat) (rm : Rounding) (neg : Bool) (m : Nat) (e : Int) (r : FResult) : Prop :=
  let unit := e + (Nat.log2 m + 1 : Nat) - f.prec
  let q := max unit f.qmin
  let x := roundAt rm neg m e false q
  let size := x.1 * 2 ^ (q - f.qmin).toNat
  let tiny := (roundAt rm neg m e false unit).1 < 2 ^ (f.prec - 1 + (f.qmin - unit).toNat)
  if size ≤ (2 ^ f.prec - 1) * 2 ^ (f.maxMag / 2 ^ (f.prec - 1) - 1) then
    (∃ k y, f.value r.1 = .fin neg k y ∧ f.qmin ≤ y ∧ k * 2 ^ (y - f.qmin).toNat = size) ∧ r.1 < 2 ^ (f.sign + 1) ∧
      r.2 = (if x.2 then flagNX else 0) ||| if x.2 = true ∧ tiny then flagUF else 0
  else
    r.2 = (flagOF ||| flagNX) ∧ (if rm = .rne ∨ (rm = .ru ∧ neg = false) ∨ (rm = .rd ∧ neg = true) then f.value r.1 = .inf neg
      else r.1 = f.maxMag + if neg then 2 ^ f.sign else 0)

/-- `r` is the signed number n · 2^e rounded once, or for n = 0 the zero of the sign given. -/
def RoundedSum (f : FloatFormat) (rm : Rounding) (n e : Int) (negZero : Bool) (r : FResult) : Prop :=
  (n ≠ 0 → RoundedOnce f rm (decide (n < 0)) n.natAbs e r) ∧ (n = 0 → r = ((if negZero then 2 ^ f.sign else 0), 0))

end Sys2Proof.Claims

/-- R80, R82, R156, R162: sums, differences, products and fused products of finite operands are the exact value, rounded once
under the mode; an exact zero has the sign that IEEE 754-2019 gives it. -/
def Sys2Proof.Claims.FiniteArithmetic : Prop :=
  ∀ (f : FloatFormat) (rm : Rounding) (a b c : Nat) (na nb nc : Bool) (ma mb mc : Nat) (ea eb ec : Int),
    f ∈ [fp64, fp32, fp16, bf16] → f.value a = .fin na ma ea → f.value b = .fin nb mb eb → f.value c = .fin nc mc ec →
    let scaled := fun (n : Bool) (m : Nat) (e u : Int) => (if n then -(m : Int) else m) * 2 ^ (e - u).toNat
    let u := min ea eb
    let w := min (ea + eb) ec
    let zero := fun (n n' : Bool) (m : Nat) => if n = n' ∧ m = 0 then n else decide (rm = .rd)
    RoundedSum f rm (scaled na ma ea u + scaled nb mb eb u) u (zero na nb ma) (fAdd f rm a b) ∧
    RoundedSum f rm (scaled na ma ea u - scaled nb mb eb u) u (zero na (!nb) ma) (fSub f rm a b) ∧
    RoundedSum f rm (scaled (na != nb) (ma * mb) (ea + eb) (ea + eb)) (ea + eb) (na != nb) (fMul f rm a b) ∧
    RoundedSum f rm (scaled (na != nb) (ma * mb) (ea + eb) w + scaled nc mc ec w) w (zero (na != nb) nc (ma * mb))
      (fFma f rm a b c) ∧
    RoundedSum f rm (scaled (na != nb) (ma * mb) (ea + eb) w - scaled nc mc ec w) w (zero (na != nb) (!nc) (ma * mb))
      (fFms f rm a b c) ∧
    RoundedSum f rm (scaled nc mc ec w - scaled (na != nb) (ma * mb) (ea + eb) w) w (zero (na == nb) nc (ma * mb))
      (fFnma f rm a b c)

/-- Finite sums and products rounded once, one rounding in each mode, and what NaN operands do: the claims FiniteArithmetic,
OneRounding and NaNOperands together. -/
def Obligations.RoundingAndNaN : Prop := Claims.FiniteArithmetic ∧ Claims.OneRounding ∧ Claims.NaNOperands

namespace Sys2Proof.Claims

open Sys2Proof.Machine

/-- Lanes of a vector register written. -/
def writeLanes (v : Cells 32) (r : Nat) (vals : List (Nat × Nat)) : Cells 32 :=
  vals.foldl (fun v p => v.set (64 * r + p.1) (BitVec.ofNat 32 p.2)) v

/-- A predicate's bits written. -/
def writeBits (p : Cells 64) (n : Nat) (vals : List (Nat × Nat)) : Cells 64 :=
  vals.foldl (fun p v => p.set n (putBit (p.get n) v.1 (v.2 % 2 == 1))) p

/-- The value a list gives for a key. -/
def valueFor (vals : List (Nat × Nat)) (k : Nat) : Option Nat := (vals.find? fun p => p.1 == k).map Prod.snd

/-- The flags a list gives for a group, joined. -/
def flagsFor (l : List (Nat × FFlags)) (k : Nat) : FFlags :=
  (l.filter fun p => p.1 == k).foldl (fun a p => a ||| p.2) 0

/-- Each group of a gang after, from the same group before. -/
def Groups (g g' : Gang) (rel : Nat → Group → Group → Prop) : Prop :=
  ∀ k x, g.group k = some x → ∃ y, g'.group k = some y ∧ rel k x y

end Sys2Proof.Claims

/-! ## Results -/

/-- R20, R24, R51, R135: in its beat a result is written where its destination is full, with its flags and its latch;
nothing else of the gang's registers changes, and no memory. -/
def Sys2Proof.Claims.ResultsLand : Prop :=
  ∀ (s : State) (core gid : Nat) (g : Gang) (f : Flight), s.gang gid = some g → g.core = core →
    s.tileWrites core = [] → (g.flights.filter fun x => decide (x.land ≤ s.beat)) = [f] →
    f.indexed = false → f.collide = 0 → (f.vals.map Prod.fst).Nodup →
    ∃ t g', exec (.resultLanding core) s = .next t ∧ t.gang gid = some g' ∧ t.mem = s.mem ∧ t.tiles = s.tiles ∧
      g'.flights = (g.flights.filter fun x => decide (s.beat < x.land)) ∧ g'.handles = g.handles ∧ g'.pos = g.pos ∧
      (∀ r, f.dest = .v r → g.vAwait.find r = none →
        g'.v = writeLanes g.v r f.vals ∧ g'.p = g.p ∧
        (f.latch = true → f.unit = .v0 →
          g'.lV0 = f.vals.foldl (fun c p => c.set p.1 (BitVec.ofNat 32 p.2)) g.lV0) ∧
        Groups g g' fun k x y => y.s = x.s ∧ y.c = x.c ∧ y.fpmode = x.fpmode ∧
          y.fpflags = x.fpflags ||| flagsFor f.flags k) ∧
      (∀ r, f.dest = .pair r → g.vAwait.find r = none → g.vAwait.find (r + 1) = none →
        g'.v = writeLanes (writeLanes g.v r (f.vals.map fun p => (p.1, p.2 % 2 ^ 32))) (r + 1)
          (f.vals.map fun p => (p.1, p.2 / 2 ^ 32)) ∧ g'.p = g.p) ∧
      (∀ n, f.dest = .p n → g'.p = writeBits g.p n f.vals ∧ g'.v = g.v) ∧
      (∀ r, f.dest = .s r → f.flags = [] → (∀ k x, g.group k = some x → x.sAwait.find r = none) →
        g'.v = g.v ∧ g'.p = g.p ∧
        (f.latch = true → f.unit = .s →
          g'.lS = f.vals.foldl (fun c p => c.set p.1 (BitVec.ofNat 64 p.2)) g.lS) ∧
        Groups g g' fun k x y => y.c = x.c ∧ y.fpflags = x.fpflags ∧
          y.s = (valueFor f.vals k).elim x.s fun v => x.s.set r (BitVec.ofNat 64 v)) ∧
      (∀ n, f.dest = .c n → f.flags = [] → (∀ k x, g.group k = some x → x.cAwait.find n = none) →
        g'.v = g.v ∧ g'.p = g.p ∧ g'.lS = g.lS ∧
        Groups g g' fun k x y => y.s = x.s ∧ y.fpflags = x.fpflags ∧
          y.c = (valueFor f.vals k).elim x.c fun v => putBit x.c n (v % 2 == 1)) ∧
      (∀ n, f.dest = .special n → f.flags = [] →
        g'.v = g.v ∧ g'.p = g.p ∧ Groups g g' fun k x y => y.s = x.s ∧ y.c = x.c ∧
          (∀ v, valueFor f.vals k = some v →
            y.fpflags = (if n = 2 then BitVec.ofNat 5 v else x.fpflags) ∧
            y.fpmode = (if n = 3 then BitVec.ofNat 2 v else x.fpmode) ∧
            y.collide = (x.collide && !(n == 4 && v / 2 % 2 == 1)) ∧ y.trapcode = x.trapcode) ∧
          (valueFor f.vals k = none → y = x))

/-- R21: of two results that reach one vector register in one beat, the lanes of the later issue remain, and COLLIDE
is set in every group that owns a lane both write. -/
def Sys2Proof.Claims.CollidingResults : Prop :=
  ∀ (s : State) (core gid r : Nat) (g : Gang) (f h : Flight), s.gang gid = some g → g.core = core →
    s.tileWrites core = [] → (g.flights.filter fun x => decide (x.land ≤ s.beat)) = [f, h] → f.seq < h.seq →
    f.dest = .v r → h.dest = .v r → f.indexed = false → h.indexed = false → f.collide = 0 → h.collide = 0 →
    f.latch = false → h.latch = false → g.vAwait.find r = none →
    ∃ t g', exec (.resultLanding core) s = .next t ∧ t.gang gid = some g' ∧
      g'.v = writeLanes (writeLanes g.v r f.vals) r h.vals ∧
      Groups g g' fun k x y => y.s = x.s ∧
        y.collide = (x.collide || decide (∃ p ∈ f.vals, ∃ q ∈ h.vals, p.1 = q.1 ∧ p.1 / g.width = k))

/-- A landing writes where the destination is full and nothing else; two landings collide: the claims ResultsLand and CollidingResults together.
The model's own readings: log 45, 46, 47. -/
def Obligations.LandingAndCollision : Prop := Claims.ResultsLand ∧ Claims.CollidingResults

/-- R25, R27, R71, R130, R145: a long write fills its destination where that still awaits it, and writes nothing where a
later write has cancelled it; what an access loaded for a group that has ended is discarded. A division due is written in
the same way. -/
def Obligations.LongWritesFill : Prop :=
  ∀ (s : State) (gid w : Nat) (g : Gang) (l : Long), s.gang gid = some g → g.longs.find w = some l → l.acquire = false →
    let alive := fun (k : Nat) => !l.logged || g.liveGroups.contains k
    let byLane := l.vals.filter fun p => alive (p.1 / g.width)
    let byGroup := l.vals.filter fun p => alive p.1
    let Filled := fun (t : State) => ∃ g', t.gang gid = some g' ∧ g'.longs = g.longs.del w ∧ t.mem = s.mem ∧
      (∀ r, l.dest = .v r → g.vAwait.find r = some l.seq →
        g'.v = writeLanes g.v r byLane ∧ g'.vAwait = g.vAwait.del r ∧ g'.groups = g.groups) ∧
      (∀ r, l.dest = .v r → g.vAwait.find r ≠ some l.seq → g'.v = g.v ∧ g'.vAwait = g.vAwait ∧ g'.groups = g.groups) ∧
      (∀ r, l.dest = .pair r → g.vAwait.find r = some l.seq → g.vAwait.find (r + 1) = some l.seq →
        g'.v = writeLanes (writeLanes g.v r (byLane.map fun p => (p.1, p.2 % 2 ^ 32))) (r + 1)
          (byLane.map fun p => (p.1, p.2 / 2 ^ 32)) ∧ g'.groups = g.groups) ∧
      (∀ r, l.dest = .s r → g'.v = g.v ∧ Groups g g' fun k x y => y.c = x.c ∧
        (k < 4 → natBit l.groups k = true → x.sAwait.find r = some l.seq →
          y.sAwait = x.sAwait.del r ∧
          y.s = (valueFor byGroup k).elim x.s fun v => x.s.set r (BitVec.ofNat 64 v)) ∧
        (natBit l.groups k = false ∨ x.sAwait.find r ≠ some l.seq → y = x)) ∧
      (∀ n, l.dest = .c n → g'.v = g.v ∧ Groups g g' fun k x y => y.s = x.s ∧
        (k < 4 → natBit l.groups k = true → x.cAwait.find n = some l.seq →
          y.cAwait = x.cAwait.del n ∧
          y.c = (valueFor byGroup k).elim x.c fun v => putBit x.c n (v % 2 == 1)))
    (l.want = 0 → l.due ≤ s.time → ∃ t, exec (.longWriteFill gid w) s = .next t ∧ Filled t) ∧
    (l.want ≠ 0 ∨ s.time < l.due → exec (.longWriteFill gid w) s = .next s) ∧
    (∀ core j, ((s.core core).divider.filter fun x => decide (x.due ≤ s.time)) = [j] → j.gid = gid → j.long = w →
      ∃ t, exec (.dividerResult core) s = .next t ∧ Filled t ∧
        (t.core core).divider = (s.core core).divider.filter fun x => decide (s.time < x.due))

/-- R179 to R181: in the beat of a VRDX job's last bank, the lanes that name a register of the bank are read, D as it was
before the VRDX, and the result is on its way to land two beats later; a job that starts in the beat of its issue reads
its first bank as the bundle found it; while a register it reads is empty the job is held. -/
def Sys2Proof.Claims.IndexedReadFinishes : Prop :=
  ∀ (s : State) (core d b : Nat) (g : Gang) (j : IndexJob), s.gang j.gid = some g → g.core = core →
    (∀ i x, (i, x) ∈ s.gangs → x.core = core → ∀ f ∈ x.flights, s.beat < f.land) →
    (s.core core).index = [j] → (s.core core).indexAt ≤ s.beat → j.dest = some d → j.banks = [b] → j.collide = 0 →
    let named := j.names.filter fun p => p.2 % 8 == b && j.effective.getLsbD p.1
    let Finishes := fun (read : List (Nat × Nat)) => ∃ t g', exec (.indexJobLand core) s = .next t ∧
      t.gang j.gid = some g' ∧ (t.core core).index = [] ∧ g'.v = g.v ∧
      ∃ f, g'.flights = g.flights ++ [f] ∧ f.dest = .v d ∧ f.seq = j.seq ∧ f.land = s.beat + 2 ∧
        f.vals = j.vals ++ read ∧ (8 * (s.time / 4 + 2), .resultLanding core) ∈ t.agenda
    (j.started = true ∨ j.issued ≠ s.beat →
      ((∀ p ∈ named, p.2 ≠ d → g.vEmpty p.2 = false) → Finishes (named.map fun p => (p.1,
        if p.2 = d then (valueFor j.old p.1).getD 0 else (g.v.get (64 * p.2 + p.1)).toNat))) ∧
      ((∃ p ∈ named, p.2 ≠ d ∧ g.vEmpty p.2 = true) → ∃ t, exec (.indexJobLand core) s = .next t ∧
        t.gang j.gid = some g ∧ (t.core core).index = [{ j with started := true, blocked := true }] ∧
        (8 * (s.time / 4 + 1), .indexJobLand core) ∈ t.agenda)) ∧
    (∀ vals, j.started = false → j.issued = s.beat → j.first = some vals → Finishes vals)

/-- VRDX and VWRX queue their jobs, and a read ends in the beat of its last bank: the claims IndexedRegisterJobs and IndexedReadFinishes together. -/
def Obligations.IndexedRegisters : Prop := Claims.IndexedRegisterJobs ∧ Claims.IndexedReadFinishes

namespace Sys2Proof.Claims

open Sys2Proof.Machine

/-- An element of an access before it is performed. -/
def element (at_ addr data data2 : Nat) : Elem := ⟨at_, addr % 2 ^ 64, data, data2, false, false⟩

/-- An access that its gang can log: its sources are full, the log has a place, its elements are aligned, a store
meets no sealed template segment, and a register to be loaded can be had (R189, R190, R39). -/
def CanLog (s : State) (c : Cur) (g : Gang) (groups : List Nat) (srcs : List Src) (f : AccessForm)
    (dest : Option LDest) (es : List Elem) : Prop :=
  g.Full groups srcs ∧ g.log.length + logBefore c g < 8 ∧ (∀ e ∈ es, e.addr % f.width = 0) ∧
  (f.stores = true → ∀ e ∈ es, s.inSealed g.context e.addr f.width = false) ∧
  (∀ d, dest = some d → s.CanOwn c.gid d.vregs)

/-- The operation takes an operand-log entry with these elements, or does nothing with none (R187, R190). -/
def Logs (s : State) (c : Cur) (g : Gang) (op : Instr) (groups : List Nat) (srcs : List Src) (f : AccessForm)
    (dest : Option LDest) (es : List Elem) : Prop :=
  CanLog s c g groups srcs f dest es →
    exec op s = .next (if es = [] then s else s.issueAccess c f dest es groups)

/-- The address of a group access: A + B (R187). -/
def addrG (s : State) (c : Cur) (g : Gang) (a b : Operand) (k : Nat) : Nat := un s c g a k + un s c g b k

/-- The address of a lane access: A + B · width, with the scalar of the lane's group (R187). -/
def addrL (s : State) (c : Cur) (g : Gang) (a b : Operand) (w p : Nat) : Nat :=
  un s c g a (p / g.width) + vun s c g b p * w

/-- The address of a block access: four bytes a lane from the group's base (R187). -/
def addrB (s : State) (c : Cur) (g : Gang) (a : Operand) (p : Nat) : Nat :=
  un s c g a (p / g.width) + 4 * (p % g.width)

/-- An access by effective groups, or by effective lanes. -/
def LogsG (s : State) (c : Cur) (g : Gang) (gd : Guard) (op : Instr) (srcs : List Src) (n w : Nat) (acc : Access)
    (dest : Option LDest) (elem : Nat → Elem) : Prop :=
  Logs s c g op (g.effGroups gd) srcs ⟨n, w, acc, true⟩ dest ((g.effGroups gd).map elem)

def LogsL (s : State) (c : Cur) (g : Gang) (gd : Guard) (op : Instr) (srcs : List Src) (n w : Nat) (acc : Access)
    (dest : Option LDest) (elem : Nat → Elem) : Prop :=
  Logs s c g op (g.groupsOf (g.effLanes gd)) srcs ⟨n, w, acc, false⟩ dest ((g.effLanes gd).map elem)

/-- The bytes of a width. -/
def bytesOf : Width → Nat
  | .w1 => 1 | .w2 => 2 | .w4 => 4 | .w8 => 8

/-- A page of a core's TLB that an access takes, and what it needs of it (R261, R262). -/
def HasPage (s : State) (g : Gang) (addr : Nat) (need : Need) (page : TlbEntry) : Prop :=
  addr < 2 ^ 48 ∧ (s.core g.core).tlbFind g.context addr = some page ∧ s.allows page addr need = true

end Sys2Proof.Claims

/-! ## Memory -/

/-- R187, R188, R190, R192: loads and stores of every width enter the operand log with their elements. -/
def Obligations.LoadsAndStores : Prop :=
  ∀ (s : State) (c : Cur) (g : Gang) (gd : Guard) (w : Width) (d : SReg) (v : VReg) (a b e : Operand), s.Issues c g →
    let n := bytesOf w
    let dest := if n = 8 then LDest.pair v.val else .v v.val
    let data := fun (p : Nat) => if n = 8 then psrc c g e p else vun s c g e p
    let dsrc := if n = 8 then Src.pair e else .vec e
    LogsG s c g gd (.lds gd w d a b) [.sca a, .sca b] 1 n (.load true) (some (.s d.val))
      (fun k => element k (addrG s c g a b k) 0 0) ∧
    LogsG s c g gd (.ldsw gd w d a b) [.sca a, .sca b] 2 n (.load false) (some (.s d.val))
      (fun k => element k (addrG s c g a b k) 0 0) ∧
    LogsG s c g gd (.sts gd w a b e) [.sca a, .sca b, .sca e] 3 n .store none
      (fun k => element k (addrG s c g a b k) (un s c g e k) 0) ∧
    LogsL s c g gd (.ldv gd w v a b) [.sca a, .vec b] 4 n (.load true) (some dest)
      (fun p => element p (addrL s c g a b n p) 0 0) ∧
    LogsL s c g gd (.ldvw gd w v a b) [.sca a, .vec b] 5 n (.load false) (some dest)
      (fun p => element p (addrL s c g a b n p) 0 0) ∧
    LogsL s c g gd (.stv gd w a b e) [.sca a, .vec b, dsrc] 6 n .store none
      (fun p => element p (addrL s c g a b n p) (data p) 0) ∧
    LogsL s c g gd (.ldvb gd v a) [.sca a] 7 4 (.load false) (some (.v v.val))
      (fun p => element p (addrB s c g a p) 0 0) ∧
    LogsL s c g gd (.stvb gd a e) [.sca a, .vec e] 8 4 .store none
      (fun p => element p (addrB s c g a p) (vun s c g e p) 0)

/-- R187, R194: every atomic enters the operand log with its elements; ATCAS carries D as its new value. -/
def Obligations.Atomics : Prop :=
  ∀ (s : State) (c : Cur) (g : Gang) (gd : Guard) (sc : AtScope) (d : VReg) (a b e : Operand), s.Issues c g →
    let A := fun (op : Instr) (n : Nat) => LogsL s c g gd op [.sca a, .vec b, .vec e] n 4 (.atomic n sc)
      (some (.v d.val)) fun p => element p (addrL s c g a b 4 p) (vun s c g e p) 0
    A (.atadd gd sc d a b e) 0x10 ∧ A (.atmin gd sc d a b e) 0x11 ∧ A (.atmax gd sc d a b e) 0x12 ∧
    A (.atminw gd sc d a b e) 0x13 ∧ A (.atmaxw gd sc d a b e) 0x14 ∧ A (.atand gd sc d a b e) 0x15 ∧
    A (.ator gd sc d a b e) 0x16 ∧ A (.atxor gd sc d a b e) 0x17 ∧ A (.atxch gd sc d a b e) 0x18 ∧
    A (.atfadd gd sc d a b e) 0x1A ∧
    LogsL s c g gd (.atcas gd sc d a b e) [.sca a, .vec b, .vec e, .vreg d.val false] 0x19 4 (.atomic 0x19 sc)
      (some (.v d.val)) fun p => element p (addrL s c g a b 4 p) (vun s c g e p) (g.vreg d.val p).toNat

namespace Sys2Proof.Claims

open Sys2Proof.Machine

/-- Where an access of `n` bytes an element stops (R42, R189, R190): elements `es` at the addresses given, each standing for a
lane. A full log holds the bundle; a misaligned element traps ALIGN with the lowest such address and the lanes concerned; else
an element that is stored into a sealed template segment traps TEMPLATE. -/
def AccessStops (s : State) (c : Cur) (g : Gang) (op : Instr) (groups : List Nat) (srcs : List Src) (es : List Nat)
    (lane : Nat → Nat) (n : Nat) (stores : Bool) (address : Nat → Nat) : Prop :=
  let addr := fun (k : Nat) => address k % 2 ^ 64
  let bad := es.filter fun k => addr k % n != 0
  let hit := es.filter fun k => stores && s.inSealed g.context (addr k) n
  let By := fun (t : Trap) (ks : List Nat) => t.slot = c.slot.order ∧ t.lmask = laneMask (ks.map lane) ∧
    t.gmask = groupMask (ks.map fun k => lane k / g.width) ∧ t.detail1 = 0
  es ≠ [] →
  (g.log.length + logBefore c g < 8 → g.Full groups srcs →
    (bad ≠ [] → ∃ t, Traps s c op t ∧ t.code = 0x0B ∧ By t bad ∧ (∃ k ∈ bad, t.detail0 = addr k) ∧
      ∀ k ∈ bad, t.detail0 ≤ addr k) ∧
    (bad = [] → hit ≠ [] → ∃ t, Traps s c op t ∧ t.code = 0x07 ∧ By t hit ∧ t.detail0 = 0)) ∧
  (8 ≤ g.log.length + logBefore c g → Waits s op .unitFull)

end Sys2Proof.Claims

/-- R189, R190, R42: every access with a misaligned element traps ALIGN with the lowest such address; an aligned store or
atomic into a sealed template segment traps TEMPLATE; a full operand log holds the bundle. The model's own readings: log 24,
90, 91. -/
def Obligations.AccessTraps : Prop :=
  ∀ (s : State) (c : Cur) (g : Gang) (gd : Guard) (w : Width) (sc : AtScope) (d : SReg) (v : VReg) (a b e : Operand),
    s.Issues c g → c.mode = .whole →
    let n := bytesOf w
    let dsrc := if n = 8 then Src.pair e else .vec e
    let ByGroup := fun (op : Instr) (srcs : List Src) (stores : Bool) =>
      AccessStops s c g op (g.effGroups gd) srcs (g.effGroups gd) (fun k => k * g.width) n stores (addrG s c g a b)
    let ByLane := fun (op : Instr) (srcs : List Src) (n : Nat) (stores : Bool) (address : Nat → Nat) =>
      AccessStops s c g op (g.groupsOf (g.effLanes gd)) srcs (g.effLanes gd) id n stores address
    ByGroup (.lds gd w d a b) [.sca a, .sca b] false ∧ ByGroup (.ldsw gd w d a b) [.sca a, .sca b] false ∧
    ByGroup (.sts gd w a b e) [.sca a, .sca b, .sca e] true ∧
    ByLane (.ldv gd w v a b) [.sca a, .vec b] n false (addrL s c g a b n) ∧
    ByLane (.ldvw gd w v a b) [.sca a, .vec b] n false (addrL s c g a b n) ∧
    ByLane (.stv gd w a b e) [.sca a, .vec b, dsrc] n true (addrL s c g a b n) ∧
    ByLane (.ldvb gd v a) [.sca a] 4 false (addrB s c g a) ∧ ByLane (.stvb gd a e) [.sca a, .vec e] 4 true (addrB s c g a) ∧
    (∀ i ∈ ([.atadd gd sc v a b e, .atmin gd sc v a b e, .atmax gd sc v a b e, .atminw gd sc v a b e, .atmaxw gd sc v a b e,
        .atand gd sc v a b e, .ator gd sc v a b e, .atxor gd sc v a b e, .atxch gd sc v a b e, .atfadd gd sc v a b e] : List Instr),
      ByLane i [.sca a, .vec b, .vec e] 4 true (addrL s c g a b 4)) ∧
    ByLane (.atcas gd sc v a b e) [.sca a, .vec b, .vec e, .vreg v.val false] 4 true (addrL s c g a b 4)

/-- R188, R268, R288: a load of one group whose bytes lie in its core's L1 under an unexpired lease fills its register
24 cycles later with the little-endian value, sign-extended; no memory changes. -/
def Sys2Proof.Claims.LoadHits : Prop :=
  ∀ (s : State) (c : Cur) (g : Gang) (gd : Guard) (w : Width) (d : SReg) (a b : Operand) (k : Nat) (page : TlbEntry)
    (l : Line), s.Issues c g → s.gang c.gid = some g → g.park ≠ .stopped → g.park ≠ .killed → g.log = [] → logBefore c g < 8 →
    g.effGroups gd = [k] → g.Full [k] [.sca a, .sca b] → g.orderMark = none → (∀ i ∈ g.orderPubs, i ∉ g.pubs) →
    let n := bytesOf w
    let addr := addrG s c g a b k % 2 ^ 64
    let key := page.key addr
    addr % n = 0 → HasPage s g addr .read page → page.sys = false →
    (s.core g.core).l1.find (key / 128) = some l → l.hits s.time (key % 128) n = true →
    (s.core g.core).writeWaits (key / 128) (key % 128) n = false →
    let x := natOfBytes (l.bytes.getRun (key % 128) n)
    ∃ t m id q, exec (.lds gd w d a b) s = .next t ∧ t.mem = s.mem ∧ t.gang c.gid = some m ∧ m.log = [] ∧
      m.longs.find id = some q ∧ q.dest = .s d.val ∧ q.seq = c.seq ∧ q.want = 0 ∧ q.due = s.time + 24 ∧
      q.vals = [(k, if natBit x (8 * n - 1) then 2 ^ 64 - (2 ^ (8 * n) - x) else x)] ∧
      (2 * (s.time + 24) + 1, .longWriteFill c.gid id) ∈ t.agenda

/-- R190, R192, R268: a store of one group to a page that the L1 may keep writes its bytes, little-endian, into the
line of its core's L1 and marks them dirty; the home's memory and every other line stay as they were. -/
def Sys2Proof.Claims.StoreHits : Prop :=
  ∀ (s : State) (c : Cur) (g : Gang) (gd : Guard) (w : Width) (a b e : Operand) (k : Nat) (page : TlbEntry)
    (l : Line), s.Issues c g → s.gang c.gid = some g → g.park ≠ .stopped → g.park ≠ .killed → g.log = [] → logBefore c g < 8 →
    g.effGroups gd = [k] → g.Full [k] [.sca a, .sca b, .sca e] → g.orderMark = none →
    (∀ i ∈ g.orderPubs, i ∉ g.pubs) →
    let n := bytesOf w
    let addr := addrG s c g a b k % 2 ^ 64
    let key := page.key addr
    let line := key / 128
    addr % n = 0 → s.inSealed g.context addr n = false → HasPage s g addr .write page → page.sys = false →
    (s.core g.core).l1.find line = some l → (s.core g.core).writeWaits line (key % 128) n = false →
    ∃ t m l', exec (.sts gd w a b e) s = .next t ∧ t.mem = s.mem ∧ t.tiles = s.tiles ∧ t.gang c.gid = some m ∧
      m.log = [] ∧ m.v = g.v ∧ (∀ x, g.group k = some x → ∃ y, m.group k = some y ∧ y.visible = true ∧ y.s = x.s) ∧
      (t.core g.core).l1.find line = some l' ∧
      l'.bytes = l.bytes.setRun (key % 128) (bytesLE n (un s c g e k)) ∧
      l'.dirty = l.dirty ||| spanMask (key % 128) n ∧
      (∀ q, q ≠ line → (t.core g.core).l1.find q = (s.core g.core).l1.find q) ∧
      (∀ i, i ≠ g.core → t.core i = s.core i)

/-- A load hit fills 24 cycles later; a store hit changes only its bytes of the line: the claims LoadHits and StoreHits together.
The model's own readings: log 95. -/
def Obligations.LevelOneHits : Prop := Claims.LoadHits ∧ Claims.StoreHits

/-- R273, R274, R272: written-back bytes reach their home: those bytes of memory change and no other, and the global
completion time joins the HORIZON of the gang, or the core's eviction horizon. -/
def Sys2Proof.Claims.WritebackReachesHome : Prop :=
  ∀ (s : State) (id : Nat) (w : WriteBack), s.writebacks.find id = some w → Memory.wf s.mem = true →
    let gct := max s.time (s.otherExpiry w.line w.core)
    ∃ t, exec (.writebackArrival id) s = .next t ∧ t.writebacks = s.writebacks.del id ∧
      (∀ a, (∀ p ∈ w.bytes, a ≠ 128 * w.line + p.1) → t.byte a = s.byte a) ∧
      ((w.bytes.map Prod.fst).Nodup → ∀ p ∈ w.bytes, t.byte (128 * w.line + p.1) = p.2) ∧
      (∀ gid g, w.cause = .gang gid ∨ w.cause = .sys gid → s.gang gid = some g →
        ∃ g', t.gang gid = some g' ∧ g'.horizon = max g.horizon gct ∧ g'.v = g.v) ∧
      (w.cause = .core → (t.core w.core).evictHorizon = max (s.core w.core).evictHorizon gct)

/-- R194, R195, R276: an atomic at its home replaces the word by the operation's result on the old value, which fills
the destination eight cycles later; no other byte of memory changes. -/
def Sys2Proof.Claims.AtomicAtHome : Prop :=
  ∀ (s : State) (id lane key x n : Nat) (a : HomeAtomic) (g : Gang) (q : Long), s.atomics.find id = some a →
    a.elems = [(lane, key, x, n)] → x < 2 ^ 32 → n < 2 ^ 32 → Memory.wf s.mem = true →
    s.gang a.gid = some g → g.longs.find a.long = some q → q.want = 1 →
    let old := s.natAt key 4
    let signed := fun (y : Nat) => (BitVec.ofNat 32 y).toInt
    ∃ t new g', exec (.atomicAtHome id) s = .next t ∧ t.atomics = s.atomics.del id ∧ t.natAt key 4 = new ∧
      (∀ b, b < key ∨ key + 4 ≤ b → t.byte b = s.byte b) ∧ t.gang a.gid = some g' ∧ g'.v = g.v ∧
      g'.horizon = max g.horizon (max s.time (s.otherExpiry (key / 128) a.core)) ∧
      (∃ q', g'.longs.find a.long = some q' ∧ q'.vals = q.vals ++ [(lane, old)] ∧ q'.want = 0 ∧
        (2 * max q'.due s.time + 1, .longWriteFill a.gid a.long) ∈ t.agenda ∧ s.time + 8 ≤ q'.due) ∧
      (a.op = 0x10 → new = (old + x) % 2 ^ 32) ∧ (a.op = 0x11 → new = if signed old < signed x then old else x) ∧
      (a.op = 0x12 → new = if signed x < signed old then old else x) ∧ (a.op = 0x13 → new = min old x) ∧
      (a.op = 0x14 → new = max old x) ∧ (a.op = 0x15 → new = old &&& x) ∧ (a.op = 0x16 → new = old ||| x) ∧
      (a.op = 0x17 → new = old ^^^ x) ∧ (a.op = 0x18 → new = x) ∧ (a.op = 0x19 → new = if old = x then n else old) ∧
      (a.op = 0x1A → new = (fAdd fp32 .rne old x).1 % 2 ^ 32)

/-- Write-backs and atomics at the home change their own bytes and no other: the claims WritebackReachesHome and AtomicAtHome together. -/
def Obligations.MemoryAtHome : Prop := Claims.WritebackReachesHome ∧ Claims.AtomicAtHome

/-- R191, R268, R271, R273, R276, R290: a fetched line fills under its lease; its dirty bytes stay, bytes the core has
written back since the fetch began and that are still on their way are kept, its other bytes are the home's, and bytes that
an atomic of the core is on its way to stay invalid; the one load that waited for it is delivered. -/
def Sys2Proof.Claims.LineFills : Prop :=
  ∀ (s : State) (core id : Nat) (f : LineFetch) (l : Line), (s.core core).fetches.find id = some f →
    f.bypass = false → f.sealedLine = false → (s.core core).l1.find f.line = some l → l.bytes.wf = true →
    (f.waiters = [] → ∃ t l', exec (.l1Fill core id) s = .next t ∧ t.mem = s.mem ∧
      (t.core core).fetches = (s.core core).fetches.del id ∧ (t.core core).l1.find f.line = some l' ∧
      l'.expiry = some (s.time + f.lease) ∧ l'.dirty = l.dirty ∧
      (∀ o < 128, l'.valid.getLsbD o = (l.dirty.getLsbD o || !(s.atomicsOut core f.line id).getLsbD o)) ∧
      (∀ o < 128, l'.bytes.get o = if l.dirty.getLsbD o then l.bytes.get o
        else match (s.bytesBack core f.line id).find? fun p => p.1 == o with
          | some p => p.2
          | none => s.byte (128 * f.line + o)) ∧
      (2 * (s.time + f.lease), .leaseExpiry core f.line) ∈ t.agenda) ∧
    (∀ w g q, f.waiters = [w] → w.atomic = none → w.store = none → w.have_ = [] → w.signed = false →
      w.offset + w.width ≤ 128 →
      s.gang w.gid = some g → g.longs.find w.long = some q → q.want = 1 →
      ∃ t g' q', exec (.l1Fill core id) s = .next t ∧ t.mem = s.mem ∧ t.gang w.gid = some g' ∧
        g'.longs.find w.long = some q' ∧ q'.want = 0 ∧
        q'.vals = q.vals ++ [(w.at_, natOfBytes ((List.range w.width).map fun i =>
          s.byte (128 * f.line + (w.offset + i))))])

/-- R271, R273, R275: an expired line keeps its dirty bytes alone; a line dirty for 2,048 cycles is written back; an
acquire's drop leaves dirty bytes and the lines of sealed segments. -/
def Sys2Proof.Claims.LinesAge : Prop :=
  ∀ (s : State) (core line gid : Nat) (l : Line), (s.core core).l1.find line = some l →
    (∀ e, l.expiry = some e → e ≤ s.time →
      (l.dirty ≠ 0 → ∃ t, exec (.leaseExpiry core line) s = .next t ∧ t.mem = s.mem ∧
        (t.core core).l1.find line = some { l with valid := l.dirty }) ∧
      (l.dirty = 0 → Tbl.wf (s.core core).l1 = true → ∃ t, exec (.leaseExpiry core line) s = .next t ∧
        t.mem = s.mem ∧ (t.core core).l1.find line = none)) ∧
    (l.dirty ≠ 0 → l.since + 2048 ≤ s.time → ∃ t id w l', exec (.dirtyTimeout core line) s = .next t ∧
      t.mem = s.mem ∧ t.writebacks.find id = some w ∧ w.line = line ∧ w.core = core ∧ w.cause = .core ∧
      w.bytes = ((List.range 128).filter fun o => l.dirty.getLsbD o).map (fun o => (o, l.bytes.get o)) ∧
      (t.core core).l1.find line = some l' ∧ l'.dirty = 0 ∧ l'.bytes = l.bytes) ∧
    ((∀ e, l.expiry = some e → l.dirty ≠ 0 → Tbl.wf (s.core core).l1 = true →
      ∃ t, exec (.acquireDrop core gid) s = .next t ∧ t.mem = s.mem ∧
        (t.core core).l1.find line = some { l with valid := l.dirty }) ∧
     (∀ e, l.expiry = some e → l.dirty = 0 → Tbl.wf (s.core core).l1 = true →
      ∃ t, exec (.acquireDrop core gid) s = .next t ∧ (t.core core).l1.find line = none))

/-- Fills, lease expiry, dirty timeout and acquire drops of L1 lines: the claims LineFills and LinesAge together.
The model's own readings: log 17, 95, 97. -/
def Obligations.LevelOneLines : Prop := Claims.LineFills ∧ Claims.LinesAge

/-- R66 to R68, R188, R193: in precise mode LDL reads the pad's bytes within its bounds, STL writes them when it lands, and an
offset beyond the pad traps BOUNDS with the lanes that reach it. In guard mode a byte in a guard reads as zero and leaves
GUARDPEND with the place of the touch, and a byte stored there is discarded. -/
def Obligations.PadAccesses : Prop :=
  ∀ (s : State) (c : Cur) (g : Gang) (gd : Guard) (w : Width) (v : VReg) (b e : Operand), s.Issues c g →
    let n := bytesOf w
    let dest := if n = 8 then LDest.pair v.val else .v v.val
    let data := fun (p : Nat) => if n = 8 then psrc c g e p else vun s c g e p
    let dsrc := if n = 8 then Src.pair e else .vec e
    let eff := g.effLanes gd
    let offset := vun s c g b
    let delay := if (s.team g.team).elim true fun t => t.padCore == g.core then 12 else 40
    (s.padGuarded g = false → eff ≠ [] → (∀ p ∈ eff, offset p + n ≤ s.padBytes g) → s.gang c.gid = some g →
      (g.ReadyV gd [.vec b] → s.CanOwn c.gid dest.vregs →
        ∃ t m id q, exec (.ldl gd w v b) s = .next t ∧ t.mem = s.mem ∧ t.gang c.gid = some m ∧ m.v = g.v ∧
          m.longs.find id = some q ∧ q.dest = dest ∧ q.seq = c.seq ∧ q.want = 0 ∧ q.due = s.time + delay ∧
          q.vals = eff.map (fun p =>
            (p, natOfBytes ((List.range n).map fun i => (s.padOf c.gid g).get (offset p + i)))) ∧
          (2 * (s.time + delay) + 1, .longWriteFill c.gid id) ∈ t.agenda) ∧
      (g.ReadyV gd [.vec b, dsrc] →
        ∃ t m id q, exec (.stl gd w b e) s = .next t ∧ t.mem = s.mem ∧ t.gang c.gid = some m ∧ m.v = g.v ∧
          m.stls = g.stls ++ [id] ∧ t.padWrites.find id = some q ∧ q.gid = c.gid ∧ q.team = g.team ∧
          q.bytes = eff.flatMap (fun p => (List.range n).map fun i =>
            (offset p + i, BitVec.ofNat 8 (data p / 2 ^ (8 * i)))) ∧
          (∀ k ∈ g.groupsOf eff, ∀ x, g.group k = some x → ∃ y, m.group k = some y ∧ y.visible = true) ∧
          (2 * (s.time + delay), .stlLand c.gid id) ∈ t.agenda)) ∧
    (s.padGuarded g = false → c.mode = .whole → (∃ p ∈ eff, s.padBytes g < offset p + n) →
      let Beyond := fun (i : Instr) => ∃ t, Traps s c i t ∧ t.code = 0x05 ∧ t.detail1 = 0 ∧
        t.lmask = laneMask (eff.filter fun p => s.padBytes g < offset p + n) ∧ t.detail0 = t.lmask
      (g.ReadyV gd [.vec b] → Beyond (.ldl gd w v b)) ∧ (g.ReadyV gd [.vec b, dsrc] → Beyond (.stl gd w b e))) ∧
    (s.padGuarded g = true → s.gang c.gid = some g →
      let at_ := fun (o : Nat) => padOffset true (s.padBytes g) o
      let Touched := fun (m : Gang) (p : Nat) => ∀ x, g.group (p / g.width) = some x → ∃ y, m.group (p / g.width) = some y ∧
        y.guardPend = true ∧ (x.guardPend = true → y.touch = x.touch) ∧
        (x.guardPend = false → at_ (offset p) = none → y.touch = some
          { lane := p, position := guardPos (s.padBytes g) (offset p), bank := guardPos (s.padBytes g) (offset p) / 4 % 64 })
      (g.ReadyV gd [.vec b] → s.CanOwn c.gid dest.vregs → ∃ t m id q, exec (.ldl gd w v b) s = .next t ∧
        t.gang c.gid = some m ∧ (eff = [] ∨ m.longs.find id = some q ∧
        q.vals = eff.map (fun p => (p, natOfBytes ((List.range n).map fun i =>
          (at_ (offset p + i)).elim 0 fun x => (s.padOf c.gid g).get x)))) ∧
        ∀ p, eff = [p] → (∃ i < n, at_ (offset p + i) = none) → Touched m p) ∧
      (g.ReadyV gd [.vec b, dsrc] → ∃ t m id q, exec (.stl gd w b e) s = .next t ∧ t.gang c.gid = some m ∧
        (eff = [] ∨ t.padWrites.find id = some q ∧ q.bytes = eff.flatMap (fun p => (List.range n).filterMap fun i =>
          (at_ (offset p + i)).map fun x => (x, BitVec.ofNat 8 (data p / 2 ^ (8 * i))))) ∧
        ∀ p, eff = [p] → (∃ i < n, at_ (offset p + i) = none) → Touched m p)) ∧
    (∀ P ≤ 2 ^ 21, ∃ j, P + 512 ≤ 2 ^ j ∧ 2 ^ j < 2 * (P + 512) ∧ ∀ o, guardPos P o = (o + 256) % 2 ^ j ∧
      padOffset true P o = (if 256 ≤ (o + 256) % 2 ^ j ∧ (o + 256) % 2 ^ j < 256 + P then some ((o + 256) % 2 ^ j - 256) else none)) ∧
    (∀ gid id q g', s.padWrites.find id = some q → s.gang gid = some g' → ∃ t m,
      exec (.stlLand gid id) s = .next t ∧ t.mem = s.mem ∧ t.padWrites = s.padWrites.del id ∧
      t.gang gid = some m ∧ m.stls = g'.stls.filter (fun x => x != id) ∧ m.v = g'.v ∧
      ∀ x, s.team q.team = some x → ∃ y, t.team q.team = some y ∧ y.pad = x.pad.setAll q.bytes)

/-- R196, R265, R274, R275, R289: a fence at group scope, or at team scope in a team of one core, orders the log alone; at a
wider scope it begins its release and acquire. When what the release waits for is done, the core's dirty bytes go to
their homes; when they are there and TIME has passed HORIZON + 4, the acquire takes its eight cycles.
The model's own readings: log 97, 98. -/
def Obligations.FencesAndReleases : Prop :=
  (∀ (s : State) (c : Cur) (g : Gang) (gd : Guard) (sc : Scope), s.Issues c g → s.gang c.gid = some g →
    let wide := sc = .package ∨ sc = .system ∨ (sc = .team ∧ ∃ t, s.team g.team = some t ∧ 1 < t.cores.length)
    (g.effGroups gd = [] → exec (.facq gd sc) s = .next s ∧ exec (.frel gd sc) s = .next s ∧
      exec (.far gd sc) s = .next s) ∧
    (g.effGroups gd ≠ [] →
      (¬wide → exec (.facq gd sc) s = .next (s.updGang c.gid fun l => { l with orderMark := some c.seq }) ∧
        ∀ i ∈ ([.frel gd sc, .far gd sc] : List Instr), exec i s =
          .next (s.updGang c.gid fun l => { l with orderMark := some c.seq, orderPubs := l.pubs })) ∧
      (wide → g.sync = none → ∀ q ∈ ([(.facq gd sc, false, true), (.frel gd sc, true, false), (.far gd sc, true, true)] :
          List (Instr × Bool × Bool)),
        ∃ t o, exec q.1 s = .next t ∧ t.gang c.gid = some { g with sync := some o } ∧ t.mem = s.mem ∧
          o.releases = q.2.1 ∧ o.drops = q.2.2 ∧ o.stage = 0 ∧ o.logMark = c.seq ∧
          (o.releases = true → o.pubs = g.pubs)))) ∧
  (∀ (s : State) (gid : Nat) (g : Gang) (o : SyncOp), s.gang gid = some g → g.sync = some o →
    s.syncBarOver g = false → (∀ x, s.team g.team = some x → x.phase ≠ .done) →
    (s.syncReady gid = true → o.stage = 0 → o.releases = true → ∃ t g', exec (.releaseWaitEnd gid) s = .next t ∧
      t.mem = s.mem ∧ t.gang gid = some g' ∧ g'.sync = some { o with stage := 1 } ∧
      g'.horizon = max g.horizon (s.core g.core).evictHorizon) ∧
    (s.syncReady gid = true → (o.stage ≠ 0 ∨ o.releases = false) → o.after = [] → (∀ i ∈ o.pubs, i ∉ g.pubs) → o.drops = true →
      ∃ t g', exec (.releaseWaitEnd gid) s = .next t ∧ t.gang gid = some g' ∧
        g'.sync = some { o with stage := 2, dropAt := s.time + 8, after := [] } ∧
        (2 * (s.time + 8), .acquireDrop g.core gid) ∈ t.agenda) ∧
    (s.syncReady gid = true → (o.stage ≠ 0 ∨ o.releases = false) → o.after = [] → (∀ i ∈ o.pubs, i ∉ g.pubs) → o.drops = false →
      ∃ t g', exec (.releaseWaitEnd gid) s = .next t ∧ t.gang gid = some g' ∧ g'.sync = none))

namespace Sys2Proof.Claims

open Sys2Proof.Machine

/-- The first byte of the word a lane's tile view reaches in an A-space slot of a core (R57, R64): a row, a column, or a
diagonal of 64 by 64 words. -/
def viewByte (core slot idx p : Nat) : Dir → Nat
  | .row => (core * 1024 + slot) * 16384 + 256 * idx + 4 * p
  | .column => (core * 1024 + slot) * 16384 + 256 * p + 4 * idx
  | .diagonal => (core * 1024 + slot) * 16384 + 256 * p + 4 * ((p + idx) % 64)
  | .antiDiagonal => (core * 1024 + slot) * 16384 + 256 * p + 4 * ((idx + 64 - p) % 64)

end Sys2Proof.Claims

/-! ## Tiles and transfers -/

/-- R197, R198, R64: TLD reads and TST writes the words of the view three beats after issue, and a dead handle or a tile
of B-space traps. -/
def Sys2Proof.Claims.TileViews : Prop :=
  ∀ (s : State) (c : Cur) (g : Gang) (gd : Guard) (d : VReg) (v : View) (b e : Operand),
    s.Issues c g → g.effLanes gd ≠ [] →
    let h := g.handle v.h.val
    let gs := g.groupsOf (g.effLanes gd)
    let words := fun (slot : Nat) => (g.effLanes gd).map fun p =>
      (p, viewByte g.core slot (un s c g b (p / g.width) % 64) p v.dir)
    (∀ t, h.state ≠ .free → s.spaceOf g h = false → s.tileOf g h = some t → s.busyW g.core t = 0 →
      (g.Full gs [.sca b] → s.CanOwn c.gid [d.val] →
        exec (.tld gd d v b) s = .next (s.land c 3 (.tileLoad d.val (words t.slot)) [] [] true)) ∧
      (g.Full gs [.sca b, .vec e] → s.gang c.gid = some g → h.state = .live → s.busyR g.core t = 0 →
        (∀ id r, t.record = some id → s.record g.team id = some r → ∀ p ∈ r.slots, p.1 = g.core) →
        exec (.tst gd v b e) s = .next (s.land c 3 (.tile (words t.slot))
          ((g.effLanes gd).map fun p => (p, vun s c g e p)) [] false))) ∧
    (c.mode = .whole → g.Full gs [.sca b] → h.state = .free →
      Traps s c (.tld gd d v b) (c.trap 0x04 (groupMask gs) 0 v.h.val h.gen.toNat)) ∧
    (c.mode = .whole → g.Full gs [.sca b] → h.state ≠ .free → s.spaceOf g h = true →
      Traps s c (.tld gd d v b) (c.trap 0x0F (groupMask gs) 0 v.h.val h.gen.toNat)) ∧
    (c.mode = .whole → g.Full gs [.sca b, .vec e] → h.state = .aliasRO →
      Traps s c (.tst gd v b e) (c.trap 0x0F (groupMask gs) 0 v.h.val h.gen.toNat))

/-- R198, R247, R248, R250: tile stores and loads in their beat, the pair bridge, and the end of a clear. -/
def Obligations.TileEvents : Prop :=
  ∀ (s : State),
    (∀ core gid lane a v, s.tileWrites core = [(gid, lane, a, v)] → ∃ t, exec (.resultLanding core) s = .next t ∧
      t.tiles = s.tiles.setRun a (bytesLE 4 v) ∧ t.mem = s.mem) ∧
    (∀ core gid g f r ws, s.gang gid = some g → g.core = core → s.tileWrites core = [] →
      (g.flights.filter fun x => decide (x.land ≤ s.beat)) = [f] → f.dest = .tileLoad r ws → f.indexed = false →
      f.flags = [] → g.vAwait.find r = none → ∃ t g', exec (.resultLanding core) s = .next t ∧
        t.gang gid = some g' ∧ t.tiles = s.tiles ∧ g'.p = g.p ∧
        g'.v = writeLanes g.v r (ws.map fun w => (w.1, natOfBytes (s.tiles.getRun w.2 4)))) ∧
    (∀ id j bs, s.bridges.find id = some j → j.bytes = some bs → ∃ t, exec (.partnerSlotWrite id) s = .next t ∧
      t.bridges = s.bridges.del id ∧ t.mem = s.mem ∧
      t.tiles = s.tiles.setAll (bs.map fun p => (tileKey j.core j.bspace j.slot p.1, p.2))) ∧
    (∀ id j, s.bridges.find id = some j → j.bytes = none → s.tiles.wf = true → j.slot < 512 → j.from_.2 < 512 →
      ∃ t, exec (.partnerSlotFill id) s = .next t ∧ t.bridges = s.bridges.del id ∧ t.mem = s.mem ∧
        (∀ i < 16384, t.tiles.get (tileKey j.core j.bspace j.slot i) =
          s.tiles.get (tileKey j.from_.1 j.bspace j.from_.2 i)) ∧
        (∀ a, (a < tileKey j.core j.bspace j.slot 0 ∨ tileKey j.core j.bspace j.slot 0 + 16384 ≤ a) →
          t.tiles.get a = s.tiles.get a)) ∧
    (∀ gid id j, s.clears.find id = some j → ∃ t, exec (.hallocClearDone gid id) s = .next t ∧
      t.clears = s.clears.del id ∧ t.mem = s.mem ∧ t.tiles = s.tiles)

/-- R199: XSV spreads a group's scalar over its lanes; XVS gathers one lane, or two adjacent ones, into a scalar. -/
def Sys2Proof.Claims.RegisterTransfers : Prop :=
  ∀ (s : State) (c : Cur) (g : Gang) (gd : Guard) (two : Bool) (d : SReg) (v : VReg) (a b : Operand),
    s.Issues c g → g.effGroups gd ≠ [] →
    let eff := g.effGroups gd
    let lane := fun (k i : Nat) => if i < g.width then vun s c g a (k * g.width + i) else 0
    (g.Full eff [.sca a] → s.CanOwn c.gid [v.val] → exec (.xsv gd v a) s = .next (s.land c 2 (.v v.val)
      (eff.flatMap fun k => (List.range g.width).map fun i => (k * g.width + i, un s c g a k % 2 ^ 32)) [] true)) ∧
    (g.Full eff [.vec a, .sca b] → exec (.xvs gd two d a b) s = .next (s.land c 2 (.s d.val)
      (eff.map fun k => (k, lane k (un s c g b k) + if two then lane k (un s c g b k + 1) * 2 ^ 32 else 0)) [] true))

/-- TLD, TST, XSV and XVS: the claims TileViews and RegisterTransfers together. The model's own reading: log 122. -/
def Obligations.TilesAndTransfers : Prop := Claims.TileViews ∧ Claims.RegisterTransfers

namespace Sys2Proof.Claims

open Sys2Proof.Machine

/-- An M-slot operation that its queue can take: its guard is settled and met by some group, and fewer than four
operations wait (R17, R232, R243). -/
def MatrixReady (s : State) (g : Gang) (gd : Guard) : Prop :=
  guardPending g gd = false ∧ g.effConds gd ≠ [] ∧ (s.core g.core).matQueue.length < 4

/-- A matrix operation with nothing but its kind, banks, tiles and time to say. -/
def matOp (c : Cur) (g : Gang) (kind : MatKind) (bank : Bank) (src : Option (Bool × Nat × Option Nat))
    (srcB : Option (Nat × Option Nat)) (dst : Option (Bool × Nat × Option Nat)) (dur : Nat) : MatOp :=
  { gid := c.gid, team := g.team, kind := kind, phys := g.phys bank.val, other := g.phys (pairOf bank.val),
    odd := bank.val % 2 == 1, src := src, srcB := srcB, dst := dst, cowFrom := none, dur := dur, notBefore := 0,
    seq := c.seq }

end Sys2Proof.Claims

/-! ## The matrix unit -/

/-- R235 to R243: the M-slot operations queue for the array with their banks, tiles and times. -/
def Sys2Proof.Claims.MatrixOperationsQueue : Prop :=
  ∀ (s : State) (c : Cur) (g : Gang) (gd : Guard) (d : Bank) (v : View) (h : Handle) (f : Format) (add : Bool),
    s.Issues c g → MatrixReady s g gd → d.val < g.banks.length →
    exec (.mzero gd d) s = .next (s.queueMat g.core (matOp c g .zero d none none none 4)) ∧
    (∀ t, (g.handle h.val).state ≠ .free → s.spaceOf g (g.handle h.val) = false → s.tileOf g (g.handle h.val) = some t →
      exec (.mfill gd d h) s = .next (s.queueMat g.core
        (matOp c g .fill d (some (t.bspace, t.slot, t.record)) none none 16))) ∧
    (∀ t, s.gang c.gid = some g → (g.handle h.val).state = .live ∨ (g.handle h.val).state = .shadowPending →
      s.tileOf g (g.handle h.val) = some t →
      exec (.mdrain gd add h d) s = .next (s.queueMat g.core
        (matOp c g (.drain add) d none none (some (t.bspace, t.slot, t.record)) 16))) ∧
    (∀ ta tb kc acc, (g.handle v.h.val).state ≠ .free → (g.handle h.val).state ≠ .free →
      s.spaceOf g (g.handle v.h.val) = false → s.spaceOf g (g.handle h.val) = true →
      s.tileOf g (g.handle v.h.val) = some ta → s.tileOf g (g.handle h.val) = some tb →
      let wa := s.formatSlot g f.a.val
      let wb := s.formatSlot g f.b.val
      let a := elemFormat wa
      let col := v.dir == .column
      let most := if col then 64 else 2048 / a.bits
      let k := match f.k with | .full => most | .half => most / 2 | .quarter => most / 4 | .imm => (c.imm 0).toNat
      let dur := if a = .fp64 then max 4 (4 * k) else max 4 ((k + kc - 1) / kc)
      pairing a (elemFormat wb) = some (kc, acc) → badFormats wa wb col = false → k ≤ most →
      (a = .fp64 → d.val % 2 = 0 ∧ d.val + 1 < g.banks.length) →
      let op := fun (zero : Bool) => matOp c g
        (.mma zero col k a (elemFormat wb) (slotScale wa) (slotScale wb)) d
        (some (ta.bspace, ta.slot, ta.record)) (some (tb.slot, tb.record)) none dur
      exec (.mma gd d v h f) s = .next (s.queueMat g.core (op false)) ∧
      exec (.mmaz gd d v h f) s = .next (s.queueMat g.core (op true)))

/-- R60, R65, R89, R236, R241, R329: the traps of the M slot in their order; a full queue holds the bundle. -/
def Sys2Proof.Claims.MatrixTraps : Prop :=
  ∀ (s : State) (c : Cur) (g : Gang) (gd : Guard) (d : Bank) (v : View) (h : Handle) (f : Format),
    s.Issues c g → c.mode = .whole → guardPending g gd = false → g.effConds gd ≠ [] →
    let eff := groupMask (g.effConds gd)
    (4 ≤ (s.core g.core).matQueue.length → Waits s (.mzero gd d) .unitFull) ∧
    ((s.core g.core).matQueue.length < 4 →
      (g.banks.length ≤ d.val → Traps s c (.mzero gd d) (c.trap 0x0F eff 0 d.val (2 ^ 63))) ∧
      ((g.handle h.val).state = .free →
        Traps s c (.mfill gd d h) (c.trap 0x04 eff 0 h.val (g.handle h.val).gen.toNat)) ∧
      ((g.handle h.val).state ≠ .free → s.spaceOf g (g.handle h.val) = true →
        Traps s c (.mfill gd d h) (c.trap 0x0F eff 0 h.val (g.handle h.val).gen.toNat)) ∧
      ((g.handle v.h.val).state ≠ .free → (g.handle h.val).state ≠ .free → s.spaceOf g (g.handle v.h.val) = false →
        s.spaceOf g (g.handle h.val) = true → d.val % 2 = 0 → d.val + 1 < g.banks.length →
        (badFormats (s.formatSlot g f.a.val) (s.formatSlot g f.b.val) (v.dir == .column) = true →
          Traps s c (.mma gd d v h f) (c.trap 0x13 eff 0 (Format.byte f) 0)) ∧
        (badFormats (s.formatSlot g f.a.val) (s.formatSlot g f.b.val) (v.dir == .column) = false → f.k = .imm →
          (if v.dir = .column then 64 else 2048 / (elemFormat (s.formatSlot g f.a.val)).bits) < (c.imm 0).toNat →
          Traps s c (.mma gd d v h f) (c.trap 0x05 eff 0 (c.imm 0).toNat 4))))

/-- MMA, MMAZ, MDRAIN, MFILL and MZERO queue with their time, and trap in order: the claims MatrixOperationsQueue and MatrixTraps together.
The model's own readings: log 90. -/
def Obligations.MatrixInstructions : Prop := Claims.MatrixOperationsQueue ∧ Claims.MatrixTraps

/-- R243, R238, R239, R242, R93: an operation starts when the array is idle and its time has come; at the end of its run
its effect is on its bank, and the next operation starts. MZERO clears the bank; an INT8 product adds the exact sum of its
terms modulo 2^32; MDRAIN changes no bank. -/
def Sys2Proof.Claims.MatrixRuns : Prop :=
  ∀ (s : State) (core : Nat) (o : MatOp),
    (∀ rest, (s.core core).matRun = none → (s.core core).matQueue = o :: rest →
      (o.notBefore ≤ s.time → ∃ t, exec (.matrixOpStart core) s = .next t ∧
        (t.core core).matRun = some (o, s.time + o.dur) ∧ (t.core core).matQueue = rest ∧ t.acc = s.acc ∧
        t.tiles = s.tiles ∧ t.mem = s.mem ∧ (2 * (s.time + o.dur), .matrixOpComplete core) ∈ t.agenda) ∧
      (s.time < o.notBefore → ∃ t, exec (.matrixOpStart core) s = .next t ∧ (t.core core).matRun = none ∧
        (t.core core).matQueue = o :: rest ∧ (2 * o.notBefore, .matrixOpStart core) ∈ t.agenda)) ∧
    (∀ e tm, (s.core core).matRun = some (o, e) → e ≤ s.time → s.team o.team = some tm → tm.phase ≠ .done →
      (∃ t, exec (.matrixOpComplete core) s = .next t ∧ t.mem = s.mem ∧
        ((s.core core).matQueue = [] → (t.core core).matRun = none) ∧
        (∀ p rest, (s.core core).matQueue = p :: rest → p.notBefore ≤ s.time →
          (t.core core).matRun = some (p, s.time + p.dur) ∧ (t.core core).matQueue = rest)) ∧
      (o.kind = .zero → ∃ t, exec (.matrixOpComplete core) s = .next t ∧ t.tiles = s.tiles ∧
        ∀ i < 64, ∀ j < 64, t.acc.get (accKey core o.phys i j) = 0) ∧
      (∀ zero col k sa sb na ra nb rb, o.kind = .mma zero col k .int8 .int8 sa sb → o.src = some (false, na, ra) →
        o.srcB = some (nb, rb) → ∃ t, exec (.matrixOpComplete core) s = .next t ∧ t.tiles = s.tiles ∧
          (t.core core).kind o.phys = 1 ∧
          ∀ i < 64, ∀ j < 64, (t.acc.get (accKey core o.phys i j)).toNat =
            wrap 32 ((if zero then 0 else ((s.acc.get (accKey core o.phys i j)).toNat : Int)) +
              ((List.range k).map fun n => (elemA s core na .int8 col i n).toInt * (elemB s core nb .int8 n j).toInt).sum)) ∧
      (∀ add, o.kind = .drain add → ∃ t, exec (.matrixOpComplete core) s = .next t ∧ t.acc = s.acc))

namespace Sys2Proof.Claims

open Sys2Proof.Machine

/-- A cell after the first chunks of a product (R92): each chunk of `kc` products, the last one shorter, is summed exactly,
scaled, and added with one rounding. -/
def accumulated (f : FloatFormat) (kc k : Nat) (scale : Int) (a b : Nat → FVal) : Nat → Nat → Nat
  | 0, acc => acc
  | c + 1, acc => accumulate f (accumulated f kc k scale a b c acc)
      ((chunkSum ((List.range (min kc (k - c * kc))).map fun i => (a (c * kc + i), b (c * kc + i)))).scale scale)

/-- The word of a 32-bit bank at row i and column j, and the element of an F64 pair by its low and high bank. -/
def bankWord (s : State) (core bank i j : Nat) : Nat := (s.acc.get (accKey core bank i j)).toNat
def pairElem (s : State) (core low high i j : Nat) : Nat := bankWord s core low i j + bankWord s core high i j * 2 ^ 32

/-- The word, or the eight bytes, of a tile at an offset. -/
def tileAt (s : State) (core : Nat) (bspace : Bool) (slot off n : Nat) : Nat :=
  natOfBytes (s.tiles.getRun (tileKey core bspace slot off) n)

end Sys2Proof.Claims

/-- R92, R93, R239 to R241: what a product of float formats leaves in its bank or pair, and of what kind the banks then are;
what MFILL loads, and what MDRAIN writes to its tile, bits unchanged or added by the bank's kind, and to no other tile. -/
def Sys2Proof.Claims.MatrixEffects : Prop :=
  ∀ (s : State) (core : Nat) (o : MatOp) (end_ : Nat) (tm : Team), (s.core core).matRun = some (o, end_) → end_ ≤ s.time →
    s.team o.team = some tm → tm.phase ≠ .done → s.tiles.wf = true → s.acc.wf = true → o.phys < 16 → o.other < 16 →
    o.phys ≠ o.other →
    let kind := (s.core core).kind o.phys
    let low := if o.odd then o.other else o.phys
    let high := if o.odd then o.phys else o.other
    let half := if o.odd then 32 else 0
    let Ends := fun (p : State → Prop) => ∃ t, exec (.matrixOpComplete core) s = .next t ∧ t.mem = s.mem ∧ p t
    (∀ zero col k a b sa sb na ra nb rb kc, o.kind = .mma zero col k a b sa sb → o.src = some (false, na, ra) →
      o.srcB = some (nb, rb) →
      let row := fun (i n : Nat) => elemA s core na a col i n
      let column := fun (j n : Nat) => elemB s core nb b n j
      let chunks := (k + kc - 1) / kc
      (pairing a b = some (kc, .f32) → Ends fun t => t.tiles = s.tiles ∧ (t.core core).kind o.phys = 0 ∧
        (kind = 2 → (t.core core).kind o.other = 0) ∧ (∀ i < 64, ∀ j < 64,
          bankWord t core o.other i j = bankWord s core o.other i j ∧
          bankWord t core o.phys i j = accumulated fp32 kc k (sa + sb) (row i) (column j) chunks
            (if zero then 0 else bankWord s core o.phys i j) % 2 ^ 32)) ∧
      (pairing a b = some (kc, .f64) → Ends fun t => t.tiles = s.tiles ∧ (t.core core).kind o.phys = 2 ∧
        (t.core core).kind o.other = 2 ∧ ∀ i < 64, ∀ j < 64,
          pairElem t core o.phys o.other i j = accumulated fp64 kc k (sa + sb) (row i) (column j) chunks
            (if zero then 0 else pairElem s core o.phys o.other i j) % 2 ^ 64)) ∧
    (∀ b n r, o.kind = .fill → o.src = some (b, n, r) → Ends fun t => t.tiles = s.tiles ∧
      (t.core core).kind o.phys = kind ∧
      (kind ≠ 2 → ∀ i < 64, ∀ j < 64, bankWord t core o.phys i j = tileAt s core b n (256 * i + 4 * j) 4) ∧
      (kind = 2 → ∀ i < 64, ∀ j < 32, pairElem t core low high i (half + j) = tileAt s core b n (256 * i + 8 * j) 8)) ∧
    (∀ add b n r, o.kind = .drain add → o.dst = some (b, n, r) → o.cowFrom = none → n < 512 → Ends fun t =>
      (kind ≠ 2 → ∀ i < 64, ∀ j < 64,
        let off := if b then 256 * j + 4 * i else 256 * i + 4 * j
        let x := bankWord s core o.phys i j
        let old := tileAt s core b n off 4
        tileAt t core b n off 4 = if !add then x else if kind = 1 then (old + x) % 2 ^ 32
          else (fAdd fp32 .rne old x).1 % 2 ^ 32) ∧
      (kind = 2 → ∀ i < 64, ∀ j < 32,
        let off := 256 * i + 8 * j
        let x := if b then pairElem s core low high (half + j) i else pairElem s core low high i (half + j)
        let old := tileAt s core b n off 8
        tileAt t core b n off 8 = if !add then x else (fAdd fp64 .rne old x).1 % 2 ^ 64) ∧
      ∀ a, a < tileKey core b n 0 ∨ tileKey core b n 0 + 16384 ≤ a → t.tiles.get a = s.tiles.get a)

/-- R92, R93: the sum of the products of a chunk of finite elements is exact, and its addition to a finite accumulator is
rounded once to nearest. -/
def Sys2Proof.Claims.ChunksAreExact : Prop :=
  (∀ (l : List ((Bool × Nat × Int) × (Bool × Nat × Int))) (u : Int), u ≤ 0 → (∀ p ∈ l, u ≤ p.1.2.2 + p.2.2.2) →
    let fin := fun (x : Bool × Nat × Int) => FVal.fin x.1 x.2.1 x.2.2
    let signed := fun (n : Bool) (m : Nat) => if n then -(m : Int) else m
    ∃ n m e, chunkSum (l.map fun p => (fin p.1, fin p.2)) = .fin n m e ∧ u ≤ e ∧ signed n m * 2 ^ (e - u).toNat =
      (l.map fun p => signed (p.1.1 != p.2.1) (p.1.2.1 * p.2.2.1) * 2 ^ (p.1.2.2 + p.2.2.2 - u).toNat).sum) ∧
  ∀ (f : FloatFormat) (acc : Nat) (na n : Bool) (ma m : Nat) (ea e : Int), f ∈ [fp64, fp32] → f.value acc = .fin na ma ea →
    let u := min ea e
    let scaled := fun (n : Bool) (m : Nat) (e : Int) => (if n then -(m : Int) else m) * 2 ^ (e - u).toNat
    ∃ flags, RoundedSum f .rne (scaled na ma ea + scaled n m e) u (na && n && decide (ma = 0))
      (accumulate f acc (.fin n m e), flags)

/-- The array starts and completes operations, and their effects on banks and tiles: the claims MatrixRuns, MatrixEffects and
ChunksAreExact together. The model's own readings: log 56, 120, 125. -/
def Obligations.MatrixArrayEvents : Prop := Claims.MatrixRuns ∧ Claims.MatrixEffects ∧ Claims.ChunksAreExact

namespace Sys2Proof.Claims

open Sys2Proof.Machine

/-- A handle instruction's guard is settled and met by some group (R232). -/
def HandleReady (g : Gang) (gd : Guard) : Prop := guardPending g gd = false ∧ g.effConds gd ≠ []

/-- The generation of an entry once a new tile stands in it: an entry in use is released first (R61, R62, R250). -/
def nextGen (e : HEntry) : BitVec 16 := if e.state = .free then e.gen else e.gen + 1

end Sys2Proof.Claims

/-! ## Handles -/

/-- R61, R62, R250, R251, R253, R254: allocating, releasing, taking and duplicating handles.
The model's own readings: log 18, 90. -/
def Obligations.HandleTables : Prop :=
  ∀ (s : State) (c : Cur) (g : Gang) (gd : Guard) (h a : Handle) (slot : Inbox) (m : AllocMode) (tm : Team),
    s.Issues c g → HandleReady g gd → s.gang c.gid = some g → s.team g.team = some tm →
    let e := g.handle h.val
    let n := needsBefore s c g
    ((if m.bspace then n.b + 1 ≤ tm.freeB else n.a + 1 ≤ tm.freeA) → (s.core g.core).freeSlots m.bspace ≠ [] →
      ∃ t l id q, exec (.halloc gd m h) s = .next t ∧ t.mem = s.mem ∧ t.gang c.gid = some l ∧ l.v = g.v ∧
        (l.handle h.val).state = .live ∧ (l.handle h.val).ref = .record id ∧ (l.handle h.val).gen = nextGen e ∧
        q ∈ (s.core g.core).freeSlots m.bspace ∧
        t.record g.team id = some ⟨m.bspace, nextGen e, [(g.core, q)], [], []⟩ ∧
        (t.core g.core).slots.find (slotKey m.bspace q) = some (.record g.team id) ∧
        (m.zeroed = true → (∀ i < 16384, t.tiles.get (tileKey g.core m.bspace q i) = 0) ∧
          ∃ j, (2 * (s.time + 16), .hallocClearDone c.gid j) ∈ t.agenda)) ∧
    (e.state ≠ .free → ∃ t l, exec (.hfree gd h) s = .next t ∧ t.mem = s.mem ∧ t.tiles = s.tiles ∧
      t.gang c.gid = some l ∧ (l.handle h.val).state = .free ∧ (l.handle h.val).ref = .none ∧
      (l.handle h.val).gen = e.gen + 1 ∧ ∀ k, k ≠ h.val → l.handle k = g.handle k) ∧
    (∀ d, g.inbox.find slot.val = some d → ∃ t l, exec (.htake gd h slot) s = .next t ∧ t.gang c.gid = some l ∧
      (l.handle h.val).state = d.state ∧ (l.handle h.val).ref = d.ref ∧ (l.handle h.val).gen = nextGen e ∧
      l.inbox = g.inbox.del slot.val ∧ t.mem = s.mem ∧ t.tiles = s.tiles) ∧
    (g.inbox.find slot.val = none → c.mode = .whole → Waits s (.htake gd h slot) (.inboxEmpty slot.val)) ∧
    ((g.handle a.val).state ≠ .free → (g.handle a.val).state ≠ .shadowPending →
      let st := if (g.handle a.val).state = .live then .template else (g.handle a.val).state
      (h = a → exec (.hdup gd h a) s = .next s) ∧
      (h ≠ a → ∃ t l, exec (.hdup gd h a) s = .next t ∧ t.gang c.gid = some l ∧
        (l.handle h.val).state = st ∧ (l.handle h.val).ref = (g.handle a.val).ref ∧
        (l.handle h.val).gen = nextGen e ∧ (l.handle a.val).state = st ∧
        (l.handle a.val).ref = (g.handle a.val).ref ∧ (l.handle a.val).gen = (g.handle a.val).gen)) ∧
    (c.mode = .whole → e.state = .free → Traps s c (.hfree gd h)
      (c.trap 0x04 (groupMask (g.effConds gd)) 0 h.val e.gen.toNat))

/-- R252, R247, R249, R329: HGIVE and HSHARE send a record to an inbox slot of the group's gang, 4 cycles away on the core
and 16 on the partner, and 64 more where its tile must first be copied there; HGIVE's own entry becomes free. -/
def Sys2Proof.Claims.HandlePassing : Prop :=
  ∀ (s : State) (c : Cur) (g tg : Gang) (gd : Guard) (h : Handle) (b : Operand) (slot : Inbox) (k tgid : Nat)
    (ks : List Nat), s.Issues c g → guardPending g gd = false → g.effConds gd = k :: ks → s.gang c.gid = some g →
    g.Full [k] [.sca b] → (g.handle h.val).state ≠ .free →
    s.gangOfGroup g.team (un s c g b k) = some (tgid, tg) → un s c g b k < s.groupCount g →
    s.inboxFull tgid slot.val = false →
    let e := g.handle h.val
    let far := match e.ref with
      | .record id => (s.record g.team id).elim false fun r => (r.slots.find tg.core).isNone
      | _ => false
    let due := s.time + (if tg.core = g.core then 4 else 16) + (if far then 64 else 0)
    let eff := g.effConds gd
    (checkQuota s c g (.hgive gd h b slot) h.val eff = .go → ∃ t l m, exec (.hgive gd h b slot) s = .next t ∧
      t.messages.find m = some ⟨tgid, slot.val, ⟨e.ref, e.state⟩⟩ ∧ (2 * due, .inboxDelivery m) ∈ t.agenda ∧
      t.gang c.gid = some l ∧ (l.handle h.val).state = .free ∧ (l.handle h.val).gen = e.gen + 1 ∧ t.mem = s.mem) ∧
    (checkQuota s c g (.hshare gd h b slot) h.val eff = .go → ∃ t l m, exec (.hshare gd h b slot) s = .next t ∧
      t.messages.find m = some ⟨tgid, slot.val, ⟨e.ref, .aliasRO⟩⟩ ∧ (2 * due, .inboxDelivery m) ∈ t.agenda ∧
      t.gang c.gid = some l ∧ l.handle h.val = e ∧ t.mem = s.mem)

/-- R255, R256, R257, R60, R289: HPUB asks for a publication and releases, its swap to come after those asked for before;
HINFO lands the entry's word; HWAIT waits while the tile is busy or being published, and for a released entry while its slots
are owned. The model's own readings: log 52, 112. -/
def Obligations.HandleQueries : Prop :=
  ∀ (s : State) (c : Cur) (g : Gang) (gd : Guard) (h : Handle) (d : SReg), s.Issues c g → HandleReady g gd →
    s.gang c.gid = some g →
    let e := g.handle h.val
    (∀ t, e.state ≠ .free → s.tileOf g e = some t →
      let code := match e.state with | .free => 0 | .live => 1 | .template => 2 | .aliasRO => 3 | .shadowPending => 4
      exec (.hinfo gd d h) s = .next (s.land c 1 (.s d.val) ((g.effConds gd).map fun k =>
        (k, (code + 8 * t.bspace.toNat + 16 * t.slot + 2 ^ 16 * e.gen.toNat + 2 ^ 32 * (s.busyR g.core t % 256) +
          2 ^ 40 * (s.busyW g.core t % 256)) % 2 ^ 64)) [] false)) ∧
    (e.state = .live ∨ e.state = .template → exec (.hpub gd h) s = .next s) ∧
    (∀ id r, e.state = .shadowPending → e.ref = .record id → s.record g.team id = some r →
      ∃ t l pub q, exec (.hpub gd h) s = .next t ∧ t.mem = s.mem ∧ t.tiles = s.tiles ∧ t.gang c.gid = some l ∧
        l.pubs = g.pubs ++ [pub] ∧ t.record g.team id = some q ∧ q.slots = r.slots ∧ q.shadows = r.shadows ∧
        q.publishing.map Publish.id = r.publishing.map Publish.id ++ [pub] ∧
        (∃ p ∈ q.publishing, p.id = pub ∧ p.gid = c.gid ∧ p.pubs = g.pubs) ∧
        (s.onPair g = true → ∃ o w, l.sync = some o ∧ o.releases = true ∧ c.seq ≤ o.logMark ∧ (w, []) ∈ o.after ∧
          t.afters.find w = some (.publish c.gid g.team id pub)) ∧
        (s.onPair g = false → l.orderMark = some c.seq ∧ l.orderPubs = g.pubs ∧
          ((∀ x ∈ s.copies.vals, x.record = some id → 4 ≤ x.stage) →
            (2 * (s.time + 8), .publishSwap g.team id) ∈ t.agenda))) ∧
    (∀ t, e.state ≠ .free → s.tileOf g e = some t → (0 < s.busyR g.core t ∨ 0 < s.busyW g.core t) → c.mode = .whole →
      Waits s (.hwait gd h) .other) ∧
    (∀ t id r, e.state ≠ .free → s.tileOf g e = some t → s.busyR g.core t = 0 → s.busyW g.core t = 0 →
      e.ref = .record id → s.record g.team id = some r → r.publishing = [] →
      (∀ x ∈ s.copies.vals, x.record = some id → x.gid = c.gid → 4 ≤ x.stage) → exec (.hwait gd h) s = .next s) ∧
    (e.state = .free → (∀ x ∈ e.released, s.stillOwned g.team x = false) → exec (.hwait gd h) s =
      .next (s.updGang c.gid fun l => l.putHandle h.val { l.handle h.val with released := [] }))

/-- R247, R249, R255, R207: a delivery stands in the inbox; at its time a publication makes the shadow the current slot on
every core whose gangs still name the record, and every pending handle of the record is live again. -/
def Sys2Proof.Claims.HandleEvents : Prop :=
  ∀ (s : State),
    (∀ id m g, s.messages.find id = some m → s.gang m.gid = some g → ∃ t l, exec (.inboxDelivery id) s = .next t ∧
      t.messages = s.messages.del id ∧ t.gang m.gid = some l ∧ l.inbox.find m.slot = some m.what ∧
      l.handles = g.handles ∧ t.mem = s.mem) ∧
    (∀ team id r tm gid g k e, s.team team = some tm → tm.records.find id = some r → s.gang gid = some g →
      (gid, g) ∈ s.gangs → g.team = team → g.handler = false → g.handles.find k = some e → e.ref = .record id →
      e.state = .shadowPending → r.shadows ≠ [] →
      let Swapped := fun (t : State) => ∃ l q, t.gang gid = some l ∧ l.handles.find k = some { e with state := .live } ∧
        t.record team id = some q ∧ q.shadows = [] ∧ q.publishing = [] ∧
        (∀ n, r.shadows.wf = true → r.shadows.find g.core = some n → q.slots.find g.core = some n) ∧ t.mem = s.mem ∧ t.tiles = s.tiles
      ((∃ p ∈ r.publishing, s.swapDue p = true) →
        ∃ t, exec (.publishSwap team id) s = .next t ∧ Swapped t) ∧
      (∀ x copy, s.copies.find copy = some x → x.team = team → x.record = some id → x.stage = 5 → x.due ≤ s.time →
        ∃ t, exec (.autoPublish copy) s = .next t ∧ Swapped t))

/-- HGIVE and HSHARE send records; deliveries and publication swaps: the claims HandlePassing and HandleEvents together.
The model's own readings: log 52, 66, 92, 112. -/
def Obligations.HandlePassingAndEvents : Prop := Claims.HandlePassing ∧ Claims.HandleEvents

namespace Sys2Proof.Claims

open Sys2Proof.Machine

/-- A copy's sources are full and it finds room among its core's copies in flight (R17, R25, R200). -/
def CopyReady (s : State) (c : Cur) (g : Gang) (gd : Guard) (srcs : List Src) : Prop :=
  g.Full (g.effGroups gd) srcs ∧
    s.copiesInFlight g.core + copiesBefore c g + (g.effGroups gd).length ≤ Config.copiesInFlight

/-- A rectangle of R201's shape word, at a row and byte of a tile, does not leave the tile. -/
def Fits (shape row ofs : Nat) : Prop :=
  row + (shape % 256 + 1) ≤ 64 ∧ ofs + 16 * (shape / 2 ^ 16 % 256 + 1) ≤ 256

/-- A copy of a group has been issued: it stands in the group's open batch and waits to start; it is bound to the barrier
that the group's CBIND named, and it is the one that a CCHAIN before it has wait for the last (R200, R206, R209, R210). -/
def Joins (s t : State) (c : Cur) (g : Gang) (k : Nat) (want : Copy → Prop) : Prop :=
  ∃ n x l y z, t.copies.find n = some x ∧ x.gid = c.gid ∧ x.group = k ∧ x.seq = c.seq ∧ x.stage = 0 ∧ x.hsn = none ∧
    (2 * s.time, .copyCompletion n) ∈ t.agenda ∧ t.gang c.gid = some l ∧ l.group k = some y ∧ g.group k = some z ∧
    y.openBatch = z.openBatch ++ [n] ∧ y.lastCopy = some n ∧ y.chain = false ∧ y.bind = z.bind ∧ x.bind = z.bind ∧
    x.after = (if z.chain then z.lastCopy else none) ∧ want x

/-- A copy of a group has been issued that moves the rows of the shape given (R201). -/
def Issued (s t : State) (c : Cur) (g : Gang) (k shape : Nat) (want : Copy → Prop) : Prop :=
  Joins s t c g k fun x => x.rows = shape % 256 + 1 ∧ x.rowBytes = 16 * (shape / 2 ^ 16 % 256 + 1) ∧
    x.bytes = x.rows * x.rowBytes ∧ want x

/-- The operation is CPYM, which writes no template (R203). -/
def isCpym : Instr → Bool
  | .cpym _ _ _ _ _ _ => true
  | _ => false

/-- A handle that a copy may write, with its record: not free, no read-only alias, no publication awaited; a template that
nothing else names is made the gang's own as it is (R203, R254, R255). -/
def CopyInto (s : State) (c : Cur) (g : Gang) (i : Instr) (gd : Guard) (h : Handle) (id : Nat) (r : TileRecord) : Prop :=
  ((g.handle h.val).state = .live ∨ (g.handle h.val).state = .shadowPending ∨
      ((g.handle h.val).state = .template ∧ s.soleRef g (g.handle h.val) = true ∧ isCpym i = false)) ∧
    (g.handle h.val).ref = .record id ∧ s.record g.team id = some r ∧ s.publishPending g h.val = false ∧
    checkQuota s c g i h.val (g.effGroups gd) = .go

/-- The copy of a group writes the shadow of a record, which exists on every core that holds the record (R203, R247). -/
def ToShadow (t : State) (g : Gang) (id : Nat) (r : TileRecord) (x : Copy) : Prop :=
  ∃ q, t.record g.team id = some q ∧ q.slots = r.slots ∧ x.record = some id ∧ x.shadows = q.shadows ∧
    (r.shadows ≠ [] → q.shadows = r.shadows) ∧
    (r.shadows = [] → ∀ core, (q.shadows.find core).isSome = (r.slots.find core).isSome)

/-- A template that others name too has been copied for the gang: the handle names a record of its own, on the gang's core
alone, whose slot holds the template's bytes as its shadow does (R41, R203). -/
def OwnCopy (s t : State) (c : Cur) (g : Gang) (h : Handle) (u : TileAt) (id : Nat) (shadows : Tbl Nat) : Prop :=
  ∃ l q n m, t.gang c.gid = some l ∧ (l.handle h.val).state = .shadowPending ∧ (l.handle h.val).ref = .record id ∧
    (l.handle h.val).gen = (g.handle h.val).gen ∧ t.record g.team id = some q ∧ q.bspace = u.bspace ∧
    q.slots = [(g.core, n)] ∧ q.shadows = shadows ∧ shadows = [(g.core, m)] ∧ n ≠ m ∧
    n ∈ (s.core g.core).freeSlots u.bspace ∧ m ∈ (s.core g.core).freeSlots u.bspace ∧
    ∀ x ∈ [n, m], ∀ i < 16384, t.tiles.get (tileKey g.core u.bspace x i) = s.tiles.get (tileKey g.core u.bspace u.slot i)

end Sys2Proof.Claims

/-! ## Copies and batches -/

/-- R200 to R206, R209, R210, R41: a copy issues once for each effective group with its own shape, addresses and stride, the
barrier that CBIND named and the copy that CCHAIN has it wait for, writes no memory yet, and joins its group's open batch; a
template that others name is copied for the gang first; CCHAIN marks the groups whose last copy still moves bytes.
The model's own readings: log 50, 90. -/
def Obligations.CopiesIssue : Prop :=
  ∀ (s : State) (c : Cur) (g : Gang) (gd : Guard) (pub : Bool) (h hs : Handle) (d : SReg) (a b e : Operand),
    s.Issues c g → s.gang c.gid = some g → (∀ k ∈ g.effGroups gd, (g.group k).isSome) → (g.effGroups gd).Nodup →
    let eff := g.effGroups gd
    let shape := fun (k : Nat) => un s c g b k % 2 ^ 32
    let place := fun (k : Nat) => un s c g e k % 2 ^ 32
    let Shaped := ∀ k ∈ eff, Fits (shape k) (shape k / 2 ^ 8 % 256) (16 * (shape k / 2 ^ 24))
    let Aligned := fun (f : Nat → Nat) => ∀ k ∈ eff, f k % 16 = 0 ∧ un s c g e k % 16 = 0
    let In := fun (op : Nat) (k : Nat) (x : Copy) => x.opcode = op ∧ x.kind = .toTile ∧ x.src = un s c g a k ∧
      x.stride = si s c g e k ∧ x.dstRow = shape k / 2 ^ 8 % 256 ∧ x.dstOfs = 16 * (shape k / 2 ^ 24) ∧ x.publish = pub
    (∀ id r, CopyReady s c g gd [.sca a, .sca b, .sca e] → Shaped → Aligned (un s c g a) →
      (CopyInto s c g (.cpy gd pub h a b e) gd h id r → r.bspace = false → ∃ t, exec (.cpy gd pub h a b e) s = .next t ∧
        t.mem = s.mem ∧ ∀ k ∈ eff, Issued s t c g k (shape k) fun x => In 0x40 k x ∧ ToShadow t g id r x) ∧
      (CopyInto s c g (.cpyb gd pub h a b e) gd h id r → r.bspace = true → ∃ t, exec (.cpyb gd pub h a b e) s = .next t ∧
        t.mem = s.mem ∧ ∀ k ∈ eff, Issued s t c g k (shape k) fun x => In 0x41 k x ∧ ToShadow t g id r x) ∧
      (CopyInto s c g (.cpym gd pub h a b e) gd h id r → r.bspace = false → ∃ t, exec (.cpym gd pub h a b e) s = .next t ∧
        t.mem = s.mem ∧ ∀ k ∈ eff, Issued s t c g k (shape k) fun x => In 0x42 k x ∧ ToShadow t g id r x)) ∧
    (∀ u, CopyReady s c g gd [.sreg d.val, .sca b, .sca e] → Shaped → Aligned (fun k => (g.sreg k d.val).toNat) →
      (g.handle h.val).state ≠ .free → s.tileOf g (g.handle h.val) = some u →
      (∀ k ∈ eff, ∀ i ≤ shape k % 256, s.inSealed g.context (g.sreg k d.val + ssrc s c g e k * BitVec.ofNat 64 i).toNat
        (16 * (shape k / 2 ^ 16 % 256 + 1)) = false) →
      ∃ t, exec (.cpyo gd d h b e) s = .next t ∧ t.mem = s.mem ∧ ∀ k ∈ eff, Issued s t c g k (shape k) fun x =>
        x.opcode = 0x43 ∧ x.kind = .fromTile ∧ x.dst = (g.sreg k d.val).toNat ∧ x.stride = si s c g e k ∧
        x.srcRow = shape k / 2 ^ 8 % 256 ∧ x.srcOfs = 16 * (shape k / 2 ^ 24) ∧ x.srcTile = some (u.bspace, u.slot, u.record)) ∧
    (CopyReady s c g gd [.sreg d.val, .sca a, .sca b] →
      (∀ k ∈ eff, un s c g b k < 2 ^ 40 ∧ (un s c g b k = 0 ∨
        s.inSealed g.context (g.sreg k d.val).toNat (un s c g b k) = false)) →
      ∃ t, exec (.cpyg gd d a b) s = .next t ∧ t.mem = s.mem ∧ ∀ k ∈ eff, Joins s t c g k fun x => x.opcode = 0x44 ∧ x.kind = .global ∧ x.src = un s c g a k ∧
        x.dst = (g.sreg k d.val).toNat ∧ x.bytes = un s c g b k) ∧
    (∀ id r u, CopyReady s c g gd [.sca b, .sca e] → Shaped → CopyInto s c g (.cpyl gd h hs b e) gd h id r →
      (∀ k ∈ eff, place k % 256 = 0 ∧ place k / 2 ^ 16 % 256 = 0 ∧
        Fits (shape k) (place k / 2 ^ 8 % 256) (16 * (place k / 2 ^ 24))) →
      (g.handle hs.val).state ≠ .free → s.tileOf g (g.handle hs.val) = some u →
      ∃ t, exec (.cpyl gd h hs b e) s = .next t ∧ t.mem = s.mem ∧ ∀ k ∈ eff, Issued s t c g k (shape k) fun x =>
        x.opcode = 0x45 ∧ x.kind = .tileTile ∧ x.srcTile = some (u.bspace, u.slot, u.record) ∧
        x.srcRow = shape k / 2 ^ 8 % 256 ∧ x.srcOfs = 16 * (shape k / 2 ^ 24) ∧ x.dstRow = place k / 2 ^ 8 % 256 ∧
        x.dstOfs = 16 * (place k / 2 ^ 24) ∧ ToShadow t g id r x) ∧
    (∀ u, (g.handle h.val).state = .template → s.tileOf g (g.handle h.val) = some u → s.spaceOf g (g.handle h.val) = u.bspace →
      s.soleRef g (g.handle h.val) = false → s.publishPending g h.val = false → eff ≠ [] →
      1 < ((s.core g.core).freeSlots u.bspace).length → s.tiles.wf = true → (s.team g.team).isSome = true → u.slot < 512 →
      (s.core g.core).slots.find (slotKey u.bspace u.slot) ≠ none →
      let Own := fun (i : Instr) (want : Nat → Copy → Prop) => checkQuota s c g i h.val eff = .go →
        ∃ t id shadows, exec i s = .next t ∧ t.mem = s.mem ∧ OwnCopy s t c g h u id shadows ∧
          ∀ k ∈ eff, Issued s t c g k (shape k) fun x => want k x ∧ x.record = some id ∧ x.shadows = shadows
      (CopyReady s c g gd [.sca a, .sca b, .sca e] → Shaped → Aligned (un s c g a) →
        (u.bspace = false → Own (.cpy gd pub h a b e) (In 0x40)) ∧ (u.bspace = true → Own (.cpyb gd pub h a b e) (In 0x41))) ∧
      ∀ v, CopyReady s c g gd [.sca b, .sca e] → Shaped →
        (∀ k ∈ eff, place k % 256 = 0 ∧ place k / 2 ^ 16 % 256 = 0 ∧
          Fits (shape k) (place k / 2 ^ 8 % 256) (16 * (place k / 2 ^ 24))) →
        h ≠ hs → (g.handle hs.val).state ≠ .free → s.tileOf g (g.handle hs.val) = some v →
        Own (.cpyl gd h hs b e) fun k x => x.opcode = 0x45 ∧ x.kind = .tileTile ∧
          x.srcTile = some (v.bspace, v.slot, v.record) ∧ x.srcRow = shape k / 2 ^ 8 % 256 ∧
          x.srcOfs = 16 * (shape k / 2 ^ 24) ∧ x.dstRow = place k / 2 ^ 8 % 256 ∧ x.dstOfs = 16 * (place k / 2 ^ 24)) ∧
    (∃ t l, exec (.cchain gd) s = .next t ∧ t.gang c.gid = some l ∧ t.mem = s.mem ∧ t.copies = s.copies ∧
      ∀ k x, g.group k = some x → ∃ y, l.group k = some y ∧ y.chain = (x.chain || (eff.contains k &&
        x.lastCopy.any s.copyUnfinished)) ∧ y.s = x.s ∧ y.openBatch = x.openBatch)

/-- R206 to R208, R210, R229: CSEAL seals each effective group's open batch and lands its number; CWAIT waits while more
batches than its immediate are out; CBIND sets or clears the barrier that later copies count at; retirement takes the
batch away, once the publications that its release awaits are made, and with a release to perform begins it first.
The model's own readings: log 51, 66, 112. -/
def Obligations.Batches : Prop :=
  (∀ (s : State) (c : Cur) (g : Gang) (gd : Guard) (d : SReg) (n : ImmSlot) (a : BarOff),
    s.Issues c g → s.gang c.gid = some g → (g.effGroups gd).Nodup →
    let eff := g.effGroups gd
    (eff ≠ [] → (∀ k ∈ eff, ∀ x, g.group k = some x → x.sealed.length + sealsBefore c g k < 16) →
      ∃ t l, exec (.cseal gd d) s = .next t ∧ t.mem = s.mem ∧ t.gang c.gid = some l ∧
        (∃ f ∈ l.flights, f.dest = .s d.val ∧ f.land = s.beat + 1 ∧ f.vals = eff.map fun k =>
          (k, match g.group k with | some x => (x.batch.toNat + 1) % 2 ^ 16 | none => 0)) ∧
        ∀ k ∈ eff, ∀ x, g.group k = some x → ∃ y b, l.group k = some y ∧ y.openBatch = [] ∧
          y.batch = x.batch + 1 ∧ y.sealed = x.sealed ++ [b] ∧ b.number = (x.batch + 1).toNat ∧ b.copies = x.openBatch) ∧
    (eff ≠ [] → c.mode = .whole → (∃ k ∈ eff, ∃ x, g.group k = some x ∧ 16 ≤ x.sealed.length) →
      Waits s (.cseal gd d) .other) ∧
    ((∀ k ∈ eff, ∀ x, g.group k = some x → s.batchesOut c.gid k x ≤ (c.imm n.val).toNat) →
      exec (.cwait gd n) s = .next s) ∧
    (c.mode = .whole → (∃ k ∈ eff, ∃ x, g.group k = some x ∧ (c.imm n.val).toNat < s.batchesOut c.gid k x) →
      Waits s (.cwait gd n) .other) ∧
    (g.handler = false ∨ eff = [] → ∃ t l, exec (.cbind gd a) s = .next t ∧ t.mem = s.mem ∧ t.gang c.gid = some l ∧
      ∀ k x, g.group k = some x → ∃ y, l.group k = some y ∧ y.s = x.s ∧
        y.bind = if eff.contains k then (if a.unbind then none else some a.b.val) else x.bind)) ∧
  (∀ (s : State) (gid k : Nat) (g : Gang) (x : Group) (b : Batch) (rest : List Batch) (due : Nat),
    s.gang gid = some g → g.group k = some x → x.sealed = b :: rest → b.retireAt = some due → due ≤ s.time →
    (s.acts g (s.batchScope b) = false → s.pubsToRetire gid g b ≠ [] → exec (.batchRetirement gid k) s = .next s) ∧
    (s.acts g (s.batchScope b) = false → s.pubsToRetire gid g b = [] →
      (∀ id ∈ b.copies, ∀ y, s.copies.find id = some y → y.publish = false) → s.copies.wf = true →
      ∃ t l y, exec (.batchRetirement gid k) s = .next t ∧ t.mem = s.mem ∧ t.gang gid = some l ∧
        l.group k = some y ∧ (y.sealed.map Batch.number) = rest.map Batch.number ∧
        ∀ id ∈ b.copies, ∀ z, t.copies.find id = some z → z.stage = 7 ∧ z.record.isSome = true) ∧
    (s.acts g (s.batchScope b) = true → g.sync = none → ∃ t l o, exec (.batchRetirement gid k) s = .next t ∧
      t.mem = s.mem ∧ t.copies = s.copies ∧ t.gang gid = some l ∧ l.sync = some o ∧ o.releases = true ∧
      o.drops = false))

/-- R41, R203, R211, R279: a copy of any kind whose pages all translate starts when nothing before it holds it back: it
reads its source as that then stands, and its last byte lands after the path to the source, the transfer, the slot copies
it had to make first, a second shadow, and the path to the destination. -/
def Sys2Proof.Claims.CopyStarts : Prop :=
  ∀ (s u : State) (id : Nat) (x y : Copy), s.copies.find id = some x → s.copyCanStart id x = true →
    s.translateCopy id x (x.touches.drop x.checked) = ((y, none, true), u) →
    let die := dieOf x.core
    let path := fun (p : Nat → Nat → Nat) (a : Nat) => if x.bytes = 0 then 0 else p die (lineOf (y.key a))
    let read := if x.kind = .toTile ∨ x.kind = .global then path s.pathTo x.src else 0
    let write := if x.kind = .fromTile ∨ x.kind = .global then path s.writePathTo x.dst else 0
    let moved := if x.kind = .global then (engineBytes x.bytes + 63) / 64 else (x.bytes + 127) / 128
    ∃ t z, exec (.copyCompletion id) s = .next t ∧ t.copies.find id = some z ∧ t.mem = s.mem ∧ t.tiles = s.tiles ∧
      z = { x with pages := y.pages, checked := y.checked, stage := 1, due := z.due, data := s.copyData y } ∧
      z.due = s.time + read + moved + (if x.fresh then 16 else 0) + (if x.cow then 16 else 0) +
        (if 1 < x.shadows.length then 16 else 0) + write ∧ (2 * z.due, .copyCompletion id) ∈ t.agenda

/-- R202, R205: a copy within a tile or between tiles has nothing to translate; of any other copy, rows that lie in one
page of its core's TLB, which may be read or written as the copy needs, all translate. -/
def Sys2Proof.Claims.CopyTranslates : Prop :=
  ∀ (s : State) (id : Nat) (x : Copy),
    (x.kind = .tileTile → s.translateCopy id x (x.touches.drop x.checked) = ((x, none, true), s)) ∧
    (∀ page, (∀ p ∈ x.touches.drop x.checked, p.1 < 2 ^ 48 ∧ (s.core x.core).tlbFind x.context p.1 = some page ∧
        s.allows page p.1 p.2.2 = true ∧ s.firstBad page p.1 p.2.1 p.2.2 = none) →
      ∃ y u, s.translateCopy id x (x.touches.drop x.checked) = ((y, none, true), u) ∧ u.mem = s.mem ∧
        (∀ p ∈ x.touches.drop x.checked, ∃ q ∈ y.pages, q.base ≤ p.1 ∧ p.1 < q.base + q.size))

/-- R198, R204, R210, R284: at its time the last bytes of a copy reach every shadow, or their homes, but where a later copy
of its group has already written, and no other byte changes; they count at the barrier the copy is bound to. A copy into a
tile is then complete; one to memory is complete four cycles after the largest completion time of its lines. -/
def Sys2Proof.Claims.CopyLands : Prop :=
  ∀ (s : State) (id : Nat) (x : Copy), s.copies.find id = some x → s.canonical →
    let Complete := fun (t : State) =>
      (x.hsn.isSome = true ∨ (∃ g z, s.gang x.gid = some g ∧ g.group x.group = some z ∧
        (id ∈ z.openBatch ∨ ∃ b ∈ z.sealed, id ∈ b.copies))) → ∃ y, t.copies.find id = some y ∧ y.stage = 4
    (s.copyCanStart id x = false → x.stage = 1 → x.due ≤ s.time →
      let Counted := fun (t : State) => ∀ b, x.bind = some b → (s.team x.team).isSome →
        t.bar x.team b = (s.bar x.team b).land x.data.length s.time
      (x.kind = .toTile ∨ x.kind = .tileTile →
        (s.time < s.destLanding x →
          exec (.copyCompletion id) s = .next (s.at (s.destLanding x) (.copyCompletion id))) ∧
        (s.destLanding x ≤ s.time → s.shadowAwaits x ≠ [] →
          exec (.copyCompletion id) s = .next (s.at s.time (.copyCompletion id))) ∧
        (s.destLanding x ≤ s.time → s.shadowAwaits x = [] → ∃ t, exec (.copyCompletion id) s = .next t ∧
          t.mem = s.mem ∧ Counted t ∧ Complete t ∧
          (x.dstOfs + x.rowBytes ≤ 256 → x.dstRow + x.rows ≤ 64 → x.data.length ≤ x.rows * x.rowBytes →
            ∀ p ∈ x.shadows, ∀ i j v, j < x.rowBytes → x.data[i * x.rowBytes + j]? = some v →
              let off := 256 * (x.dstRow + i) + x.dstOfs + j
              s.coveredTile x p.1 p.2 off = false → t.tiles.get (tileKey p.1 x.bspace p.2 off) = v) ∧
          ∀ a, (∀ p ∈ x.shadows, ∀ q ∈ x.cells, s.coveredTile x p.1 p.2 (x.tileOfs q.1 q.2.1) = false →
            a ≠ tileKey p.1 x.bspace p.2 (x.tileOfs q.1 q.2.1)) → t.tiles.get a = s.tiles.get a)) ∧
      (x.kind = .fromTile ∨ x.kind = .global → ∃ t y, exec (.copyCompletion id) s = .next t ∧ t.tiles = s.tiles ∧
        Counted t ∧ t.copies.find id = some y ∧ y.stage = 3 ∧ y.due = y.gct + 4 ∧ s.time ≤ y.gct ∧
        (∀ l ∈ x.lines x.dst, s.anyExpiry l ≤ y.gct) ∧ (y.gct = s.time ∨ ∃ l ∈ x.lines x.dst, y.gct = s.anyExpiry l) ∧
        (2 * y.due, .copyCompletion id) ∈ t.agenda ∧
        let va := fun (p : Nat × Nat × Byte) => (x.rowAt x.dst p.1 + p.2.1) % 2 ^ 64
        (∀ p ∈ x.cells, s.coveredGlobal x (va p) = false → (∀ q ∈ x.cells, x.key (va q) = x.key (va p) → q = p) →
          t.mem.get (x.key (va p)) = p.2.2) ∧
        ∀ a, (∀ p ∈ x.cells, s.coveredGlobal x (va p) = false → a ≠ x.key (va p)) → t.mem.get a = s.mem.get a)) ∧
    (x.stage = 3 → x.due ≤ s.time → ∃ t, exec (.copyCompletion id) s = .next t ∧ t.mem = s.mem ∧ t.tiles = s.tiles ∧
      Complete t)

/-- R41, R198, R203 to R205, R207, R210, R211, R279, R284: COPY_COMPLETION carries a copy of every kind from its start to
its last byte and its completion: the claims CopyStarts, CopyTranslates and CopyLands together.
The model's own readings: log 16, 93, 94. -/
def Obligations.CopyCompletes : Prop := Claims.CopyStarts ∧ Claims.CopyTranslates ∧ Claims.CopyLands

namespace Sys2Proof.Claims

open Sys2Proof.Machine

/-- The barrier unit's count of bytes, byte after byte (R210, R214, R215): a byte on a count of zero is discarded and
sets the overrun flag; a count that reaches zero with no group left flips the phase and loads both counts again, and the
barrier keeps the phase that stood before the first flip of the cycle. -/
def landBytes (now : Nat) : Nat → Barrier → Barrier
  | 0, b => b
  | n + 1, b =>
    if b.leftN = 0 then landBytes now n { b with overrun := true }
    else if b.leftN = 1 ∧ b.leftG = 0 then
      landBytes now n { b with leftN := b.expectN, leftG := b.expectG, arrived := 0, phase := (b.phase + 1) % 2 ^ 16,
                               flipAt := now, phaseWas := if b.flipAt = now then b.phaseWas else b.phase }
    else landBytes now n { b with leftN := b.leftN - 1 }

/-- Some arrival of a group at a barrier is on its way, with its token set to the phase (R214, R216). -/
def Arriving (s t : State) (c : Cur) (g : Gang) (b k : Nat) : Prop :=
  ∃ id a l x y, g.group k = some x ∧ t.arrivals.find id = some a ∧ a.team = g.team ∧ a.bar = b ∧ a.group = x.number ∧
    a.gid = c.gid ∧ t.gang c.gid = some l ∧ l.group k = some y ∧ y.tokens.find b = some (s.bar g.team b).phase

end Sys2Proof.Claims

/-! ## Barriers -/

/-- R212 to R216: BARINIT loads a barrier, clears its mask and overrun and sets every group's token; BARARV and BARSYN
send the arrivals of groups that have not arrived; BARWT is over once the phase differs from the tokens, and is then an
acquire; a handler run and a pending overrun trap; BARINIT's bounds trap; an arrival at the unit sets its bit, counts
and flips, and waits where its bit is set; landing bytes count byte after byte.
The model's own readings: log 40, 94. -/
def Obligations.Barriers : Prop :=
  (∀ (s : State) (c : Cur) (g : Gang) (gd : Guard) (a : Bar) (b e : Operand), s.Issues c g → s.gang c.gid = some g →
    let eff := g.effGroups gd
    let bar := s.bar g.team a.val
    let Good := fun (k : Nat) => un s c g b k ≤ s.groupCount g ∧ un s c g e k < 2 ^ 32 ∧ ¬(un s c g b k = 0 ∧ un s c g e k = 0)
    (eff ≠ [] → g.handler = false → (∀ k ∈ eff, ∀ x, g.group k = some x → x.guardPend = false) →
      (∀ k tm, g.Full eff [.sca b, .sca e] → (∀ j ∈ eff, Good j) → eff.getLast? = some k → s.team g.team = some tm →
        ∃ t, exec (.barinit gd a b e) s = .next t ∧ t.mem = s.mem ∧
          t.bar g.team a.val = { bar with expectG := un s c g b k, expectN := un s c g e k, leftG := un s c g b k,
                                          leftN := un s c g e k, arrived := 0, overrun := false } ∧
          ∀ gid l, s.gang gid = some l → ∃ m, t.gang gid = some m ∧ m.v = l.v ∧ ∀ j x, l.group j = some x → ∃ y,
            m.group j = some y ∧ y.s = x.s ∧
            ((l.team = g.team ∧ l.handler = false) → y.tokens.find a.val = some bar.phase) ∧
            (¬(l.team = g.team ∧ l.handler = false) → y = x)) ∧
      (c.mode = .whole → g.Full eff [.sca b, .sca e] → (∃ k ∈ eff, ¬Good k) → ∃ t, Traps s c (.barinit gd a b e) t ∧
        t.code = 0x05 ∧ t.detail1 = 2 ∧ ∀ k < 4, natBit t.gmask k = (eff.contains k && !decide (Good k))) ∧
      ((∀ k ∈ eff, s.hasArrived g.team a.val (g.groupNumber k) = false) → (∀ k ∈ eff, (g.group k).isSome) →
        (∃ t, exec (.bararv gd a) s = .next t ∧ t.mem = s.mem ∧ ∀ k ∈ eff, Arriving s t c g a.val k) ∧
        (bar.overrun = false → ∃ t l, exec (.barsyn gd a) s = .next t ∧ t.mem = s.mem ∧ t.gang c.gid = some l ∧
          l.syncBar = g.syncBar ++ [(a.val, groupMask eff)] ∧ ∀ k ∈ eff, Arriving s t c g a.val k)) ∧
      ((∃ k ∈ eff, s.hasArrived g.team a.val (g.groupNumber k) = true) → c.mode = .whole →
        Waits s (.bararv gd a) .other ∧
        (bar.overrun = false → Waits s (.barsyn gd a) (.barrier a.val))) ∧
      (bar.overrun = false → s.waitOver g a.val eff = true → g.sync = none → ∃ t l, exec (.barwt gd a) s = .next t ∧
        t.mem = s.mem ∧ t.gang c.gid = some l ∧
        (s.onPair g = true → ∃ o, l.sync = some o ∧ o.drops = true ∧ o.releases = false) ∧
        (s.onPair g = false → l = { g with orderMark := some c.seq })) ∧
      (bar.overrun = false → s.waitOver g a.val eff = false → c.mode = .whole →
        Waits s (.barwt gd a) (s.barWait g a.val eff)) ∧
      (bar.overrun = true → c.mode = .whole → ∀ i ∈ ([.barwt gd a, .barsyn gd a] : List Instr),
        Traps s c i (c.trap 0x0A (groupMask eff) 0 a.val 0))) ∧
    (eff ≠ [] → g.handler = true → c.mode = .whole → let noBarrier := c.trap 0x0F (groupMask eff) 0 a.val (2 ^ 62)
      (∀ i ∈ ([.bararv gd a, .barwt gd a, .barsyn gd a, .cbind gd ⟨false, a⟩, .cbind gd ⟨true, a⟩] : List Instr),
        Traps s c i noBarrier) ∧ (g.Full eff [.sca b, .sca e] → Traps s c (.barinit gd a b e) noBarrier))) ∧
  (∀ (s : State) (id : Nat) (a : Arrival) (due : Nat), s.arrivals.find id = some a → a.due = some due → due ≤ s.time →
    let bar := s.bar a.team a.bar
    (bar.arrived.getLsbD a.group = true → ∃ t, exec (.barrierArrival id) s = .next t ∧ t.bar a.team a.bar = bar ∧
      t.arrivals.find id = some { a with stuck := true } ∧ t.gangs = s.gangs ∧ t.mem = s.mem) ∧
    (bar.arrived.getLsbD a.group = false → (s.team a.team).isSome → ∃ t, exec (.barrierArrival id) s = .next t ∧
      t.mem = s.mem ∧
      (bar.leftG - 1 = 0 ∧ bar.leftN = 0 → t.bar a.team a.bar = { bar with
        phase := (bar.phase + 1) % 2 ^ 16, leftG := bar.expectG, leftN := bar.expectN, arrived := 0, flipAt := s.time,
        phaseWas := if bar.flipAt = s.time then bar.phaseWas else bar.phase }) ∧
      (¬(bar.leftG - 1 = 0 ∧ bar.leftN = 0) → t.bar a.team a.bar = { bar with
        leftG := bar.leftG - 1, arrived := bar.arrived ||| BitVec.ofNat 64 (2 ^ a.group) }))) ∧
  ∀ (b : Barrier) (n now : Nat), b.leftN ≠ 0 ∨ b.leftG ≠ 0 → ¬(b.expectN = 0 ∧ b.expectG = 0) →
    b.land n now = landBytes now n b

namespace Sys2Proof.Claims

open Sys2Proof.Machine

/-- Something of each effective group waits for the release that the gang has begun at package or system scope (R218,
R223, R226, R281). -/
def AfterRelease' (t : State) (c : Cur) (what : AfterRelease) : Prop :=
  ∃ w l o, t.afters.find w = some what ∧ t.gang c.gid = some l ∧ l.sync = some o ∧ w ∈ o.after.map Prod.fst ∧ o.releases = true ∧
    c.seq ≤ o.logMark

/-- A record of a group has been made ready to be pushed: the eight low lanes of the group, lowest first (R217, R218). -/
def Pushed (s t : State) (c : Cur) (g : Gang) (a v : Operand) (k : Nat) (holds : Bool) : Prop :=
  ∃ id p, t.pushes.find id = some p ∧ p.queue = un s c g a k % 2 ^ 32 ∧ p.gid = some c.gid ∧ p.group = k ∧
    p.words = (List.range 8).map (fun i => vsrc s c g v (k * g.width + i)) ∧ p.holds = holds ∧ p.core = some g.core ∧
    AfterRelease' t c (.push id)

/-- Every effective group names a queue that exists and is its partition's (R217). -/
def OwnQueues (s : State) (c : Cur) (g : Gang) (gd : Guard) (a : Operand) : Prop :=
  ∀ k ∈ g.effGroups gd, s.ownsQueue g.context (un s c g a k % 2 ^ 32) = true

/-- A group's element of a pending write has come (R25, R71): the write that brings it, of this group alone or the last
part of the whole, is to be made in this cycle or the later one it was due. -/
def Answered (t : State) (gid : Nat) (q : Long) (k v : Nat) : Prop :=
  ∃ m n y, t.gang gid = some m ∧ m.longs.find n = some y ∧ y.dest = q.dest ∧ y.seq = q.seq ∧ y.want = 0 ∧
    (k, v) ∈ y.vals ∧ (2 * max y.due t.time + 1, .longWriteFill gid n) ∈ t.agenda

/-- A gang's pending long write. -/
def Pending (t : State) (gid : Nat) (d : LDest) (want : Nat) (p : Nat → Long → Prop) : Prop :=
  ∃ l id q, t.gang gid = some l ∧ l.longs.find id = some q ∧ q.dest = d ∧ q.want = want ∧ p id q

end Sys2Proof.Claims

/-! ## Queues -/

/-- R217 to R223: a push leaves once the release is complete, QPUSHN with its condition pending; QPOP claims the head,
at once where it is its bundle's only operation and else at the bundle's end, which is on its way at once when on chip; QSTAT's word comes from the Hive; QARM sends new values; QDONE ends the firing;
LAUNCH submits each record after the release; a queue that is not the partition's, and a misaligned record, trap. -/
def Sys2Proof.Claims.QueueInstructions : Prop :=
  ∀ (s : State) (c : Cur) (g : Gang) (gd : Guard) (d : SReg) (f : Flag) (v : VReg) (a b e w : Operand),
    s.Issues c g → s.gang c.gid = some g →
    let eff := g.effGroups gd
    let q := fun (k : Nat) => un s c g a k % 2 ^ 32
    let path := fun (k : Nat) => if dieOf g.core = queueDie (q k) then 40 else 130
    eff ≠ [] →
    (OwnQueues s c g gd a →
      (g.Full eff [.sca a, .vec w] →
        (∃ t, exec (.qpush gd a w) s = .next t ∧ t.mem = s.mem ∧ ∀ k ∈ eff, Pushed s t c g a w k true) ∧
        ∃ t, exec (.qpushn gd f a w) s = .next t ∧ t.mem = s.mem ∧ (∀ k ∈ eff, Pushed s t c g a w k false) ∧
          Pending t c.gid (.c f.val) eff.length fun id _ => ∀ k ∈ eff, ∃ n p, t.pushes.find n = some p ∧ p.group = k ∧
            p.long = some id) ∧
      (g.Full eff [.sca a] →
        (∃ t, exec (.qstat gd d a) s = .next t ∧ t.mem = s.mem ∧ t.queues = s.queues ∧
          Pending t c.gid (.s d.val) eff.length fun id _ => ∀ k ∈ eff, ∃ n x, t.claims.find n = some x ∧ x.stat = true ∧
            x.group = k ∧ x.queue = q k ∧ x.pop = some id ∧ x.due = some (s.time + path k) ∧
            (2 * (s.time + path k) + 1, .latchDelivery n) ∈ t.agenda) ∧
        (s.CanOwn c.gid [v.val] → ∃ t, exec (.qpop gd v a) s = .next t ∧ t.mem = s.mem ∧
          Pending t c.gid (.v v.val) eff.length fun id x => x.acquire = true ∧
            (c.mode = .commit → t.cur.map Cur.claims = some (c.claims ++ eff.map fun k =>
              { gid := c.gid, group := k, core := g.core, queue := q k, team := s.reservationTeam g (q k), stat := false,
                pop := some id, latch := 0, seq := none, due := none })) ∧
            ∀ k r, c.mode = .whole → eff = [k] → s.reservationTeam g (q k) = none → (s.queue (q k)).waiting = [] → r.place = .chip →
              (s.queue (q k)).recs.find? (fun r => r.status == .unreserved) = some r → ∃ n y, t.claims.find n = some y ∧
              y.pop = some id ∧ y.seq = some r.seq ∧ y.due = some (s.time + path k) ∧
              (2 * (s.time + path k) + 1, .latchDelivery n) ∈ t.agenda)) ∧
      (g.Full eff [.sca a, .sca b, .sca e] → (∀ k ∈ eff, 1 ≤ un s c g b k ∧ un s c g b k ≤ 4096) →
        (∀ k ∈ eff, ∀ x, (s.queue (q k)).cfg = some x → x.context = g.context) →
        ∃ t, exec (.qarm gd a b e) s = .next t ∧ t.mem = s.mem ∧ t.gangs = s.gangs ∧ t.queues = s.queues ∧
          ∀ k ∈ eff, ∃ n, t.qarms.find n = some ⟨q k, un s c g b k, un s c g e k % 2 ^ 32⟩ ∧
            (2 * (s.time + path k), .qarmUpdate n) ∈ t.agenda)) ∧
    (c.mode = .whole → ¬OwnQueues s c g gd a →
      (g.Full eff [.sca a, .vec w] → (∃ t, Traps s c (.qpush gd a w) t ∧ t.code = 0x05 ∧ t.detail1 = 3) ∧
        ∃ t, Traps s c (.qpushn gd f a w) t ∧ t.code = 0x05 ∧ t.detail1 = 3) ∧
      (g.Full eff [.sca a] → (∃ t, Traps s c (.qpop gd v a) t ∧ t.code = 0x05 ∧ t.detail1 = 3) ∧
        ∃ t, Traps s c (.qstat gd d a) t ∧ t.code = 0x05 ∧ t.detail1 = 3)) ∧
    (∀ tm, s.team g.team = some tm →
      (tm.firing = false → exec (.qdone gd) s = .next s) ∧
      (tm.firing = true → let x := s.queue (tm.qbatch % 4096)
        ∃ t u, exec (.qdone gd) s = .next t ∧ t.team g.team = some u ∧ u.firing = false ∧ u.taken = [] ∧
          (t.queue (tm.qbatch % 4096)).inProgress = x.inProgress - 1 ∧ (t.queue (tm.qbatch % 4096)).done = x.done + 1 ∧
          ∀ r ∈ (t.queue (tm.qbatch % 4096)).recs, r.status ≠ .reserved g.team)) ∧
    (g.Full eff [.sca a] →
      ((∀ k ∈ eff, un s c g a k % 128 = 0) → ∃ t, exec (.launch gd d a) s = .next t ∧ t.mem = s.mem ∧
        Pending t c.gid (.s d.val) eff.length fun id _ => ∀ k ∈ eff, ∃ n x, t.submits.find n = some x ∧
          x.context = g.context ∧ x.addr = un s c g a k ∧ x.from_ = .group c.gid k id ∧
          AfterRelease' t c (.launch n)) ∧
      ((∃ k ∈ eff, un s c g a k % 128 ≠ 0) → c.mode = .whole → ∃ t, Traps s c (.launch gd d a) t ∧ t.code = 0x0B ∧
        ∀ k < 4, natBit t.gmask k = (eff.contains k && decide (un s c g a k % 128 ≠ 0))))

/-- R220, R230: QBIND with bit 63 set leaves the latch without a queue; otherwise the latch names the queue and claims the
held record of every effective group before any prefetched one. -/
def Sys2Proof.Claims.LatchBinding : Prop :=
  ∀ (s : State) (c : Cur) (g : Gang) (gd : Guard) (d : Latch) (a : Operand), s.Issues c g → s.gang c.gid = some g →
    let eff := g.effGroups gd
    let off := fun (k : Nat) => (ssrc s c g a k).getLsbD 63
    g.Full eff [.sca a] → (∀ k ∈ eff, (g.group k).isSome) →
    (∀ k ∈ eff, off k = false → s.ownsQueue g.context (un s c g a k % 2 ^ 32) = true) →
    ∃ t l, exec (.qbind gd d a) s = .next t ∧ t.gang c.gid = some l ∧ l.v = g.v ∧
      (∀ k ∈ eff, ∀ x, g.group k = some x → ∃ y, l.group k = some y ∧ y.s = x.s ∧
        (off k = true → (y.latch d.val).queue = none) ∧
        (off k = false → (y.latch d.val).queue = some (un s c g a k % 2 ^ 32))) ∧
      ∀ k m r1 r2, eff = [k] → off k = false → (∀ x, g.group k = some x → (x.latch d.val).queue = none) →
        let q := un s c g a k % 2 ^ 32
        s.reservationTeam g q = none → (s.queue q).waiting = [] →
        (s.queue q).recs.filter (fun r => r.status == .unreserved) = r1 :: r2 :: m → r1.place = .chip → r2.place = .chip →
        r1.seq ≠ r2.seq → ((s.queue q).recs.map QRec.seq).Nodup →
        ∃ n1 n2 x1 x2, n1 < n2 ∧ t.claims.find n1 = some x1 ∧ t.claims.find n2 = some x2 ∧ x1.seq = some r1.seq ∧
          x2.seq = some r2.seq ∧ x1.pop = none ∧ x2.pop = none ∧ x1.group = k ∧ x2.group = k ∧ x1.latch = d.val ∧
          let due := s.time + if dieOf g.core = queueDie q then 40 else 130
          x1.due = some due ∧ x2.due = some due ∧ (2 * due + 1, .latchDelivery n1) ∈ t.agenda

/-- QPUSH, QPUSHN, QPOP, QSTAT, QARM, QDONE, LAUNCH and QBIND: the claims QueueInstructions and LatchBinding together.
The model's own readings: log 41, 42, 103. -/
def Obligations.QueueAndLatchInstructions : Prop := Claims.QueueInstructions ∧ Claims.LatchBinding

/-! ## The handler run -/

/-- R39, R224 to R226, R330, R333, R392: GSTATE reads an item of the served gang sixteen cycles later, and zeros for every
other item or selector; GSET writes one item of the served gang and nothing else of any gang, or names the action that ends
the service; with no gang served both find nothing; MBOX sends after a release at system scope, and reads zero where the
debug level is none or the part is decommissioned. -/
def Sys2Proof.Claims.HandlerInstructions : Prop :=
  ∀ (s : State) (c : Cur) (g : Gang) (gd : Guard) (d : VReg) (r : SReg) (a b e : Operand) (k : Nat) (ks : List Nat),
    s.Issues c g → s.gang c.gid = some g → g.effGroups gd = k :: ks →
    let item := un s c g a k
    let Read := fun (p : List (Nat × Nat) → Prop) => ∃ t, exec (.gstate gd d a b) s = .next t ∧ t.mem = s.mem ∧
      Pending t c.gid (.v d.val) 0 fun id q => q.due = s.time + 16 ∧
        (2 * q.due + 1, .longWriteFill c.gid id) ∈ t.agenda ∧ q.vals.map Prod.fst = List.range 64 ∧ p q.vals
    let Zero := fun (l : List (Nat × Nat)) => ∀ p < 64, (p, 0) ∈ l
    (∀ gid x, s.served g.core = some (gid, x) →
      (g.Full (k :: ks) [.sca a, .sca b] → s.CanOwn c.gid [d.val] →
        let sel := un s c g b k
        Read fun l =>
          (item < 64 → ∀ p < 64, (p, (x.vreg item p).toNat) ∈ l) ∧
          (item = 0x40 → sel < 4 → ∀ y, x.group sel = some y → ∀ n < 32,
            (2 * n, (y.s.get n).toNat % 2 ^ 32) ∈ l ∧ (2 * n + 1, (y.s.get n).toNat / 2 ^ 32) ∈ l) ∧
          (item = 0x41 → ∀ p < 64, ∃ m, (p, m) ∈ l ∧ ∀ n < 8, natBit m n = x.pred n p) ∧
          (item = 0x42 → sel < 4 → ∀ y, x.group sel = some y → (0, y.c.toNat / 2 * 2 + 1) ∈ l ∧ (1, y.fpflags.toNat) ∈ l ∧
            (2, y.fpmode.toNat) ∈ l ∧ (3, special s x sel 4 % 2 ^ 32) ∈ l ∧ (4, y.batch.toNat) ∈ l ∧
            ∃ m v u, (5, m) ∈ l ∧ (6, v) ∈ l ∧ (7, u) ∈ l ∧ ∀ n < 32, natBit m n = !y.sEmpty n ∧
              natBit v n = !x.vEmpty n ∧ natBit u n = !x.vEmpty (32 + n)) ∧
          (item = 0x43 → (0, x.pos % 2 ^ 32) ∈ l ∧ (1, x.active.toNat) ∈ l ∧ (5, x.seat) ∈ l ∧ (6, x.cls) ∈ l ∧
            ∀ tr, x.trap = some tr → (2, tr.code) ∈ l ∧ (3, tr.slot) ∈ l ∧ (4, tr.reason) ∈ l) ∧
          (item = 0x44 →
            (sel = 0 → ∀ n < 4, (2 * n, (x.lS.get n).toNat % 2 ^ 32) ∈ l ∧ (2 * n + 1, (x.lS.get n).toNat / 2 ^ 32) ∈ l) ∧
            ∀ n v, [(1, x.lV0), (2, x.lV1), (3, x.lC0), (4, x.lC1)].find? (fun y => y.1 == sel) = some (n, v) →
              ∀ p < 64, (p, (v.get p).toNat) ∈ l) ∧
          (item = 0x45 → sel < 16 → ∀ y, x.group (sel % 4) = some y → let h := y.latch (sel / 4)
            (∀ n < 8, (n, h.held.elim 0 fun ws => ((ws[n]?).getD 0).toNat) ∈ l) ∧
            (8, h.held.isSome.toNat) ∈ l ∧ (9, h.queue.getD 0) ∈ l) ∧
          (item = 0x46 → ∀ n, x.log.find? (fun n => n.num == sel) = some n →
            let left := n.elems.filter fun z => !z.performed
            let mask := laneMask (left.map fun z => if n.byGroup then z.at_ * x.width else z.at_)
            (0, n.pos % 2 ^ 32) ∈ l ∧ (1, n.pos / 2 ^ 32 % 2 ^ 32) ∈ l ∧
            (2, n.slot.order + n.width % 2 ^ 8 * 2 ^ 8 + n.opcode % 2 ^ 16 * 2 ^ 16) ∈ l ∧ (3, entryState x n) ∈ l ∧
            (4, mask % 2 ^ 32) ∈ l ∧ (5, mask / 2 ^ 32) ∈ l ∧
            ∀ z ∈ left, (∀ y ∈ left, z.addr ≤ y.addr) → (6, z.addr % 2 ^ 32) ∈ l ∧ (7, z.addr / 2 ^ 32 % 2 ^ 32) ∈ l) ∧
          (item = 0x47 → sel < 64 → (0, (s.hinfoWord x (x.handle sel)).toNat % 2 ^ 32) ∈ l ∧
            (1, (s.hinfoWord x (x.handle sel)).toNat / 2 ^ 32) ∈ l) ∧
          (0x47 < item ∨ ((item = 0x40 ∨ item = 0x42) ∧ (4 ≤ sel ∨ x.group sel = none)) ∨ (item = 0x44 ∧ 5 ≤ sel) ∨
            (item = 0x45 ∧ 16 ≤ sel) ∨ (item = 0x46 ∧ ∀ n ∈ x.log, n.num ≠ sel) ∨ (item = 0x47 ∧ 64 ≤ sel) → Zero l)) ∧
      (g.Full (k :: ks) [.sca a, .vec b, .sca e] → gid ≠ c.gid →
        let sel := un s c g e k
        let w := fun (p : Nat) => vun s c g b p
        let Writes := fun (p : Gang → Prop) => ∃ t y, exec (.gset gd a b e) s = .next t ∧ t.mem = s.mem ∧
          t.gang gid = some y ∧ (∀ j, j ≠ gid → j ≠ c.gid → t.gang j = s.gang j) ∧
          (∃ n, t.gang c.gid = some { g with reserve := n }) ∧ p y
        (item < 64 → (x.inherited.getLsbD item = true → 0 < x.reserve ∨ 0 < g.reserve ∨ 0 < (s.core x.core).pool) →
          Writes fun y => y = { x with v := y.v, vAwait := x.vAwait.del item, inherited := y.inherited,
                                       privates := y.privates, reserve := y.reserve } ∧
            (x.v.wf = true → ∀ p < 64, (y.vreg item p).toNat = w p ∧ ∀ n, n ≠ item → y.vreg n p = x.vreg n p) ∧
            ∀ n < 64, y.inherited.getLsbD n = (x.inherited.getLsbD n && n != item)) ∧
        (item = 0x40 → ∀ z, x.group sel = some z → Writes fun y => y = { x with groups := y.groups } ∧
          (∀ j, j ≠ sel → y.group j = x.group j) ∧ ∃ q, y.group sel = some q ∧ q = { z with s := q.s, sAwait := [] } ∧
          (z.s.wf = true → ∀ n < 32, (q.s.get n).toNat = w (2 * n) + w (2 * n + 1) * 2 ^ 32)) ∧
        (item = 0x41 → Writes fun y => y = { x with p := y.p } ∧
          (x.p.wf = true → ∀ n, 1 ≤ n → n < 8 → ∀ p < 64, y.pred n p = natBit (w p) n)) ∧
        (item = 0x42 → ∀ z, x.group sel = some z → Writes fun y => y = { x with groups := y.groups } ∧
          (∀ j, j ≠ sel → y.group j = x.group j) ∧ y.group sel = some { z with
            c := BitVec.ofNat 8 (w 0), cAwait := [], fpflags := BitVec.ofNat 5 (w 1), fpmode := BitVec.ofNat 2 (w 2),
            collide := z.collide && !natBit (w 3) 1 }) ∧
        (item = 0x43 → Writes (fun y => y = { x with pos := w 0, active := BitVec.ofNat 4 (w 1), resolving := false }) ∧
          ∃ t q, exec (.gset gd a b e) s = .next t ∧ (t.core g.core).run = some q ∧ q.moved = true ∧ q.served = some gid) ∧
        (item = 0x44 → Writes fun y =>
          let Is := fun (v : Cells 32) => ∀ p < 64, (v.get p).toNat = w p
          (sel = 0 → y = { x with lS := y.lS } ∧ ∀ n < 4, (y.lS.get n).toNat = w (2 * n) + w (2 * n + 1) * 2 ^ 32) ∧
          (sel = 1 → y = { x with lV0 := y.lV0 } ∧ Is y.lV0) ∧ (sel = 2 → y = { x with lV1 := y.lV1 } ∧ Is y.lV1) ∧
          (sel = 3 → y = { x with lC0 := y.lC0, lC0tag := 0 } ∧ Is y.lC0) ∧
          (sel = 4 → y = { x with lC1 := y.lC1, lC1tag := 0 } ∧ Is y.lC1) ∧ (5 ≤ sel → y = x)) ∧
        (0x45 ≤ item → item ≠ 0xFF → Writes fun y => y = x) ∧
        ((item = 0x40 ∨ item = 0x42) → x.group sel = none → Writes fun y => y = x) ∧
        (item = 0xFF → exec (.gset gd a b e) s = exec (.resumeAction g.core (BitVec.ofNat 32 (w 0))) s))) ∧
    (s.served g.core = none →
      (g.Full (k :: ks) [.sca a, .sca b] → s.CanOwn c.gid [d.val] → Read Zero) ∧
      (g.Full (k :: ks) [.sca a, .vec b, .sca e] → exec (.gset gd a b e) s = .next s)) ∧
    (g.Full (k :: ks) [.sca a] →
      (s.debugLvl = 0 ∨ s.lifecycle = 2 → ∃ t, exec (.mbox gd r a) s = .next t ∧ t.mem = s.mem ∧
        Pending t c.gid (.s r.val) 0 fun id q => q.vals = (k :: ks).map (fun j => (j, 0)) ∧ q.due = s.time + 16 ∧
          (2 * q.due + 1, .longWriteFill c.gid id) ∈ t.agenda) ∧
      (s.debugLvl ≠ 0 → s.lifecycle ≠ 2 → ∃ t, exec (.mbox gd r a) s = .next t ∧ t.mem = s.mem ∧
        Pending t c.gid (.s r.val) (ks.length + 1) fun id _ => (t.core g.core).mbox = (s.core g.core).mbox ++
          (k :: ks).map (fun j => (c.gid, j, id, some (ssrc s c g a j))) ∧ ∀ j ∈ k :: ks, AfterRelease' t c (.mbox c.gid j)))

/-- R225, R333, R334: action 0 runs the trapped bundle again, action 1 goes on after it, action 2 kills the team, and any
other value does nothing: the served gang is unparked at that position with its counts begun anew. -/
def Sys2Proof.Claims.ResumeActions : Prop :=
  ∀ (s : State) (core : Nat) (r : HandlerRun) (gid : Nat) (g : Gang) (tr : Trap), (s.core core).run = some r →
    r.served = some gid → s.gang gid = some g → g.trap = some tr → g.active ≠ 0 →
    let Unparked := fun (a : Word32) (pos : Nat) (done again : Bool) => ∃ u, exec (.resumeAction core a) s = .next u ∧
      u.mem = s.mem ∧ (u.core core).run = some { r with served := none } ∧ (∀ j, j ≠ gid → u.gang j = s.gang j) ∧
      u.gang gid = some { g with park := .none, trap := none, pos := pos, fetch := .idle, agedFrom := s.time,
                                 lastIssue := none, aged := false, folded := 0, wait := none, breakDone := done,
                                 breakNext := again }
    Unparked 0 g.pos (tr.code == 0x11) false ∧
    (tr.code = 0x11 → Unparked 1 g.pos true true) ∧
    (tr.code ≠ 0x11 → tr.code ≠ 0x02 ∨ tr.detail1 = 1 ∨ r.moved = true →
      Unparked 1 (if r.moved = true ∨ tr.code = 0x0C then g.pos else g.trapNext) false false) ∧
    (∃ t, exec (.resumeAction core 2) s = .next t ∧
      ∀ tm, s.team g.team = some tm → ∃ u, t.team g.team = some u ∧ u.phase = .killed ∧ u.status = 1) ∧
    ∀ a : Word32, 2 < a.toNat → exec (.resumeAction core a) s = .next s

/-- GSTATE, GSET, MBOX and the three resume actions: the claims HandlerInstructions and ResumeActions together.
The model's own readings: log 48, 53, 54, 116. -/
def Obligations.HandlerAndResume : Prop := Claims.HandlerInstructions ∧ Claims.ResumeActions

namespace Sys2Proof.Claims

open Sys2Proof.Machine

/-- The record just accepted stands last in its queue, under the next number, and is counted (R292, R293). -/
def Accepted (x y : HiveQueue) (words : List Word32) (place : RecPlace) (now : Nat) : Prop :=
  y.nextSeq = x.nextSeq + 1 ∧ y.pushed = x.pushed + 1 ∧ ∃ r, y.recs.getLast? = some r ∧ r.seq = x.nextSeq ∧
    r.arrival = now ∧ r.words = words ∧ r.place = place

/-- The queue takes a push, and nothing is held or waits before it (R298). -/
def Takes (x : HiveQueue) : Prop := x.held = [] ∧ x.refuses = false

end Sys2Proof.Claims

/-! ## The Hive -/

/-- R217 to R219, R292, R293, R296, R298, R312: an arriving push is accepted on chip while fewer than 32 records are there,
none is in the ring and no burst is in flight, else written to the next ring place; a queue that refuses holds a QPUSH,
whose refusal sets out for the gang and parks it until no record of it is held, and answers a QPUSHN's group with false; an
accepted one answers it with true. The model's own readings: log 43, 108. -/
def Obligations.PushesArrive : Prop :=
  ∀ (s : State) (id : Nat) (p : Push), s.pushes.find id = some p → p.hsn = none →
    let x := s.queue p.queue
    let OnChip := fun (x : HiveQueue) => x.chip < 32 ∧ x.ring = 0 ∧ x.landedAt ≠ some s.time
    (p.arrival ≤ s.time → Takes x → OnChip x → ∃ t, exec (.pushArrival id) s = .next t ∧
      t.mem = s.mem ∧ Accepted x (t.queue p.queue) p.words .chip s.time) ∧
    (∀ cfg key, p.arrival ≤ s.time → Takes x → ¬OnChip x → x.cfg = some cfg →
      s.ringKey cfg x.nextPlace = .ok key → ∃ t, exec (.pushArrival id) s = .next t ∧
        t.mem = s.mem.setRun key (p.words.flatMap fun w => bytesLE 4 w.toNat) ∧
        Accepted x (t.queue p.queue) [] (.ring x.nextPlace) s.time ∧ (t.queue p.queue).spilled = x.spilled + 1 ∧
        (t.queue p.queue).nextPlace = (x.nextPlace + 1) % 2 ^ cfg.ringLog) ∧
    (p.arrival ≤ s.time → ¬Takes x → p.holds = true → ∃ t, exec (.pushArrival id) s = .next t ∧ t.mem = s.mem ∧
      (t.queue p.queue).held = x.held ++ [id] ∧ (t.queue p.queue).recs = x.recs ∧
      (p.gid.isSome = true → (2 * (s.time + (p.arrival - p.left)), .pushRefusal id) ∈ t.agenda)) ∧
    (∀ gid l g q f, p.arrival ≤ s.time → p.holds = false → p.gid = some gid → p.long = some l →
      s.gang gid = some g → g.longs.find l = some q → q.dest = .c f →
      (¬Takes x → ∃ t, exec (.pushArrival id) s = .next t ∧ t.mem = s.mem ∧ t.queues = s.queues ∧
        Answered t gid q p.group 0) ∧
      (Takes x → OnChip x → ∃ t, exec (.pushArrival id) s = .next t ∧ Answered t gid q p.group 1)) ∧
    (∀ gid g, p.gid = some gid → s.gang gid = some g → p.refused = false → ∃ t m, exec (.pushRefusal id) s = .next t ∧
      t.mem = s.mem ∧ t.gang gid = some m ∧ m.heldPushes = t.heldOf gid ∧ m.v = g.v ∧
      t.pushes = if s.isHeld id then s.pushes.put id { p with refused := true } else s.pushes.del id) ∧
    (x.held = [id] → x.refuses = false → OnChip x → ∃ t, exec (.heldPushAccept p.queue) s = .next t ∧
      t.mem = s.mem ∧ (t.queue p.queue).held = [] ∧ Accepted x (t.queue p.queue) p.words .chip s.time ∧
      ∀ gid g, p.gid = some gid → s.gang gid = some g → ∃ m, t.gang gid = some m ∧
        m.heldPushes = if g.heldPushes = 0 then 0 else t.heldOf gid)

/-- R219 to R221, R293, R297, R299 to R301, R312: a claimed record fills QPOP's register and is consumed, or enters its
latch with an acquire; QSTAT takes the snapshot; QARM's values stand, T never above HW; a burst reads the oldest ring
records as memory holds them and lands 520 cycles later; a firing reserves the oldest records for its team.
The model's own readings: log 41, 42, 70, 108, 113, 114. -/
def Obligations.QueueEvents : Prop :=
  (∀ (s : State) (id : Nat) (c : Claim) (due : Nat) (g : Gang), s.claims.find id = some c → c.due = some due →
    due ≤ s.time → s.gang c.gid = some g →
    (∀ l q d, c.stat = true → c.pop = some l → g.longs.find l = some q → q.dest = .s d →
      ∃ t, exec (.latchDelivery id) s = .next t ∧ t.mem = s.mem ∧ t.queues = s.queues ∧
        Answered t c.gid q c.group (s.queue c.queue).stat) ∧
    (∀ l q r, c.stat = false → c.pop = some l → g.longs.find l = some q → c.seq.bind (s.queue c.queue).rec? = some r →
      ∃ t m y, exec (.latchDelivery id) s = .next t ∧ t.mem = s.mem ∧ t.gang c.gid = some m ∧ m.longs.find l = some y ∧
        y.vals = q.vals ++ (g.lanes c.group).map (fun p => (p, ((r.words[(p - (g.lanes c.group).headD 0) % 8]?).getD 0).toNat)) ∧
        y.want = q.want - 1 ∧ ∀ z ∈ (t.queue c.queue).recs, z.seq = r.seq → z.status = .gone) ∧
    (∀ r x, c.stat = false → c.pop = none → c.seq.bind (s.queue c.queue).rec? = some r → g.group c.group = some x →
      ∃ t m y o, exec (.latchDelivery id) s = .next t ∧ t.mem = s.mem ∧ t.queues = s.queues ∧ t.gang c.gid = some m ∧
        m.group c.group = some y ∧ m.sync = some o ∧ o.drops = true ∧
        ((x.latch c.latch).held = none → (y.latch c.latch).held = some r.words ∧ (y.latch c.latch).heldSeq = r.seq) ∧
        ((x.latch c.latch).held ≠ none → (y.latch c.latch).held = (x.latch c.latch).held ∧
          (y.latch c.latch).next = some r.words ∧ (y.latch c.latch).nextSeq = r.seq))) ∧
  (∀ (s : State) (id : Nat) (w : QarmWrite) (cfg : QueueCfg), s.qarms.find id = some w →
    (s.queue w.queue).cfg = some cfg → ∃ t y, exec (.qarmUpdate id) s = .next t ∧ t.mem = s.mem ∧ t.gangs = s.gangs ∧
      (t.queue w.queue).cfg = some y ∧ y.age = w.age ∧ y.ring = cfg.ring ∧ y.hw = cfg.hw ∧
      y.threshold = if cfg.hw = 0 then w.threshold else min w.threshold cfg.hw) ∧
  (∀ (s : State) (q : Nat) (cfg : QueueCfg), (s.queue q).cfg = some cfg →
    let x := s.queue q
    (∀ r p key, x.burst = none → x.burstFaulted = false → x.burstFrom ≤ s.time → x.recs = [r] → r.place = .ring p →
      s.ringKey cfg p = .ok key → ∃ t, exec (.refillBurstStart q) s = .next t ∧ t.mem = s.mem ∧
        (t.queue q).burst = some (s.time + 520) ∧ (2 * (s.time + 520) + 1, .refillBurstLanding q) ∈ t.agenda ∧
        (t.queue q).recs = [{ r with place := .burst p, words := (List.range 8).map (fun i =>
          BitVec.ofNat 32 (natOfBytes ((List.range 4).map fun j => s.mem.get (key + 4 * i + j)))) }]) ∧
    (∀ due, x.burst = some due → due ≤ s.time → x.recovering = false → ∃ t, exec (.refillBurstLanding q) s = .next t ∧
      t.mem = s.mem ∧ (t.queue q).burst = none ∧ (t.queue q).refills = x.refills + 1 ∧
      (t.queue q).recs.map QRec.words = x.recs.map QRec.words ∧
      (t.queue q).recs.map QRec.place = x.recs.map fun r => match r.place with | .burst _ => .chip | y => y) ∧
    (s.nextFiring (queueDie q) = some q → x.launch.isSome = true →
      let Fired := fun (t : State) => ∃ id tm, t.mem = s.mem ∧ t.team id = some tm ∧ tm.phase = .pending ∧
        tm.qbatch = ((x.firing + 1) % 2 ^ 32) * 2 ^ 32 + min x.free cfg.batchMax * 2 ^ 16 + q ∧
        (t.queue q).firing = (x.firing + 1) % 2 ^ 32 ∧ (t.queue q).inProgress = x.inProgress + 1 ∧
        (t.queue q).depth = x.depth - min x.free cfg.batchMax ∧ (t.queue q).free = x.free - min x.free cfg.batchMax ∧ t.firingUnits.find (queueDie q) = some s.time ∧
        (t.queue q).ageFired = x.ageFired + if x.depth < cfg.threshold then 1 else 0
      (∃ t, exec (.firing (queueDie q)) s = .next t ∧ Fired t) ∧
      (x.old cfg s.time = true → ∃ t, exec (.ageTrigger q) s = .next t ∧ Fired t)))

/-! ## Fetch, translation and recoverable faults -/

/-- R29, R101 to R103, R107 to R111, R262: fetch reads the reference at the gang's position; a decoded bundle is held with
its immediates and the position after it; a missing entry is counted and asked for; a missing line is on its way from
its home; a stream that ends or an invalid escape traps STREAM. A line that arrives is there, and those that wait for
stream bytes look again; an entry that arrives is there. The model's own readings: log 30, 31, 32, 110, 111. -/
def Obligations.FetchEvents : Prop :=
  (∀ (s : State) (gid : Nat) (g : Gang), s.gang gid = some g → g.fetch = .idle → g.park = .none → g.active ≠ 0 →
    let va := (s.streamBase g + g.pos) % 2 ^ 64
    let Now := fun (f : Fetch) => ∃ t l, exec (.streamFetch gid) s = .next t ∧ t.mem = s.mem ∧ t.gang gid = some l ∧
      l.fetch = f ∧ l.pos = g.pos ∧ l.v = g.v ∧ l.groups = g.groups
    (2 ^ 48 ≤ va → Now (.trap { code := 0x02, gmask := g.activeMask, detail0 := va, detail1 := 4 } g.pos)) ∧
    (∀ b0 b1, va < 2 ^ 48 → g.resolving = false → (s.core g.core).streamByte g.context va = some b0 →
      (0x80 ≤ b0.toNat → (s.core g.core).streamByte g.context (va + 1) = some b1) → (b0.toNat < 0x80 → b1 = 0) →
      (readRef [b0, b1] = .ok .stop → Now .stop) ∧
      (∀ x, readRef [b0, b1] = .error x →
        Now (.trap { code := 0x02, gmask := g.activeMask, detail0 := b1.toNat, detail1 := 1 } (posAfter g.pos 2))) ∧
      (∀ i len, readRef [b0, b1] = .ok (.index i len) →
        ((∀ e ∈ (s.core g.core).table g.handler, e.is g.launch (s.dictBase g) i = false) →
          ∃ t l, exec (.streamFetch gid) s = .next t ∧ t.mem = s.mem ∧ t.gang gid = some l ∧ l.pos = g.pos ∧
            l.dictmiss = (g.dictmiss + 1) % 2 ^ 32 ∧ (l.fetch = .entry i ∨
              ∃ a, l.fetch = .trap { code := 0x02, gmask := g.activeMask, detail0 := a, detail1 := 5 } g.pos)) ∧
        (∀ e x bs imms, ((s.core g.core).table g.handler).find? (fun e => e.is g.launch (s.dictBase g) i) = some e →
          e.entry = .usable x → (s.core g.core).streamRun g.context (va + len) (sumNat x.widths) = .ok bs →
          readImms x.widths bs = some imms → g.nullifies x = false →
          Now (.bundle { index := i, next := (g.pos + (len + sumNat x.widths)) % 2 ^ 64, entry := .usable x, imms := imms,
                         lost := false })))) ∧
    (∀ e u, va < 2 ^ 48 → (s.core g.core).streamByte g.context va = none →
      (∀ f ∈ (s.core g.core).streamFills.vals, f.context = g.context → f.line ≠ va / 128) →
      s.translate g.core g.context va .fetch (.fetch gid) = (.ok e, u) → u.gang gid = some g → u.mem = s.mem →
      Now .stream ∧ ∃ t id f, exec (.streamFetch gid) s = .next t ∧ (t.core g.core).streamFills.find id = some f ∧
        f.line = va / 128 ∧ f.key = e.key (va / 128 * 128) ∧
        (2 * (u.time + u.pathTo (dieOf g.core) (lineOf f.key)), .streamCacheFill g.core id) ∈ t.agenda)) ∧
  (∀ (s : State) (core id : Nat) (f : StreamFill), (s.core core).streamFills.find id = some f →
    ∃ t, exec (.streamCacheFill core id) s = .next t ∧ t.mem = s.mem ∧
      (t.core core).streamCache.head? = some ⟨f.context, f.line, (List.range 128).map fun i => s.mem.get (f.key + i)⟩ ∧
      ∀ gid g, s.gang gid = some g → t.gang gid =
        some (if g.core = core ∧ g.fetch = .stream then { g with fetch := .idle } else g)) ∧
  (∀ (s : State) (core id : Nat) (r : Refill) (due : Nat) (d : Decoded), (s.core core).refills.find id = some r →
    r.due = some due → due ≤ s.time → r.decoded = some d →
    (((s.core core).table r.handler).countP fun e => r.handler || e.launch == r.launch) <
      (s.core core).places r.handler r.launch →
    ∃ t, exec (.refillInstall core id) s = .next t ∧ t.mem = s.mem ∧
      { launch := r.launch, dict := r.dict, index := r.index, entry := d } ∈ (t.core core).table r.handler)

/-- R261, R262, R264, R266, R307: a walk that ends puts the page in the core's TLB and lets what waited go on, where the page
allows any of it, and else fails it and leaves the TLB; it reports an absent page, or fails what waited; a resolved fault lets it go on, an unresolved one fails it; PAGE is taken at the
bundle boundary with the access's own position. The model's own readings: log 39, 57, 65, 100, 110. -/
def Obligations.TranslationEvents : Prop :=
  (∀ (s : State) (die id due : Nat) (w : Walk), s.walks.find id = some w → w.due = some due → due ≤ s.time →
    (∀ e ls, s.walkHost w.context w.addr = .page e ls →
      (w.clients.any (s.clientAllowed e w.addr) = true → ∃ u, u.mem = s.mem ∧ u.gangs = s.gangs ∧ u.copies = s.copies ∧
        u.time = s.time ∧ (u.core w.core).tlb.head? = some e ∧
        exec (.tlbWalkDone die id) s = .next (w.clients.foldl (fun s cl => s.retryClient w.addr (e.base, e.size) cl) u) ∧
        (∀ gid g next, w.clients = [.fetch gid] → s.gang gid = some g → g.fetch = .walk next → ∃ t,
          exec (.tlbWalkDone die id) s = .next t ∧ t.gang gid = some { g with fetch := .idle }) ∧
        (∀ n, w.clients = [.copy n] → ∃ t, exec (.tlbWalkDone die id) s = .next t ∧
          (2 * s.time, .copyCompletion n) ∈ t.agenda)) ∧
      (w.clients.any (s.clientAllowed e w.addr) = false → ∃ u, u.mem = s.mem ∧ u.gangs = s.gangs ∧ u.copies = s.copies ∧
        u.time = s.time ∧ (u.core w.core).tlb = (s.core w.core).tlb ∧
        exec (.tlbWalkDone die id) s =
          .next (w.clients.foldl (fun s cl => s.failClient w.addr (e.base, e.size) (if e.exec then 4 else 2) cl) u))) ∧
    (∀ ls, s.walkHost w.context w.addr = .absent ls → ∃ t, exec (.tlbWalkDone die id) s = .next t ∧ t.mem = s.mem ∧
      ∃ f ∈ t.faults.vals, f.core = w.core ∧ f.context = w.context ∧ f.span = s.pageSpan w.context w.addr ∧
        ∀ cl ∈ w.clients, cl ∈ f.clients) ∧
    (∀ ls gid g next, s.walkHost w.context w.addr = .bad ls → w.clients = [.fetch gid] → s.gang gid = some g →
      g.fetch = .walk next → ∃ t l a, exec (.tlbWalkDone die id) s = .next t ∧ t.mem = s.mem ∧ t.gang gid = some l ∧
        l.fetch = .trap { code := 0x02, gmask := g.activeMask, detail0 := a, detail1 := 4 } next)) ∧
  (∀ (s : State) (id : Nat) (f : FaultRec), s.faults.find id = some f →
    -- an operand-log entry: its elements in the page are issued again, or PAGE is due and the entry is gone
    (∀ gid seq g le, f.clients = [.log gid seq] → s.gang gid = some g → g.log = [le] → le.seq = seq →
      let here := fun (e : Elem) => decide (f.span.1 ≤ e.addr ∧ e.addr < f.span.1 + f.span.2)
      let left := le.elems.filter fun e => !e.performed
      exec (.faultResolution id true) s =
        .next ((({ s with faults := s.faults.del id, draws := s.draws + 1 } : State).updGang gid fun l => { l with
          log := [{ le with elems := le.elems.map fun e => if here e then { e with faulted := false } else e }] }).tryLog gid) ∧
      ∀ e rest, left.filter here = e :: rest → ∃ t l tr, exec (.faultResolution id false) s = .next t ∧ t.mem = s.mem ∧
        t.gang gid = some l ∧ l.v = g.v ∧ l.groups = g.groups ∧ l.log = [] ∧ l.page = g.page ++ [(le.pos, tr)] ∧
        tr.code = 0x0C ∧ tr.slot = le.slot.order ∧ tr.detail0 = e.addr ∧ tr.detail1 = le.num ∧
        field tr.log 0x0C 1 = 3 ∧ (le.long = none → l.longs = g.longs) ∧
        ∀ n q, le.long = some n → g.longs.find n = some q → q.want = left.length → ∃ y, l.longs.find n = some y ∧
          y.want = 0 ∧ y.vals = q.vals ∧ y.dest = q.dest ∧ (2 * max y.due s.time + 1, .longWriteFill gid n) ∈ t.agenda) ∧
    (∀ n, f.clients = [.copy n] → ∃ t, exec (.faultResolution id true) s = .next t ∧ t.mem = s.mem ∧
      t.faults = s.faults.del id ∧ (2 * s.time, .copyCompletion n) ∈ t.agenda) ∧
    (∀ q x, f.clients = [.queue q] → s.faultsStatus q f.addr = false → s.queue q = x → x.faultsPlace f.addr = true →
      (exec (.faultResolution id true) s =
        .next (({ s with faults := s.faults.del id, draws := s.draws + 1 } : State).recoverQueue q)) ∧
      ∃ t, exec (.faultResolution id false) s = .next t ∧ (t.queue q).fcode = 3 ∧ (t.queue q).fplace = x.fplace) ∧
    (∀ gid g next, f.clients = [.fetch gid] → s.gang gid = some g → g.fetch = .walk next →
      (exec (.faultResolution id true) s =
        .next (({ s with faults := s.faults.del id, draws := s.draws + 1 } : State).setFetch gid .idle)) ∧
      ∃ t l, exec (.faultResolution id false) s = .next t ∧ t.mem = s.mem ∧ t.gang gid = some l ∧
        l.fetch = .trap { code := 0x02, gmask := g.activeMask, detail0 := s.fetchAddress g, detail1 := 4 } next)) ∧
  (∀ (s : State) (gid : Nat) (g : Gang) (pos : Nat) (t : Trap) (rest : List (Nat × Trap)), s.gang gid = some g →
    g.page = (pos, t) :: rest → g.seated = true → g.park = .none ∨ g.park = .ending →
    exec (.page gid) s = .next ((s.putGang gid { g with page := rest }).takeTrap gid t pos g.pos))

/-! ## Gangs and teams -/

/-- R19, R34, R37, R38, R40, R145, R147, R148: aging, waking, the end of a YIELD; a gang whose work has drained leaves its
seat; FREEZE takes its snapshot once all is quiet, records the template and ends the prologue; an installed template lets
its gangs start; a copy deadlock hard-pre-empts the latest team. The model's own readings: log 62, 63. -/
def Obligations.GangEvents : Prop :=
  (∀ (s : State) (gid : Nat) (g : Gang), s.gang gid = some g →
    (g.seated = true → g.handler = false → g.aged = false → g.ageFrom + 256 ≤ s.time →
      exec (.starvationBound gid) s = .next (s.updGang gid fun _ => { g with aged := true })) ∧
    (g.park = .none → g.wake ≤ s.time →
      exec (.sleepWake gid) s = .next (s.updGang gid fun _ => { g with wake := 0 })) ∧
    (∀ due, g.yieldUntil = some due → due ≤ s.time →
      exec (.yieldExpiry gid) s = .next (s.updGang gid fun _ => { g with yieldTo := [], yieldUntil := none })) ∧
    (g.park = .ending → g.seated = true → g.flights = [] → g.log = [] → g.page = [] → g.handler = false →
      g.teamPrologue = false → (∀ x ∈ g.groups.vals, x.openBatch = [] ∧ x.sealed = []) →
      ∃ t l, exec (.gangEnd gid) s = .next t ∧ t.mem = s.mem ∧ t.gang gid = some l ∧ l.park = .ended ∧ l.seated = false ∧
        l.privates = 0 ∧ l.v = g.v) ∧
    (g.park = .freezing → s.freezePublishes g = [] → s.freezeQuiet gid g = true → ∃ t l,
      exec (.freezeSnapshot gid) s = .next t ∧ t.mem = s.mem ∧ t.gang gid = some l ∧ l.park = .frozen ∧
      s.time + 64 ≤ l.wake ∧ (2 * l.wake, .freezeSnapshot gid) ∈ t.agenda ∧
      (g.prologue = true → ∀ x, s.launch g.launch = some x → ∃ y, t.launch g.launch = some y ∧ y.segSealed = true)) ∧
    (g.park = .frozen → g.wake ≤ s.time → g.prologue = true → ∀ x, s.launch g.launch = some x → ∃ t l y f,
      exec (.freezeSnapshot gid) s = .next t ∧ t.mem = (s.writeImage g).mem ∧ t.launch g.launch = some y ∧
      y.frozenAt = some f ∧ f.pos = g.pos ∧ t.gang gid = some l ∧
      ((∀ k < 4, g.active.getLsbD k = true → k ∈ g.groups.keys) → g.reconv = [] → l.active = 0 ∧ l.park = .ending))) ∧
  (∀ (s : State) (core id due : Nat) (b : BankTemplate), (s.core core).templates.find id = some b → b.due = some due →
    due ≤ s.time → (s.launch b.key.launch).isSome = true → ∃ t x, exec (.templateInstall core id) s = .next t ∧
      t.mem = s.mem ∧ (t.core core).templates.find id = some x ∧ x.key = b.key ∧ x.due = none) ∧
  (∀ (s : State) (core tid : Nat) (tm : Team), s.copyDeadlocked core = true → s.latestTeam core = some tid →
    s.team tid = some tm → tm.phase = .placed → s.mayRestart { tm with deadlocked := true } = false → ∃ t u,
      exec (.copyDeadlock core) s = .next t ∧ t.mem = s.mem ∧ t.team tid = some u ∧ u.phase = .stopping ∧
      u.deadlocked = true ∧ u.stopAt = s.time)

/-- R317, R319, R321, R324, R325, R331, R332: the prologue team of an accepted launch pends; a team that fits is placed with
its barriers and quotas as at dispatch; a team whose work is done completes, with its record pushed where asked; the
oldest trapped gang's handler run starts with the record's address in s0, and a monitor's with its HELLO in OUTW.
The model's own readings: log 34, 36, 67, 86. -/
def Obligations.TeamEvents : Prop :=
  (∀ (s : State) (n : Nat) (l : Launch), s.launch n = some l → l.stage = 0 → ∃ t id tm y,
    exec (.prologueDispatch n) s = .next t ∧ t.mem = s.mem ∧ t.launch n = some y ∧ y.stage = 1 ∧ t.team id = some tm ∧
    tm.prologue = true ∧ tm.phase = .pending ∧ tm.launch = n ∧ s.nextId ≤ id) ∧
  (∀ (s : State) (tid : Nat) (tm : Team) (l : Launch) (cores : List Nat), s.team tid = some tm →
    tid < s.nextId → s.launch tm.launch = some l → s.placeOf tid tm = some cores → ∃ t u, exec (.teamPlacement tm.die tid) s = .next t ∧
    t.mem = s.mem ∧ t.team tid = some u ∧ u.phase = .placed ∧ u.cores = cores ∧ u.padCore = cores.headD 0 ∧
    u.freeA = l.quotaA ∧ u.freeB = l.quotaB ∧ u.records = [] ∧
    let n := if tm.prologue then 1 else l.groups
    ∀ b < 8, u.bars.find b = some
      { expectG := n, expectN := 0, leftG := n, leftN := 0, phase := 0, overrun := false, arrived := 0, flipAt := 0,
        phaseWas := 0 }) ∧
  (∀ (s : State) (tid : Nat) (tm : Team) (l : Launch), s.team tid = some tm → s.launch tm.launch = some l →
    s.teamMayComplete tm = true → tm.again = false → tm.prologue = false → l.done + 1 < l.count → ∃ t y,
    exec (.teamCompletion tid) s = .next t ∧ t.launch tm.launch = some y ∧ y.done = l.done + 1 ∧
    (l.completion ≠ 0xFFFFFFFF → ∀ first rest g, tm.gangs = first :: rest → s.gang first = some g → ∃ id p,
      t.pushes.find id = some p ∧ p.queue = l.completion ∧ p.gid = none ∧ p.words =
        ([tm.launch, tm.number, tm.status + tm.lastTrap * 2 ^ 8 + l.groups * 2 ^ 16, tm.qbatch / 2 ^ 32, s.time % 2 ^ 32,
          s.time / 2 ^ 32, 0, dieOf g.core * 32 + g.core % 32] : List Nat).map (BitVec.ofNat 32))) ∧
  (∀ (s : State) (core gid : Nat) (g : Gang) (l : Launch) (x : Context) (h : Nat × Nat × Nat),
    s.trapWork core = some (.start gid) → s.gang gid = some g → s.launch g.launch = some l → l.handler = some h →
    s.context g.context = some x → ∃ t r y q, exec (.handlerRunStart core) s = .next t ∧ t.mem = s.mem ∧
      (t.core core).run = some r ∧ r.served = some gid ∧ r.moved = false ∧ t.gang r.gid = some y ∧ y.handler = true ∧
      y.seat = 16 ∧ y.core = core ∧ y.launch = g.launch ∧ y.width = 64 ∧ y.group 0 = some q ∧
      q.s.get 0 = BitVec.ofNat 64 (x.trapArea + 128 * (17 * core + g.seat)) ∧
      (Config.monitorImage g.context h.1 = true → s.debugOpen = true → (s.core core).dbg.outFull = false →
        ∀ tr, g.trap = some tr → (t.core core).dbg.outFull = true ∧ (t.core core).dbg.outw =
          BitVec.ofNat 64 (0x80 * 2 ^ 56 + (tr.code * 2 ^ 16 + g.seat * 2 ^ 8 + tr.slot))))

/-- R336 to R344: a soft deadline begins the hard pre-emption of a team that may not restart, which stops its gangs and
sets the save's limit, that of its partition; a save that can be formed takes its span of the save area and its time; one
whose last byte is written leaves the team saved, its registers and position kept, and its slots, banks and seats returned;
a limit that passes resets the context. A saved team that fits is seated on its new cores; once its bytes have come, its
gangs hold what the record says in memory; and at the end, where nothing of it was on its way or is to trap again, the
team is placed with its gangs' registers and memory as they stood. The model's own readings: log 19, 59, 60, 61, 115. -/
def Obligations.PreemptionEvents : Prop :=
  ∀ (s : State) (tid : Nat) (tm : Team), s.team tid = some tm →
    (∀ d, tm.deadline = some d → d ≤ s.time → tm.phase = .placed → s.mayRestart tm = false → ∃ t u v,
      exec (.softDeadline tid) s = .next t ∧ t.mem = s.mem ∧ t.team tid = some u ∧ u.phase = .stopping ∧ u.stopAt = s.time ∧
      u.deadline = none ∧ u.saved = some v ∧ v.formed = false ∧ (2 * (s.time + s.saveLimit tm), .saveTimeout tid) ∈ t.agenda ∧
      ∀ i ∈ tm.gangs, ∀ g, s.gang i = some g → g.handler = false → g.park ≠ .ended → (∀ p ∈ s.cores, ∀ r, p.2.run = some r →
        r.gid ≠ i) → ∃ h, t.gang i = some h ∧ h.park = .stopped ∧ h.v = g.v) ∧
    (∀ v l, tm.saved = some v → s.launch tm.launch = some l → tm.phase = .stopping →
      (v.formed = true → v.due ≤ s.time → ∃ t u, exec (.saveComplete tid) s = .next t ∧ t.team tid = some u ∧
        t.mem = (s.writeSave tm v).mem ∧ u.phase = .saved ∧ u.saved = some v ∧
        (∀ i ∈ tm.gangs, ∀ g, s.gang i = some g → ∃ h, t.gang i = some h ∧ h.seated = false ∧ h.v = g.v ∧ h.p = g.p ∧
          h.groups = g.groups ∧ h.pos = g.pos) ∧
        ∀ k ∈ tm.cores, (∀ q ∈ (t.core k).slots, (∀ r, q.2 ≠ .record tid r) ∧ q.2 ≠ .pad tid) ∧
          (∀ q ∈ (t.core k).bankOwner, q.2 ∉ tm.gangs) ∧ ∀ q ∈ (t.core k).seats, q.2 ∉ tm.gangs) ∧
      (v.formed = false → s.saveSettled tid tm v = true → s.areaWaits tid = false → ∀ x, s.context l.context = some x →
        let w := (s.formSave tid tm v x).1
        s.checkArea l.context .write (x.saveArea + w.offset) w.size = .ok →
        ∃ t u y, exec (.saveComplete tid) s = .next t ∧ t.mem = s.mem ∧ t.team tid = some u ∧ u.saved = some y ∧
          y = { w with due := y.due } ∧ y.formed = true ∧ y.parks = v.parks ∧ s.time + (w.size + 127) / 128 ≤ y.due ∧
          (2 * y.due, .saveComplete tid) ∈ t.agenda ∧
          ∃ c, t.context l.context = some c ∧ (w.offset, w.size) ∈ c.saves)) ∧
    (tm.phase = .stopping → tm.stopAt + s.saveLimit tm ≤ s.time → ∀ l, s.launch tm.launch = some l → ∃ t,
      exec (.saveTimeout tid) s = .next t ∧ (∀ q c, (t.queue q).cfg = some c → c.context ≠ l.context) ∧
      (∀ x ∈ t.submits.vals, x.context = l.context → x.fromHost = true ∧ s.leads = false) ∧
      (s.launches.wf = true → ∀ n y, t.launch n = some y → y.context = l.context → y.stage = 4) ∧
      (s.launches.wf = true → s.teams.wf = true → t.team tid = none ∧ ∀ i u y, s.team i = some u →
        s.launch u.launch = some y → y.context = l.context → t.team i = none)) ∧
    (∀ v l x, tm.saved = some v → s.launch tm.launch = some l → s.context l.context = some x →
      (∀ cores, s.restorePlace tid tm = some cores → s.checkArea l.context .read (x.saveArea + v.offset) v.size = .ok →
        ∃ t u, exec (.restore tid) s = .next t ∧ t.mem = s.mem ∧ t.team tid = some u ∧ u.phase = .restoring ∧
          u.cores = cores ∧ u.saved = some { v with due := s.restoreEnd l.context (cores.headD 0) v x } ∧
          (2 * s.restoreEnd l.context (cores.headD 0) v x, .restore tid) ∈ t.agenda ∧
          ∀ i g, s.gang i = some g → ∃ h, t.gang i = some h ∧ h.v = g.v ∧ h.p = g.p ∧ h.groups = g.groups ∧
            h.pos = g.pos ∧ (i ∈ v.parks.map Prod.fst → h.seated = true ∧ h.core ∈ cores)) ∧
      (s.loadDue tid tm = true → s.checkArea l.context .read (x.saveArea + v.offset) v.size = .ok →
        exec (.restore tid) s = .next ((s.loadSave tid tm v (s.areaBytes l.context (x.saveArea + v.offset) v.size)).updTeam
          tid fun t => { t with saved := some { v with loaded := true } })) ∧
      (s.restoreReady tid tm = true → ∃ t u, exec (.restore tid) s = .next t ∧ t.team tid = some u ∧ u.phase = .placed ∧
        u.saved = none ∧
        (v.jobs = [] → v.copies = [] → v.claims = [] → v.mbox = [] → (∀ i ∈ tm.gangs, i ∈ v.parks.map Prod.fst) →
          (∀ p ∈ v.parks, p.2 ≠ .trapped ∧ p.2 ≠ .install ∧ ∀ g, s.gang p.1 = some g → g.log = []) →
          t.mem = s.mem ∧ ∀ p ∈ v.parks, ∀ g, s.gang p.1 = some g → ∃ h, t.gang p.1 = some h ∧ h.v = g.v ∧ h.p = g.p ∧
            h.groups = g.groups ∧ h.pos = g.pos))) ∧
    (∀ (g : Gang) (records : List Nat) (bs : List Byte), 0x5000 ≤ bs.length →
      let word := fun (o n : Nat) => natOfBytes ((bs.drop o).take n)
      let h := g.ofRecord records bs
      (∀ r < 64, ∀ lane < 64, g.inherited.getLsbD r = false →
        h.v.get (64 * r + lane) = BitVec.ofNat 32 (word (0x100 + 256 * r + 4 * lane) 4)) ∧
      (∀ r < 64, ∀ lane < 64, g.inherited.getLsbD r = true → g.v.wf = true → h.v.get (64 * r + lane) = g.v.get (64 * r + lane)) ∧
      (∀ k y, g.group k = some y → k < 4 → ∀ r < 32, ∃ z, h.group k = some z ∧
        z.s.get r = BitVec.ofNat 64 (word (0x4100 + 256 * k + 8 * r) 8)) ∧
      (∀ n, 0 < n → n < 8 → h.p.get n = BitVec.ofNat 64 (word (0x4600 + 8 * n) 8)) ∧
      h.pos = g.pos ∧ h.active = g.active)

namespace Sys2Proof.Claims

open Sys2Proof.Machine

/-- A command of the ring that starts now and whose bytes are in order (R375, R376). -/
def Starts (s : State) (h : Nat) (c : Command) : Prop :=
  s.commands.find h = some c ∧ s.commands.wf = true ∧ c.complete = false ∧ c.started = false ∧ s.leads = true ∧
    s.ringOpen = true ∧ s.mayStart h c = true ∧ s.commandError c = none

/-- The state in which a command has started: the die it is for leaves A2 (R390). -/
def starting (s : State) (h : Nat) (c : Command) : State :=
  ({ s with commands := s.commands.upd h fun c => { c with started := true } } : State).wakeDie (c.forDie s.leader)

end Sys2Proof.Claims

/-! ## The host -/

/-- R373, R375, R377, R378, R380, R383, R387, R391, R392, R394: what a host write to each register of BAR0 does; a
register write at a register's offset is the write to that register. After the lock, the boot verifies and measures the
image, and then makes its stages one by one or stops at one that fails. -/
def Sys2Proof.Claims.RegisterWrites : Prop :=
  ∀ (s : State) (v : Word64),
    let n := v.toNat
    (s.ringOpen = true →
      (s.ringState = 0 →
        (n < s.doorbell → exec (.doorbell v) s = .next s) ∧
        (s.doorbell ≤ n → s.consumedSeq + 2 ^ s.ringLog < n → ∃ t, exec (.doorbell v) s = .next t ∧ t.ringState = 1 ∧
          t.haltCause = 2 ∧ t.doorbell = s.doorbell) ∧
        (s.doorbell ≤ n → n ≤ s.consumedSeq + 2 ^ s.ringLog → ∃ t, exec (.doorbell v) s = .next t ∧ t.doorbell = n)) ∧
      (∃ t, exec (.resync v) s = .next t ∧ t.doorbell = s.consumedSeq ∧ t.ringState = 0 ∧ t.haltCause = 0 ∧
        t.commands = s.commands ∧ t.events = s.events ∧
        (s.leads = false → t.rewrites = (s.events.filter fun p => s.ackSeq < p.1).map Prod.fst) ∧
        ∀ m e, s.events = [(m, e)] → s.ackSeq < m → s.mayWrite m = true → s.statusAddr = 0 → t.rewrites = [] ∧
          t.mem = s.mem.setRun (memKey kindHost (s.eventBase + 64 * (m % 2 ^ s.eventLog))) (e.bytes m)) ∧
      (s.eventsLost = 0 → ∃ t, exec (.ackSeq v) s = .next t ∧ t.ackSeq = n ∧
        t.events = s.events.filter fun p => n < p.1) ∧
      (6 ≤ n % 32 → n % 32 ≤ 16 →
        (s.ringState = 2 ∨ (s.ringState = 1 ∧ s.completedSeq = s.consumedSeq) → ∃ t, exec (.ringcfg v) s = .next t ∧
          t.ringState = 0 ∧ t.ringBase = n / 2 ^ 12 * 2 ^ 12 ∧ t.ringLog = n % 32 ∧ t.doorbell = 0 ∧ t.consumedSeq = 0 ∧
          t.completedSeq = 0) ∧
        (∃ t, exec (.evcfg v) s = .next t ∧ t.eventBase = n / 2 ^ 12 * 2 ^ 12 ∧ t.eventLog = n % 32)) ∧
      (s.ringState = 0 → exec (.ringcfg v) s = .next s) ∧
      (n % 256 = 0 → exec (.registerWrite 0x28 v) s = .next { s with statusAddr := n })) ∧
    (v = 1 → s.carveLocked = false → s.bootStage = 3 → s.carveBase + s.carveSize ≤ 2 ^ 36 →
      exec (.carveLock v) s = .next { s with carveLocked := true, bootStage := 4 }) ∧
    (v ≠ 1 ∨ s.carveLocked = true ∨ s.bootStage ≠ 3 ∨ 2 ^ 36 < s.carveBase + s.carveSize →
      exec (.carveLock v) s = .next s) ∧
    (s.bootFail = 0 →
      (s.bootStage = 4 →
        let carve := s.bytesAt (memKey kindDevice s.carveBase) s.carveSize
        (imageAccepted carve = true → ∃ t, execBootStep s = .next t ∧ t.mem = s.mem ∧ t.bootStage = 5 ∧ t.bootFail = 0 ∧
          t.meas = s.meas.set 1 (BitVec.ofNat 256 (natOfBytes (sha256 (bytesLE 32 (s.meas.get 1).toNat ++
            imageBytes carve))))) ∧
        (imageAccepted carve = false ∨ carve.take 4 ≠ [0x53, 0x56, 0x46, 0x57] →
          execBootStep s = .next { s with bootFail := 4 })) ∧
      (s.bootStage = 5 ∨ s.bootStage = 6 → ∃ t, execBootStep s = .next t ∧
        ((t.bootStage = s.bootStage + 1 ∧ t.bootFail = 0) ∨
          (t.bootStage = s.bootStage ∧ t.bootFail = s.bootStage ∧ t.mem = s.mem)))) ∧
    (s.bootFail ≠ 0 → execBootStep s = .next s) ∧
    (s.sleeping = false →
      (levelPermitted s.lifecycle (n % 4) = true → ∃ t, exec (.debuglvl v) s = .next t ∧ t.debugLvl = n % 4 ∧
        t.mem = s.mem ∧ (n % 4 ≠ 2 → t.halted = false) ∧ (n % 4 = 2 → t.halted = s.halted ∧ t.parkedDies = []) ∧
        (n % 4 = 0 → ∀ p ∈ s.cores, (t.core p.1).mbox = [])) ∧
      (levelPermitted s.lifecycle (n % 4) = false → exec (.debuglvl v) s = .next s) ∧
      (∀ core < 192, s.debugOpen = true →
        ((s.core core).dbg.inFull = true → exec (.inw core v) s = .next s) ∧
        ((s.core core).dbg.inFull = false → (s.core core).mbox = [] → ∃ t, exec (.inw core v) s = .next t ∧ t.mem = s.mem ∧
          (t.core core).dbg.inw = v ∧ (t.core core).dbg.inFull = true) ∧
        ((s.core core).mbox = [] → (s.core core).monitor = none → ∃ t, exec (.outw core) s = .next t ∧ t.mem = s.mem ∧
          t.hostRead = (s.core core).dbg.outw.toNat ∧ (t.core core).dbg.outFull = false)) ∧
      (∀ core < 192, s.debugOpen = false → exec (.inw core v) s = .next s ∧
        exec (.outw core) s = .next { s with hostRead := 0 }) ∧
      (s.carveLocked = false → n % 2 ^ 20 = 0 → exec (.registerWrite 0x200 v) s = .next { s with carveBase := n } ∧
        (n ≤ 2 ^ 28 → exec (.registerWrite 0x208 v) s = .next { s with carveSize := n })) ∧
      (∀ core i, core < 192 → i < 8 → ∃ t, exec (.registerWrite (0x10000 + 256 * core + 0x80 + 8 * i) v) s = .next t ∧
        t.mem = s.mem ∧ (t.core core).dbg.pmsel.find i = some (n % 256 + n / 2 ^ 15 % 2 * 2 ^ 15))) ∧
    exec (.registerWrite 0 v) s = exec (.doorbell v) s ∧ exec (.registerWrite 8 v) s = exec (.resync v) s ∧
    exec (.registerWrite 0x10 v) s = exec (.ackSeq v) s ∧ exec (.registerWrite 0x18 v) s = exec (.ringcfg v) s ∧
    exec (.registerWrite 0x20 v) s = exec (.evcfg v) s ∧ exec (.registerWrite 0x210 v) s = exec (.carveLock v) s ∧
    exec (.registerWrite 0x1C008 v) s = exec (.debuglvl v) s

/-- R8, R9, R373, R384, R387, R391, R392, R394, R397: what a host read of a register of BAR0 delivers, and nothing else of it:
a register that is only written reads as zero, OUTW's read is the word's taking, and reserved bits are zero. -/
def Sys2Proof.Claims.RegisterReads : Prop :=
  ∀ (s : State),
    let Reads := fun (offset n : Nat) => execRegisterRead offset s = .next { s with hostRead := n }
    (∀ offset ∈ [0x0, 0x8, 0x210, 0x30, 0x1C018], Reads offset 0) ∧
    Reads 0x10 s.ackSeq ∧ Reads 0x18 s.ringCfg ∧ Reads 0x20 s.evCfg ∧ Reads 0x28 s.statusAddr ∧ Reads 0x220 s.bar2base ∧ Reads 0x200 s.carveBase ∧ Reads 0x208 s.carveSize ∧
    Reads 0x218 (s.bootStage + 16 * s.bootFail) ∧ Reads 0x1C000 s.lifecycle ∧ Reads 0x1C008 s.debugLvl ∧
    Reads 0x100 (s.consumedSeq % 2 ^ 64) ∧ Reads 0x108 (s.completedSeq % 2 ^ 64) ∧ Reads 0x110 (s.eventSeq % 2 ^ 64) ∧
    Reads 0x118 ((s.ringState + s.haltCause * 2 ^ 8) % 2 ^ 64) ∧ Reads 0x120 0 ∧
    (∀ v : Word64, s.ringOpen = true → s.ringState = 2 → 6 ≤ v.toNat % 32 → v.toNat % 32 ≤ 16 → ∃ t, exec (.ringcfg v) s = .next t ∧
      t.ringCfg = v.toNat / 2 ^ 12 * 2 ^ 12 + v.toNat % 32) ∧
    Reads 0x1000 (s.leader % 8) ∧ Reads 0x1008 (s.queenExpiry % 2 ^ 64) ∧ Reads 0x1C010 s.pstate ∧
    (s.sleeping = true → 3 * 2 ^ 28 ≤ s.pstate) ∧
    (∀ n < 8, ∀ i < 4, Reads (0x400 + 32 * n + 8 * i) ((s.meas.get n).toNat / 2 ^ (64 * i) % 2 ^ 64)) ∧
    (∀ core < 192,
      let a := 0x10000 + 256 * core
      let d := (s.core core).dbg
      execRegisterRead a s = exec (.outw core) s ∧ Reads (a + 8) 0 ∧
      (∀ i < 8, Reads (a + 0x80 + 8 * i) (d.pmsel.getD i 0) ∧
        (d.pmwritten = [] → Reads (a + 0xC0 + 8 * i) (d.pmcnt.getD i 0))) ∧
      (s.debugOpen = true → Reads (a + 0x10) (d.outFull.toNat + 2 * d.inFull.toNat) ∧ Reads (a + 0x60) d.step.toNat ∧
        ∀ i < 8, Reads (a + 0x20 + 8 * i) (d.bp.getD i 0)) ∧
      (s.debugOpen = false → Reads (a + 0x10) 0 ∧ Reads (a + 0x60) 0 ∧ ∀ i < 8, Reads (a + 0x20 + 8 * i) 0)) ∧
    (∀ die < 6, (∀ w, s.wear.find die = some w → ∀ i < 32, Reads (0x1D000 + 256 * die + 8 * i) (fieldOf w.published (8 * i) 8)) ∧
      (s.wear.find die = none → ∀ i < 32, Reads (0x1D000 + 256 * die + 8 * i) 0)) ∧
    ∃ n, Reads 0x1D600 n ∧ ∀ die < 6, ∀ w, s.wear.find die = some w → n ≤ fieldOf w.published 0x30 4 ∧
      ∃ d < 6, ∃ y, s.wear.find d = some y ∧ n = fieldOf y.published 0x30 4

/-- The registers of BAR0: the claims RegisterWrites and RegisterReads together.
The model's own readings: log 5, 7, 21, 23, 78, 81, 82, 83, 87, 106. -/
def Obligations.HostRegisters : Prop := Claims.RegisterWrites ∧ Claims.RegisterReads

/-- R263, R284, R294, R298, R315, R336, R338, R343, R375, R376, R379, R383: what each command of the host's ring does once
it starts with its bytes in order; a command whose bytes are wrong fails with its code.
The model's own readings: log 3, 72 to 77, 79, 87, 105, 117. -/
def Obligations.RingCommands : Prop :=
  (∀ (s : State) (h : Nat) (c : Command), Starts s h c →
    let Done := fun (i : Instr) (p : State → Prop) => ∃ t, exec i s = .next t ∧ t.commands.find h = none ∧ p t
    (c.opcode = 1 → exec (.hostLaunch h) s =
      .next ((starting s h c).submitLaunch c.context (c.u 0x10 8) (.host h (c.u 0x18 8)))) ∧
    (c.opcode = 2 → ∃ t id x, exec (.copy h) s = .next t ∧ t.mem = s.mem ∧ t.copies.find id = some x ∧ x.hsn = some h ∧
      x.kind = .global ∧ x.src = c.u 0x18 8 ∧ x.dst = c.u 0x10 8 ∧ x.bytes = c.u 0x20 8 ∧ x.context = c.context ∧
      (2 * s.time, .copyCompletion id) ∈ t.agenda) ∧
    (∀ bs, c.opcode = 3 → s.commandWaits h = false → s.readCtx c.context (c.u 0x18 8) 64 = .ok bs →
      s.configOk c.context (c.u 0x10 4) bs = true → Done (.queueCfg h) fun t =>
        (t.queue (c.u 0x10 4)).cfg = some (configOf c.context bs) ∧ (t.queue (c.u 0x10 4)).recs = [] ∧
        (t.queue (c.u 0x10 4)).firing = 0 ∧ (t.queue (c.u 0x10 4)).fcode = 0) ∧
    (c.opcode = 4 → ∃ t id p, exec (.queuePush h) s = .next t ∧ t.mem = s.mem ∧ t.pushes.find id = some p ∧
      p.queue = c.u 0x10 4 ∧ p.hsn = some h ∧ p.holds = true ∧
      p.words = (List.range 8).map (fun i => BitVec.ofNat 32 (c.u (0x20 + 4 * i) 4)) ∧
      (2 * p.arrival, .pushArrival id) ∈ t.agenda) ∧
    (c.opcode = 5 → s.statusAddr = 0 → Done (.signal h) fun t =>
      t.mem = s.mem.setRun (memKey kindHost (c.u 0x10 8)) (bytesLE 8 (c.u 0x18 8))) ∧
    (c.opcode = 6 → Done (.fence h) fun t => t.gangs = s.gangs ∧ t.launches = s.launches) ∧
    (c.opcode = 7 → ∀ i, i = (if c.u 0x14 4 = 1 then Instr.preemptHard h else Instr.preemptSoft h) → ∃ t, exec i s = .next t ∧
      ∀ n l, s.launch n = some l → l.context = c.context → l.stage < 4 → c.u 0x10 4 = 0 ∨ c.u 0x10 4 = n →
        ∃ y, t.launch n = some y ∧ y.preempted = true) ∧
    (c.opcode = 8 → Done (.inval h) fun t => ∀ p ∈ t.cores, (s.partitionCores c.context).contains p.1 = true →
      ∀ e ∈ p.2.tlb, e.context = c.context → overlaps e.base e.size (c.u 0x10 8) (c.u 0x18 8) = false) ∧
    (c.opcode = 9 → c.u 0x10 4 = 0 → Done (.contextCreate h) fun t => t.context c.context = some
      { partition := c.u 0x14 4, root := c.u 0x18 8, trapArea := c.u 0x20 8, saveArea := c.u 0x28 8,
        templateBase := c.u 0x38 8, templateSize := c.u 0x34 4 * 2 ^ 16, privileged := natBit (c.u 0x30 4) 0, spans := [],
        saves := [], checked := [] }) ∧
    (c.opcode = 9 → c.u 0x10 4 = 1 → s.contexts.wf = true → Done (.contextDestroy h) fun t => t.context c.context = none ∧
      ∀ q x, (t.queue q).cfg = some x → x.context ≠ c.context) ∧
    (∀ ps slots, c.opcode = 10 → partitionTable (s.bytesAt (memKey kindDevice (c.u 0x10 8)) 832) = some (ps, slots) →
      Done (.partition h) fun t => t.partitions = ps ∧ t.slotTable = slots ∧
        t.routes = routesFrom (Config.routeAtPartition (s.bytesAt (memKey kindDevice (c.u 0x10 8)) 832)) ∧ t.meas =
        s.meas.set 4 (BitVec.ofNat 256 (natOfBytes (sha256 (bytesLE 32 (s.meas.get 4).toNat ++
          s.bytesAt (memKey kindDevice (c.u 0x10 8)) 832))))) ∧
    (c.opcode = 11 → Done (.resume h) fun t => ∀ n l, s.launch n = some l → l.context = c.context → l.stage < 4 →
      c.u 0x10 4 = 0 ∨ c.u 0x10 4 = n → ∃ y, t.launch n = some y ∧ y.preempted = false)) ∧
  (∀ (s : State) (h : Nat) (c : Command) (code : Nat), s.commands.find h = some c → c.complete = false →
    c.started = false → s.mayStart h c = true → s.commandError c = some code →
    exec (match c.opcode with
      | 1 => .hostLaunch h | 2 => .copy h | 3 => .queueCfg h | 4 => .queuePush h | 5 => .signal h | 6 => .fence h
      | 7 => if c.u 0x14 4 = 1 then .preemptHard h else .preemptSoft h
      | 8 => .inval h | 9 => if c.u 0x10 4 = 1 then .contextDestroy h else .contextCreate h
      | 10 => .partition h | _ => .resume h) s =
    if 1 ≤ c.opcode ∧ c.opcode ≤ 11 then .next ((starting s h c).failCommand h code 0) else .next s)

/-! ## The platform -/

/-- R280, R381 to R387, R391, R393: the queen lease, package reset and boot, the lifecycle fuses, links that go down, HALT
and the 1149.1 port's scan, and accesses of the host and of peers to device memory but for a locked carve-out.
The model's own readings: log 1, 2, 4, 6, 20, 21, 38, 80, 82, 83, 84. -/
def Obligations.PlatformEvents : Prop :=
  ∀ (s : State),
    (∀ die < 6, 2 ≤ s.bootStage → (s.bootStage = 2 → s.bootFail = 0) → s.sleeping = false → s.queenExpiry ≤ s.time →
      s.lowerClaim die = false → ∃ t, exec (.queenClaim die) s = .next t ∧ t.leader = die ∧ t.leading = true ∧
      t.queenExpiry = s.time + 1000000 ∧
      (s.bootStage = 2 → (t.bootStage = 3 ∧ t.bootFail = 0) ∨ (t.bootStage = 2 ∧ t.bootFail = 2))) ∧
    (∀ die, s.time < s.queenExpiry → exec (.queenClaim die) s = .next s ∧
      (s.leading = true → s.leader = die → exec (.queenRenew die) s = .next { s with queenExpiry := s.time + 1000000 }) ∧
      exec .queenExpiry s = .next s) ∧
    (s.queenExpiry ≤ s.time → exec .queenExpiry s = .next { s with leading := false }) ∧
    (s.bootStage ≠ 1 ∨ s.bootFail ≠ 0 → ∃ t, exec .packageReset s = .next t ∧ t.time = s.time ∧ t.bootStage = 1 ∧
      t.bootFail = 0 ∧ t.gangs = [] ∧ t.teams = [] ∧
      t.launches = [] ∧ t.contexts = [] ∧ t.queues = [] ∧ t.leading = false ∧ t.carveLocked = false ∧ t.ringState = 2 ∧
      t.debugLvl = 0 ∧ t.lifecycle = s.lifecycle ∧ t.meas = [] ∧ t.mem = s.mem) ∧
    (s.bootStage = 1 → s.bootFail = 0 → s.meas.wf = true → ∃ t, exec .packageReset s = .next t ∧
      ((t.bootStage = 1 ∧ t.bootFail = 1 ∧ t.mem = s.mem) ∨ (t.bootStage = 2 ∧ t.bootFail = 0 ∧ t.meas.get 0 =
        BitVec.ofNat 256 (natOfBytes (sha256 (bytesLE 32 (s.meas.get 0).toNat ++ Config.romBytes)))))) ∧
    (s.lifecycle < 2 → ∃ t, exec .lifecycleFuse s = .next t ∧ t.lifecycle = s.lifecycle + 1 ∧
      levelPermitted t.lifecycle t.debugLvl = true ∧ (s.lifecycle = 1 → t.contexts = [] ∧
        (s.mem.wf = true → ∀ a < 2 ^ 56, t.mem.get a = 0))) ∧
    (2 ≤ s.lifecycle → exec .lifecycleFuse s = .next s) ∧
    (∀ port, natBit s.scarabUp port = true → s.events.length < 4096 → ∃ t, exec (.scarabLinkDown port) s = .next t ∧
      t.scarabUp = s.scarabUp - 2 ^ port ∧ ∃ e, (s.dsn + 1, e) ∈ t.events ∧ e.type = 3 ∧ e.detail = bytesLE 4 port) ∧
    (∀ port, natBit s.scarabUp port = false → exec (.scarabLinkDown port) s = .next s) ∧
    (∀ port, natBit s.cxlUp port = true → exec (.cxlPortDown port) s = .next { s with cxlUp := s.cxlUp - 2 ^ port }) ∧
    (s.debugLvl = 2 → s.cores.wf = true →
      (∃ t, exec .halt s = .next t ∧ t.halted = true ∧ t.gangs = s.gangs ∧ t.mem = s.mem ∧ ∀ p ∈ s.cores,
        (s.portHeld p.1 = true → (t.core p.1).index = [] ∧
          (t.core p.1).setAside = p.2.setAside ++ p.2.index.map IndexJob.again) ∧
        (s.portHeld p.1 = false → t.core p.1 = p.2)) ∧
      (∃ t, exec .scanResume s = .next t ∧ t.halted = false ∧ t.gangs = s.gangs ∧ t.mem = s.mem ∧ ∀ p ∈ s.cores,
        (t.core p.1).index = p.2.setAside ++ p.2.index ∧ (t.core p.1).setAside = []) ∧
      (s.halted = true → ∀ gid g item sel lane value, s.gang gid = some g →
        exec (.scan false gid item sel lane value) s =
          .next { s with hostRead := ((s.scanLanes gid g item sel)[lane]?).getD 0 } ∧
        (item < 64 → lane < 64 → exec (.scan false gid item sel lane value) s =
          .next { s with hostRead := (g.vreg item lane).toNat }) ∧
        (item < 64 → lane < 64 → g.v.wf = true → ∃ t l, exec (.scan true gid item sel lane value) s = .next t ∧ t.mem = s.mem ∧
          t.gang gid = some l ∧ (l.vreg item lane).toNat = value % 2 ^ 32 ∧
          ∀ p < 64, p ≠ lane → l.vreg item p = g.vreg item p))) ∧
    (s.debugLvl ≠ 2 → exec .halt s = .next s ∧ exec .scanResume s = .next s) ∧
    (∀ offset n value, 3 ≤ s.bootStage → s.sleeping = false → offset + n ≤ 2 ^ 36 →
      let pa := s.bar2base + offset
      (s.openTo pa n = true → ∃ t, exec (.hostBar2Access true offset n value) s = .next t ∧
        t.mem = s.mem.setRun (memKey kindDevice pa) (bytesLE n value) ∧
        exec (.hostBar2Access false offset n value) s = .next { s with hostRead := s.natAt (memKey kindDevice pa) n }) ∧
      (s.openTo pa n = false → ∀ st, exec (.hostBar2Access st offset n value) s = .next s)) ∧
    (∀ id a, s.peerAccesses.find id = some a → s.sleeping = false → keyKind a.key = kindDevice →
      (a.atomic = none → s.openTo a.key a.bytes.length = true → ∃ t, exec (.peerAccessArrival id) s = .next t ∧
        t.mem = s.mem.setRun a.key a.bytes ∧ t.peerAccesses = s.peerAccesses.del id) ∧
      (∀ op x y, a.atomic = some (op, x, y) → s.openTo a.key 4 = true → ∃ t, exec (.peerAccessArrival id) s = .next t ∧
        t.mem = s.mem.setRun a.key (bytesLE 4 (atomicNew op (BitVec.ofNat 32 (s.natAt a.key 4)) (BitVec.ofNat 32 x)
          (BitVec.ofNat 32 y)).toNat)))

/-- R389, R390, R397, R398: a core idle for 10 µs enters A1; a die of such cores enters A2 and loses what its SRAM held,
once its dirty bytes have arrived at their home slices; A2 and S3 end with their waits; D3hot is held while work is resident; a wear sample is
taken from the monitors and published. The model's own readings: log 7, 22, 23, 87, 88. -/
def Obligations.PowerAndWear : Prop :=
  ∀ (s : State),
    (∀ core < 192, (s.core core).power = .a0 → (s.core core).busy = false → (s.core core).idleFrom + 10000 ≤ s.time →
      exec (.a1Entry core) s = .next (s.updCore core fun c => { c with power := .a1 })) ∧
    (∀ core, (s.core core).busy = true ∨ s.time < (s.core core).idleFrom + 10000 → exec (.a1Entry core) s = .next s) ∧
    (∀ die, s.mayPark die = true → s.dirtyOn die = true → ∃ t, exec (.a2Entry die) s = .next t ∧ t.mem = s.mem ∧
      t.parkedDies = s.parkedDies ∧ t.tiles = s.tiles) ∧
    (∀ die, s.mayPark die = true → s.dirtyOn die = false → s.writingFrom die = true → exec (.a2Entry die) s = .next s) ∧
    (∀ die, s.mayPark die = true → s.dirtyOn die = false → s.writingFrom die = false → ∃ t,
      exec (.a2Entry die) s = .next t ∧ t.mem = s.mem ∧ t.parkedDies.find die = some s.time ∧ ∀ i < 32, (t.core (32 * die + i)).power = .a2 ∧
        (t.core (32 * die + i)).l1 = [] ∧ (t.core (32 * die + i)).decode = [] ∧ (t.core (32 * die + i)).tlb = []) ∧
    (∀ die, (s.parkedDies.find die).isSome = true → s.parkedDies.wf = true → ∃ t, exec (.a2Exit die) s = .next t ∧
      t.mem = s.mem ∧ t.parkedDies.find die = none ∧ ∀ i < 32, (t.core (32 * die + i)).power = .a0 ∧
        (t.core (32 * die + i)).wakeAt = s.time + 50000) ∧
    (s.sleeping = false →
      (s.teams.vals.any Team.holdsCores = true → exec .d3hotRequest s = .next { s with d3hotHeld := true }) ∧
      (s.debugLvl ≠ 2 → s.teams.vals.any Team.holdsCores = false → (∀ c ∈ s.commands.vals, c.complete = true) →
        s.dirtyAnywhere = false → s.writebacks = [] → ∃ t, exec .d3hotRequest s = .next t ∧ t.sleeping = true ∧
          t.sleepFrom = s.time ∧ t.mem = s.mem ∧ t.tiles = [] ∧ t.acc = [] ∧ t.l2 = [] ∧ t.cxlUp = 0 ∧ t.scarabUp = 0)) ∧
    (s.sleeping = true → ∃ t, exec .d0Exit s = .next t ∧ t.sleeping = false ∧ t.awakeAt = s.time + 2000000 ∧ t.mem = s.mem) ∧
    (s.sleeping = false → exec .d0Exit s = .next { s with d3hotHeld := false }) ∧
    (∀ die < 6, ∃ t w, exec (.wearSample die) s = .next t ∧ t.mem = s.mem ∧ t.wear.find die = some w ∧
      w.samples = ((s.wear.find die).getD { samples := [], published := [] }).samples ++ [(s.time - s.awayTime die,
        (List.range 19).map fun i => Config.wearReading die s.draws i)] ∧
      w.published.take 32 = (List.range 16).flatMap fun i => bytesLE 2 (Config.wearReading die s.draws i))

/-- R225, R396, R399: the monitor takes a word from INW, answers it with its sequence number once, repeats the old answer
for the number it answered last, and writes a lane only with the value word that follows; a write that needs a register
that is not there parks the run, and its value stays in INW (R224). The model's own readings: log 33, 85, 86. -/
def Obligations.MonitorProtocol : Prop :=
  ∀ (s : State) (core gid : Nat) (g : Gang) (r : HandlerRun) (m : Monitor), s.served core = some (gid, g) → g.core = core →
    (s.core core).run = some r → s.debugOpen = true → s.halted = false → (s.core core).dbg.inFull = true →
    (s.core core).monitor = some m →
    let w := (s.core core).dbg.inw.toNat
    let op := w / 2 ^ 56
    let seq := w / 2 ^ 48 % 2 ^ 8
    let arg := w % 2 ^ 48
    let Answers := fun (i : Instr) (out : List Word64) => ∃ t x, exec i s = .next t ∧ t.mem = s.mem ∧
      (t.core core).dbg.inFull = false ∧ (t.core core).monitor = some x ∧ x.seq = some seq ∧ x.reply = out ∧ x.pending = none
    (m.pending = none →
      (m.seq ≠ some seq →
        (op = 1 → Answers (.read core) [BitVec.ofNat 64 (0x81 * 2 ^ 56 + seq * 2 ^ 48 +
          ((s.stateLanes g (arg / 2 ^ 8 % 2 ^ 8) (arg % 2 ^ 8))[arg / 2 ^ 16 % 2 ^ 6]?).getD 0)]) ∧
        (∀ key, op = 3 → arg % 8 = 0 → s.keyOf g.context arg = some key → Answers (.peek core)
          [BitVec.ofNat 64 (0x83 * 2 ^ 56 + seq * 2 ^ 48), BitVec.ofNat 64 (natOfBytes ((List.range 8).map fun i =>
            s.byteFor core (key + i)))]) ∧
        (op = 0 ∨ 4 < op → Answers (.monitorUnknown core) [BitVec.ofNat 64 (0xFF * 2 ^ 56 + seq * 2 ^ 48 + op)]) ∧
        (op = 4 → ∃ t u, exec (.monitorResume core) s = .next t ∧ t = State.endRun (State.takeAction u core (arg % 4)) core ∧
          u.gangs = s.gangs ∧ u.mem = s.mem) ∧
        (op = 2 → ∃ t, exec (.write core) s = .next t ∧ t.gangs = s.gangs ∧ t.mem = s.mem ∧ (t.core core).monitor =
          some { m with pending := some (seq, arg / 2 ^ 8 % 2 ^ 8, arg % 2 ^ 8, arg / 2 ^ 16 % 2 ^ 6) })) ∧
      (m.seq = some seq → ∀ i ∈ ([(1, .read core), (2, .write core), (3, .peek core), (4, .monitorResume core)] : List (Nat × Instr)),
        op = i.1 → ∃ t x, exec i.2 s = .next t ∧ t.gangs = s.gangs ∧ t.mem = s.mem ∧ (t.core core).monitor = some x ∧
          x.reply = m.reply ∧ x.seq = m.seq ∧ ((s.core core).dbg.outFull = true → x.out = m.out ++ m.reply))) ∧
    (∀ q item sel lane, m.pending = some (q, item, sel, lane) → m.seq ≠ some q → item < 64 → lane < 64 → g.v.wf = true →
      g.inherited = 0 → ∃ t l x, exec (.write core) s = .next t ∧ t.mem = s.mem ∧ t.gang gid = some l ∧
        (l.vreg item lane).toNat = w % 2 ^ 32 ∧ (∀ p < 64, p ≠ lane → l.vreg item p = g.vreg item p) ∧
        (t.core core).monitor = some x ∧ x.seq = some q ∧ x.reply = [BitVec.ofNat 64 (0x82 * 2 ^ 56 + q * 2 ^ 48)]) ∧
    (∀ q item sel lane run, m.pending = some (q, item, sel, lane) → item < 64 → g.inherited.getLsbD item = true →
      g.reserve = 0 → (s.core core).pool = 0 → s.gang r.gid = some run → run.reserve = 0 → ∃ t, exec (.write core) s = .next t ∧
        t.gangs = s.gangs ∧ t.mem = s.mem ∧ (t.core core).dbg.inFull = true ∧ (t.core core).dbg.inw = (s.core core).dbg.inw ∧
        ∃ p ∈ (t.core core).parked, p.gid = r.gid)

namespace Sys2Proof.Claims

open Sys2Proof.Machine

/-- What comes of an event of the agenda or of the outside: the outcome of the row of the table that bears its name, or of the
model's own event. -/
def RunsRow (e : Event) (s : State) (o : Host.Outcome State Fault Refusal) : Prop :=
  match e with
  | .streamFetch gid => o = exec (.streamFetch gid) s
  | .streamCacheFill core fill => o = exec (.streamCacheFill core fill) s
  | .refillInstall core refill => o = exec (.refillInstall core refill) s
  | .starvationBound gid => o = exec (.starvationBound gid) s
  | .resultLanding core => o = exec (.resultLanding core) s
  | .longWriteFill gid write => o = exec (.longWriteFill gid write) s
  | .dividerResult core => o = exec (.dividerResult core) s
  | .indexJobLand core => o = exec (.indexJobLand core) s
  | .matrixOpStart core => o = exec (.matrixOpStart core) s
  | .matrixOpComplete core => o = exec (.matrixOpComplete core) s
  | .templateInstall core install => o = exec (.templateInstall core install) s
  | .freezeSnapshot gid => o = exec (.freezeSnapshot gid) s
  | .gangEnd gid => o = exec (.gangEnd gid) s
  | .copyDeadlock core => o = exec (.copyDeadlock core) s
  | .sleepWake gid => o = exec (.sleepWake gid) s
  | .yieldExpiry gid => o = exec (.yieldExpiry gid) s
  | .stlLand gid write => o = exec (.stlLand gid write) s
  | .tlbWalkDone die walk => o = exec (.tlbWalkDone die walk) s
  | .faultResolution fault success => o = exec (.faultResolution fault success) s
  | .page gid => o = exec (.page gid) s
  | .l1Fill core fetch => o = exec (.l1Fill core fetch) s
  | .leaseExpiry core line => o = exec (.leaseExpiry core line) s
  | .dirtyTimeout core line => o = exec (.dirtyTimeout core line) s
  | .writebackArrival writeback => o = exec (.writebackArrival writeback) s
  | .atomicAtHome atomic => o = exec (.atomicAtHome atomic) s
  | .releaseWaitEnd gid => o = exec (.releaseWaitEnd gid) s
  | .acquireDrop core gid => o = exec (.acquireDrop core gid) s
  | .copyCompletion copyId => o = exec (.copyCompletion copyId) s
  | .batchRetirement gid group => o = exec (.batchRetirement gid group) s
  | .autoPublish copyId => o = exec (.autoPublish copyId) s
  | .publishSwap team record => o = exec (.publishSwap team record) s
  | .inboxDelivery delivery => o = exec (.inboxDelivery delivery) s
  | .barrierArrival arrival => o = exec (.barrierArrival arrival) s
  | .pushArrival push => o = exec (.pushArrival push) s
  | .pushRefusal push => o = exec (.pushRefusal push) s
  | .heldPushAccept queue => o = exec (.heldPushAccept queue) s
  | .qarmUpdate update => o = exec (.qarmUpdate update) s
  | .latchDelivery delivery => o = exec (.latchDelivery delivery) s
  | .refillBurstStart queue => o = exec (.refillBurstStart queue) s
  | .refillBurstLanding queue => o = exec (.refillBurstLanding queue) s
  | .ageTrigger queue => o = exec (.ageTrigger queue) s
  | .firing die => o = exec (.firing die) s
  | .prologueDispatch launch => o = exec (.prologueDispatch launch) s
  | .teamPlacement die team => o = exec (.teamPlacement die team) s
  | .teamCompletion team => o = exec (.teamCompletion team) s
  | .handlerRunStart core => o = exec (.handlerRunStart core) s
  | .softDeadline team => o = exec (.softDeadline team) s
  | .saveComplete team => o = exec (.saveComplete team) s
  | .saveTimeout team => o = exec (.saveTimeout team) s
  | .restore team => o = exec (.restore team) s
  | .doorbell value => o = exec (.doorbell value) s
  | .resync value => o = exec (.resync value) s
  | .ackSeq value => o = exec (.ackSeq value) s
  | .ringcfg value => o = exec (.ringcfg value) s
  | .carveLock value => o = exec (.carveLock value) s
  | .debuglvl value => o = exec (.debuglvl value) s
  | .inw core value => o = exec (.inw core value) s
  | .outw core => o = exec (.outw core) s
  | .registerWrite offset value => o = exec (.registerWrite offset value) s
  | .hostLaunch hsn => o = exec (.hostLaunch hsn) s
  | .copy hsn => o = exec (.copy hsn) s
  | .queueCfg hsn => o = exec (.queueCfg hsn) s
  | .queuePush hsn => o = exec (.queuePush hsn) s
  | .signal hsn => o = exec (.signal hsn) s
  | .fence hsn => o = exec (.fence hsn) s
  | .preemptSoft hsn => o = exec (.preemptSoft hsn) s
  | .preemptHard hsn => o = exec (.preemptHard hsn) s
  | .inval hsn => o = exec (.inval hsn) s
  | .contextCreate hsn => o = exec (.contextCreate hsn) s
  | .contextDestroy hsn => o = exec (.contextDestroy hsn) s
  | .partition hsn => o = exec (.partition hsn) s
  | .resume hsn => o = exec (.resume hsn) s
  | .queenClaim die => o = exec (.queenClaim die) s
  | .queenRenew die => o = exec (.queenRenew die) s
  | .queenExpiry => o = exec .queenExpiry s
  | .packageReset => o = exec .packageReset s
  | .lifecycleFuse => o = exec .lifecycleFuse s
  | .scarabLinkDown port => o = exec (.scarabLinkDown port) s
  | .a1Entry core => o = exec (.a1Entry core) s
  | .a2Entry die => o = exec (.a2Entry die) s
  | .a2Exit die => o = exec (.a2Exit die) s
  | .d3hotRequest => o = exec .d3hotRequest s
  | .d0Exit => o = exec .d0Exit s
  | .halt => o = exec .halt s
  | .scan write gid item sel lane value => o = exec (.scan write gid item sel lane value) s
  | .scanResume => o = exec .scanResume s
  | .wearSample die => o = exec (.wearSample die) s
  | .read core => o = exec (.read core) s
  | .write core => o = exec (.write core) s
  | .peek core => o = exec (.peek core) s
  | .monitorResume core => o = exec (.monitorResume core) s
  | .monitorUnknown core => o = exec (.monitorUnknown core) s
  | .partnerSlotFill fill => o = exec (.partnerSlotFill fill) s
  | .partnerSlotWrite write => o = exec (.partnerSlotWrite write) s
  | .hallocClearDone gid write => o = exec (.hallocClearDone gid write) s
  | .evcfg value => o = exec (.evcfg value) s
  | .cxlPortDown port => o = exec (.cxlPortDown port) s
  | .hostBar2Access store offset bytes value => o = exec (.hostBar2Access store offset bytes value) s
  | .peerAccessArrival arrival => o = exec (.peerAccessArrival arrival) s
  | .bootStep => o = execBootStep s
  | .registerRead offset => o = execRegisterRead offset s
  | .msixControl enable hold => o = execMsixControl enable hold s
  | .msixVector vector masked => o = execMsixVector vector masked s

/-- Nothing is due before the issues of the cycle: no event of the agenda, none of the outside, and nothing that the
machine does of itself. -/
def Quiet (s : State) : Prop :=
  (∀ p ∈ s.agenda.head?, 2 * s.time < p.1) ∧ (∀ p ∈ s.inputs, s.time < p.1) ∧ s.phase < 193 ∧ s.poll = none

/-- What the registers of a gang hold that software reads: lanes, predicates, latches, and each group's scalars,
conditions, flags and mode. -/
def SameRegisters (g h : Gang) : Prop :=
  h.v = g.v ∧ h.p = g.p ∧ h.lS = g.lS ∧ h.lV0 = g.lV0 ∧ h.lV1 = g.lV1 ∧ h.lC0 = g.lC0 ∧ h.lC1 = g.lC1 ∧
    ∀ k x, g.group k = some x → ∃ y, h.group k = some y ∧ y.s = x.s ∧ y.c = x.c ∧ y.fpflags = x.fpflags ∧
      y.fpmode = x.fpmode ∧ y.number = x.number

end Sys2Proof.Claims

/-! ## Encoding, the step, reset and what stays -/

/-- R95 to R99, R112: every well-formed slot operation decodes from its own slot bits, and from the least control word that
holds it alone in a slot it may take, with every operand at every value its field takes. -/
def Obligations.RoundTrip : Prop :=
  ∀ (i : Instr) (w : BitVec 48) (cls : SlotClass), i.wf = true → encode i = some w → i.cls? = some cls →
    decodeSlot cls (SlotBits.of w) = .ok i ∧
    ∀ (slot : Slot) (handler : Bool) (nimm : Nat), i.wfIn slot handler nimm = true → nimm ≤ 4 →
      decodeEntry handler true (encodeWord slot nimm w) =
        .ok { widths := List.replicate nimm 1, pop := 0, sync := false, nofold := false, ops := [(slot, i)] }

/-- R101: the three forms of a stream's index by its first byte, and the escapes: PAD, STOP, and every other second
byte refused. -/
def Obligations.StreamReferences : Prop :=
  ∀ (b0 b1 : Byte) (rest : List Byte),
    (b0.toNat ≤ 0x7F → readRef (b0 :: b1 :: rest) = .ok (.index b0.toNat 1)) ∧
    (0x80 ≤ b0.toNat → b0.toNat ≤ 0xFE →
      readRef (b0 :: b1 :: rest) = .ok (.index ((b0 &&& 0x7F).toNat * 2 ^ 8 + b1.toNat) 2) ∧
      (b0 &&& 0x7F).toNat * 2 ^ 8 + b1.toNat ≤ 32511) ∧
    (b0 = 0xFF → (b1 = 0 → readRef (b0 :: b1 :: rest) = .ok .pad) ∧ (b1 = 1 → readRef (b0 :: b1 :: rest) = .ok .stop) ∧
      (b1 ≠ 0 → b1 ≠ 1 → readRef (b0 :: b1 :: rest) = .error .badEscape))

/-- R16 to R18, R71, R101, R102, R377: a step runs the first event that is due, the host's RESYNC before a DOORBELL of its
cycle; else what the machine does of itself, else a STOP that was fetched, else the bundle of the gang chosen on the next
core, past which the gang already stands; when every core has had its turn, the events after the issues, then the firings, the gangs'
fetch and the cores that go idle, and then the next cycle. The model's own readings: log 11, 12, 15, 26, 78, 110. -/
def Obligations.StepRuns : Prop :=
  ∀ (s : State),
    (∀ k e rest, s.agenda = (k, e) :: rest → k ≤ 2 * s.time →
      RunsRow e (({ s with agenda := rest } : State).readyFor e) (step s)) ∧
    (∀ k e, (∀ p ∈ s.agenda.head?, 2 * s.time < p.1) → s.nextInput = some (k, e) →
      RunsRow e (({ s with inputs := eraseFirst (fun p => p == (k, e)) s.inputs } : State).readyFor e) (step s)) ∧
    (∀ k e rest, s.inputs = (k, e) :: rest → k ≤ s.time → (∀ v, e ≠ .doorbell v ∧ e ≠ .registerWrite 0 v) →
      s.nextInput = some (k, e)) ∧
    (∀ k v w rest, s.inputs = (k, .doorbell v) :: rest → k ≤ s.time → (k, .resync w) ∈ rest →
      ∃ e, s.nextInput = some (k, e) ∧ ∃ y, e = .resync y ∨ e = .registerWrite 8 y) ∧
    (∀ e, (∀ p ∈ s.agenda.head?, 2 * s.time < p.1) → (∀ p ∈ s.inputs, s.time < p.1) → s.phase < 193 → s.poll = some e →
      RunsRow e (s.readyFor e) (step s)) ∧
    (∀ gid g, Quiet s → s.nextStop = some (gid, g) → step s = exec .stop (s.atStop gid g)) ∧
    (∀ core u gid g b e, Quiet s → s.nextStop = none → s.nextCore = some core → (s.core core).parked = [] →
      (s.core (partnerOf core)).parked = [] → (∀ r ∈ (s.core core).refills.vals, r.stalled = false) →
      State.candidates { s with phase := core + 1 } core = ([(gid, g, .go)], u) → g.fetch = .bundle b →
      b.entry = .usable e →
      let u := u.updCore core fun c => { c with readyAt := some u.time }
      let At := fun (c : Cur) =>
        ({ u with cur := some c, bundles := u.bundles + 1 } : State).putGang gid (g.issued b.next u.time)
      let Has := fun (t : State) => ∀ n, t.cur.map Cur.verdict ≠ some (.hold (.registers n))
      (∀ sl i t, e.ops = [(sl, i)] → e.pop = 0 →
        exec i (At { gid := gid, slot := sl, pos := g.pos, next := b.next, imms := b.imms, mode := .whole, verdict := .go,
                     snap := none, bundle := u.bundles, ops := [(sl, i)], ready := [], claims := [] }) = .next t → Has t →
        step s = .next (t.finishBundle gid g 0)) ∧
      (∀ t, e.ops.length ≠ 1 ∨ e.pop ≠ 0 →
        (At { gid := gid, slot := .s, pos := g.pos, next := b.next, imms := b.imms, mode := .commit, verdict := .go,
              snap := some g, bundle := u.bundles, ops := e.ops, ready := [], claims := [] }).runOps .commit
          (effectOrder e.ops) = .next t → Has t → step s = .next (t.finishBundle gid g e.pop))) ∧
    (Quiet s → s.nextStop = none → s.nextCore = none → step s = .next { s with phase := 193 }) ∧
    ((∀ p ∈ s.agenda.head?, 2 * s.time < p.1) → (∀ p ∈ s.inputs, s.time < p.1) → 193 ≤ s.phase →
      (∀ k e rest, s.agenda = (k, e) :: rest → k ≤ 2 * s.time + 1 →
        RunsRow e (({ s with agenda := rest } : State).readyFor e) (step s)) ∧
      ((∀ p ∈ s.agenda.head?, 2 * s.time + 1 < p.1) →
        (∀ e, s.pollEnd = some e → RunsRow e (s.readyFor e) (step s)) ∧
        (s.pollEnd = none → ∃ t, step s = .next t ∧ t.time = s.time + 1 ∧ t.phase = 0 ∧ t.mem = s.mem ∧
          t.gangs = s.gangs)))

/-- R373, R376, R378, R384, R386, R387: what stands after a package reset: boot stage 1, no context, launch, team or gang,
queues without configuration, the ring not configured, its sequence numbers 0, no carve-out locked, no leader. The values
that the spec does not give are log entries 1 to 11. The first step of the boot is made, or fails: log 21. -/
def Obligations.ResetState : Prop :=
  let s := State.reset
  s.bootStage = 1 ∧ s.bootFail = 0 ∧ s.contexts = [] ∧ s.launches = [] ∧ s.teams = [] ∧ s.gangs = [] ∧ s.queues = [] ∧
    s.ringState = 2 ∧ s.doorbell = 0 ∧ s.consumedSeq = 0 ∧ s.completedSeq = 0 ∧ s.ackSeq = 0 ∧ s.eventSeq = 0 ∧
    s.carveLocked = false ∧ s.leading = false ∧ s.debugLvl = 0 ∧ s.mem = [] ∧ s.canonical ∧
    (∀ n, (s.core n).seats = [] ∧ (s.core n).pool = 1024 ∧ (s.core n).power = .a0) ∧
    ∃ t, step s = .next t ∧ ((t.bootStage = 2 ∧ t.bootFail = 0) ∨ (t.bootStage = 1 ∧ t.bootFail = 1))

/-- R259, R260: a step keeps the memory in its canonical form, whatever it does: addresses rising, no byte listed that reads
as an unlisted one. The model's own readings: log 2. -/
def Obligations.MemoryStaysCanonical : Prop :=
  ∀ s t : State, Memory.wf s.mem = true → step s = .next t → Memory.wf t.mem = true

namespace Sys2Proof.Claims

open Sys2Proof.Machine

/-- A byte that an event for the host may write: of a slot of the event ring, or of the status mirror (R373, R380). -/
def EventByte (s : State) (key : Nat) : Prop :=
  (∃ n, ∃ i < 64, key = memKey kindHost (s.eventBase + 64 * (n % 2 ^ s.eventLog)) + i) ∨
    (s.statusAddr ≠ 0 ∧ ∃ i < 256, key = memKey kindHost s.statusAddr + i)

/-- A byte that the end of a team's firing may write (R222, R308): of the 64 at its queue's status block, as the tables then
give its page (`walk`), or of the host's event where that page cannot be written. -/
def FiringByte (s : State) (walk : Nat → Nat → Trans) (team key : Nat) : Prop :=
  ∃ tm cfg, s.team team = some tm ∧ tm.firing = true ∧ (s.queue (tm.qbatch % 4096)).cfg = some cfg ∧ cfg.statusBlock ≠ 0 ∧
    ((∃ e ls, walk cfg.context cfg.statusBlock = .page e ls ∧ e.write = true ∧ s.allows e cfg.statusBlock .write = true ∧
        e.key cfg.statusBlock ≤ key ∧ key < e.key cfg.statusBlock + 64) ∨
      ((∀ e ls, walk cfg.context cfg.statusBlock = .page e ls → (e.write && s.allows e cfg.statusBlock .write) = false) ∧
        EventByte s key))

end Sys2Proof.Claims

/-- R20, R25, R71, R200, R224, R225, R232, R308: what a slot operation leaves alone when it runs. No register of any gang
changes at issue, for results land later, but that GSET writes the gang its handler run serves, and no other; GSET of item
0xFF, an action, writes no gang's registers. No byte of memory changes, but that QDONE writes the 64 bytes at its queue's
status block, and GSET's action that kills a team those of the team's queue; where that block's page cannot be written, the
host's event is. A trap's record is left aside. The model's own readings: log 15, 39, 53, 64. -/
def Obligations.IssueFrame : Prop :=
  ∀ (i : Instr) (s t : State) (c : Cur) (g : Gang), i.shape.isSome = true → s.Issues c g → exec i s = .next t →
    (∀ r, t.cur.map Cur.verdict ≠ some (.trap r)) →
    let Keeps := fun (gid : Nat) => ∀ x, s.gang gid = some x → ∃ y, t.gang gid = some y ∧ SameRegisters x y
    ((∀ gd a b e, i ≠ .gset gd a b e) → ∀ gid, Keeps gid) ∧
    ((∀ gd, i ≠ .qdone gd) → (∀ gd a b e, i ≠ .gset gd a b e) → t.mem = s.mem) ∧
    (∀ gd, i = .qdone gd → s.mem.wf = true → ∀ key, ¬ FiringByte s s.walkHost g.team key → t.mem.get key = s.mem.get key) ∧
    (∀ gd a b e, i = .gset gd a b e →
      let action := ∃ k, (g.effGroups gd).head? = some k ∧ un s c g a k = 0xFF
      (¬ action → t.mem = s.mem ∧ ∀ gid, (∀ x, s.served g.core ≠ some (gid, x)) → Keeps gid) ∧
      (action → s.cores.wf = true → (∀ gid, (∀ p ∈ s.cores, ∀ r, p.2.run = some r → r.gid = gid → p.1 = g.core) → Keeps gid) ∧
        (s.mem.wf = true → ∀ key, (∀ n x, s.served g.core = some (n, x) →
          (∀ draws, ¬ FiringByte s (({ s with draws := draws } : State).walkHost) x.team key)) → t.mem.get key = s.mem.get key)))

namespace Sys2Proof.Claims

open Sys2Proof.Machine

/-- Words written from the opcode maps of R112 and the layouts of R95, R96, R98 and R100. -/
def words : List (Nat × Instr) :=
  [(0xC0000000A0040EC9D800000000000000000000000000000000000000000000000000000000000000,
     .add ⟨false, 4⟩ 14 ⟨true, .qh 1⟩ ⟨true, .zero⟩),
   (0xC0000000A93804D80000000000000000000000000000000000000000000000000000000000000000,
     .wrsr ⟨false, 5⟩ 4 ⟨true, .zero⟩),
   (0xC0000000000000000000A10C10442A1E000000000000000000000000000000000000000000000000,
     .ffma ⟨false, 4⟩ 16 ⟨false, .lc1⟩ ⟨false, .reg 42⟩ ⟨false, .reg 30⟩),
   (0xC0000000000000000000000000000000000000000000880405693D85000000000000000000000000,
     .mma ⟨false, 1⟩ 5 ⟨.column, 41⟩ 61 ⟨4, 1, .half⟩),
   (0xC0000000000000000000000000000000000000000000000000000000F812149A5000000000000000,
     .ldv ⟨true, 7⟩ .w4 20 ⟨true, .reg 26⟩ ⟨false, .imm 0⟩),
   (0xC0000000000000000000000000000000000000000000000000000000000000000000E1800044B700,
     .qpush ⟨true, 4⟩ ⟨false, .lc1⟩ ⟨true, .reg 55⟩),
   (0xC000000000000000000000000000000000000000000000000000000089E0211DC800000000000000,
     .gstate ⟨false, 1⟩ 33 ⟨false, .reg 29⟩ ⟨true, .qh 0⟩)]

/-- The outcome of the filter is a refusal with a reason. -/
def refusedFor (handler : Bool) (w : Nat) (r : Reject) : Bool :=
  match decodeEntry handler true (BitVec.ofNat 320 w) with
  | .error x => x == r
  | .ok _ => false

end Sys2Proof.Claims

/-- R95, R96, R98, R100, R101, R110, R112: words written out from the opcode maps, one or more for each map, decode to the
instructions they stand for; 0xFF 0x01 is STOP; and for each of the nine reasons a word that the hazard filter refuses with
it: an entry without V; a header with NIMM 5; an opcode of no row; a destination twice; two XSV; LI without its immediate;
GSTATE outside a handler image; an odd FP64 pair; WRSR of a read-only register.
The model's own readings: log 101, 102. -/
def Obligations.TableWords : Prop :=
  (∀ p ∈ words, decodeTableWord 320 p.1 = some p.2) ∧ decodeTableWord 16 0x01FF = some .stop ∧
  refusedFor true 0 .entryNotValid ∧
  refusedFor true (2 ^ 319 + 5 * 2 ^ 316) .badOperand ∧
  refusedFor true (2 ^ 319 + (2 ^ 47 + 0x01C * 2 ^ 34) * 2 ^ 240) .unknownOpcode ∧
  refusedFor true (2 ^ 319 + (2 ^ 47 + 0x001 * 2 ^ 34 + 5 * 2 ^ 24) * (2 ^ 192 + 2 ^ 144)) .duplicateDestination ∧
  refusedFor true (2 ^ 319 + (2 ^ 47 + 0x030 * 2 ^ 34 + 5 * 2 ^ 24) * 2 ^ 48 + (2 ^ 47 + 0x030 * 2 ^ 34 + 6 * 2 ^ 24))
    .busTwice ∧
  refusedFor true (2 ^ 319 + (2 ^ 47 + 0x01A * 2 ^ 34 + 5 * 2 ^ 24 + 0x50 * 2 ^ 16) * 2 ^ 240) .missingImmediate ∧
  refusedFor false (2 ^ 319 + (2 ^ 47 + 0x078 * 2 ^ 34 + 5 * 2 ^ 24) * 2 ^ 48) .slotNotPermitted ∧
  refusedFor true (2 ^ 319 + (2 ^ 47 + 0x060 * 2 ^ 34 + 1 * 2 ^ 24 + 2 * 2 ^ 16 + 4 * 2 ^ 8) * 2 ^ 192) .oddPair ∧
  refusedFor true (2 ^ 319 + (2 ^ 47 + 0x04E * 2 ^ 34 + 0 * 2 ^ 24 + 1 * 2 ^ 16) * 2 ^ 240) .readOnlySpecial
end

