-- ==== Sys2Proof/Laws/Cells.lean ====
section
/-! SUPPORT. Laws of sparse words and of memory: every write keeps the canonical form, a read of the word written
answers it, and every other word reads as before. -/

namespace Sys2Proof.Laws

open Sys2Proof.Machine

/-! ## Canonical form -/

/-- Every address of the list lies above `a`, and the list is canonical. -/
def Above {w : Nat} (a : Nat) : Cells w → Prop
  | [] => True
  | (k, x) :: cs => a < k ∧ x ≠ 0 ∧ Above k cs

theorem wf_cons_iff {w : Nat} (k : Nat) (x : BitVec w) (cs : Cells w) :
    Cells.wf ((k, x) :: cs) = true ↔ x ≠ 0 ∧ Above k cs := by
  induction cs generalizing k x with
  | nil => simp [Cells.wf, Above]
  | cons p cs ih =>
    obtain ⟨k', x'⟩ := p
    simp only [Cells.wf, Bool.and_eq_true, bne_iff_ne, decide_eq_true_eq, ih, Above]
    exact and_assoc

theorem Above.mono {w : Nat} {a b : Nat} (h : b ≤ a) : ∀ {cs : Cells w}, Above a cs → Above b cs
  | [], _ => trivial
  | (_, _) :: _, ⟨h1, h2, h3⟩ => ⟨by omega, h2, h3⟩

theorem Above.wf {w : Nat} {a : Nat} : ∀ {cs : Cells w}, Above a cs → Cells.wf cs = true
  | [], _ => rfl
  | (k, x) :: cs, h => (wf_cons_iff k x cs).2 ⟨h.2.1, h.2.2⟩

theorem wf_iff {w : Nat} (cs : Cells w) :
    Cells.wf cs = true ↔ cs = [] ∨ ∃ k x t, cs = (k, x) :: t ∧ x ≠ 0 ∧ Above k t := by
  cases cs with
  | nil => simp [Cells.wf]
  | cons p t =>
    obtain ⟨k, x⟩ := p
    rw [wf_cons_iff]
    constructor
    · intro h; exact .inr ⟨k, x, t, rfl, h⟩
    · rintro (h | ⟨k', x', t', h, hx⟩)
      · exact absurd h (List.cons_ne_nil _ _)
      · cases h; exact hx

theorem Above.set {w : Nat} {b a : Nat} (x : BitVec w) (hb : b < a) :
    ∀ {cs : Cells w}, Above b cs → Above b (cs.set a x)
  | [], _ => by
    simp only [Cells.set]
    split
    · trivial
    · rename_i hx; exact ⟨hb, hx, trivial⟩
  | (k, y) :: cs, ⟨h1, h2, h3⟩ => by
    simp only [Cells.set]
    split
    · rename_i hak
      split
      · exact ⟨h1, h2, h3⟩
      · rename_i hx; exact ⟨hb, hx, hak, h2, h3⟩
    · split
      · rename_i _ hak
        split
        · exact h3.mono (by omega)
        · rename_i hx; exact ⟨h1, hx, h3⟩
      · rename_i hak hne
        exact ⟨h1, h2, Above.set x (by omega) h3⟩

/-- Writing one word keeps the canonical form. -/
theorem set_wf {w : Nat} (cs : Cells w) (a : Nat) (x : BitVec w) (h : cs.wf = true) : (cs.set a x).wf = true := by
  cases cs with
  | nil =>
    simp only [Cells.set]
    split
    · rfl
    · rename_i hx; simpa [Cells.wf] using hx
  | cons p t =>
    obtain ⟨k, y⟩ := p
    obtain ⟨hy, ht⟩ := (wf_cons_iff k y t).1 h
    simp only [Cells.set]
    split
    · rename_i hak
      split
      · exact h
      · rename_i hx; exact (wf_cons_iff _ _ _).2 ⟨hx, hak, hy, ht⟩
    · split
      · split
        · exact ht.wf
        · rename_i hx; exact (wf_cons_iff _ _ _).2 ⟨hx, ht⟩
      · rename_i h1 h2
        exact (wf_cons_iff _ _ _).2 ⟨hy, ht.set x (by omega)⟩

/-- Writing a list of words keeps the canonical form. -/
theorem setAll_wf {w : Nat} (l : List (Nat × BitVec w)) : ∀ cs : Cells w, cs.wf = true → (cs.setAll l).wf = true := by
  induction l with
  | nil => exact fun _ h => h
  | cons p l ih => exact fun cs h => ih _ (set_wf cs p.1 p.2 h)

/-- Writing a run of words keeps the canonical form. -/
theorem setRun_wf {w : Nat} (xs : List (BitVec w)) :
    ∀ (cs : Cells w) (a : Nat), cs.wf = true → (cs.setRun a xs).wf = true := by
  induction xs with
  | nil => exact fun _ _ h => h
  | cons x xs ih => exact fun cs a h => ih _ _ (set_wf cs a x h)

theorem Above.filter {w : Nat} (p : Nat × BitVec w → Bool) :
    ∀ {cs : Cells w} {b : Nat}, Above b cs → Above b (cs.filter p)
  | [], _, _ => trivial
  | (k, x) :: cs, b, ⟨h1, h2, h3⟩ => by
    simp only [List.filter_cons]
    split
    · exact ⟨h1, h2, h3.filter p⟩
    · exact (Above.filter p h3).mono (by omega)

/-- Keeping only some of the words keeps the canonical form. -/
theorem filter_wf {w : Nat} (p : Nat × BitVec w → Bool) (cs : Cells w) (h : cs.wf = true) :
    Cells.wf (cs.filter p) = true := by
  cases cs with
  | nil => rfl
  | cons q t =>
    obtain ⟨k, y⟩ := q
    obtain ⟨hy, ht⟩ := (wf_cons_iff k y t).1 h
    simp only [List.filter_cons]
    split
    · exact (wf_cons_iff _ _ _).2 ⟨hy, ht.filter p⟩
    · exact (ht.filter p).wf

/-- Forgetting the words of a range keeps the canonical form. -/
theorem clear_wf {w : Nat} (cs : Cells w) (a b : Nat) (h : cs.wf = true) : (cs.clear a b).wf = true :=
  filter_wf _ cs h

/-! ## Reading back -/

theorem get_of_above {w : Nat} {a b : Nat} (h : a ≤ b) : ∀ {cs : Cells w}, Above b cs → cs.get a = 0
  | [], _ => rfl
  | (k, x) :: cs, ⟨h1, _, _⟩ => by
    have : ¬a = k := by omega
    have : a < k := by omega
    simp [Cells.get, *]

/-- A word written reads as written. -/
theorem get_set_same {w : Nat} (x : BitVec w) (a : Nat) :
    ∀ cs : Cells w, cs.wf = true → (cs.set a x).get a = x := by
  intro cs
  induction cs with
  | nil =>
    intro _
    simp only [Cells.set]
    split
    · rename_i hx; exact hx.symm
    · simp [Cells.get]
  | cons p cs ih =>
    obtain ⟨k, y⟩ := p
    intro h
    obtain ⟨hy, ht⟩ := (wf_cons_iff k y cs).1 h
    simp only [Cells.set]
    split
    · rename_i hak
      split
      · rename_i hx
        have : ¬a = k := by omega
        simp [Cells.get, hak, hx, this]
      · simp [Cells.get]
    · split
      · rename_i _ hak
        split
        · rename_i hx
          rw [hx]; exact get_of_above (by omega) ht
        · simp [Cells.get, hak]
      · rename_i h1 h2
        simp only [Cells.get, h2, h1, if_false]
        exact ih ht.wf

/-- A write leaves every other word as it was. -/
theorem get_set_other {w : Nat} (x : BitVec w) (a b : Nat) (hab : b ≠ a) :
    ∀ cs : Cells w, cs.wf = true → (cs.set a x).get b = cs.get b := by
  intro cs
  induction cs with
  | nil =>
    intro _
    simp only [Cells.set]
    split
    · rfl
    · simp [Cells.get, hab]
  | cons p cs ih =>
    obtain ⟨k, y⟩ := p
    intro h
    obtain ⟨hy, ht⟩ := (wf_cons_iff k y cs).1 h
    simp only [Cells.set]
    split
    · rename_i hak
      split
      · rfl
      · simp only [Cells.get, hab, if_false]
        by_cases h1 : b < a
        · have h2 : ¬b = k := by omega
          have h3 : b < k := by omega
          simp [h1, h2, h3]
        · simp [h1]
    · split
      · rename_i _ hak
        split
        · subst hak
          simp only [Cells.get, hab, if_false]
          by_cases h1 : b < a
          · simp only [h1, if_true]; exact get_of_above (by omega) ht
          · simp [h1]
        · subst hak
          simp [Cells.get, hab]
      · simp only [Cells.get]
        rw [ih ht.wf]

/-- A run of words written leaves every word outside it as it was. -/
theorem get_setRun_other {w : Nat} (b : Nat) (xs : List (BitVec w)) :
    ∀ (cs : Cells w) (a : Nat), cs.wf = true → (b < a ∨ a + xs.length ≤ b) → (cs.setRun a xs).get b = cs.get b := by
  induction xs with
  | nil => intro cs a _ _; rfl
  | cons x xs ih =>
    intro cs a h hb
    simp only [List.length_cons] at hb
    simp only [Cells.setRun]
    rw [ih _ _ (set_wf cs a x h) (by omega), get_set_other x a b (by omega) cs h]

/-- A run of words written reads as written. -/
theorem get_setRun_same {w : Nat} (xs : List (BitVec w)) :
    ∀ (cs : Cells w) (a i : Nat), cs.wf = true → (hi : i < xs.length) → (cs.setRun a xs).get (a + i) = xs[i] := by
  induction xs with
  | nil => intro cs a i _ hi; simp at hi
  | cons x xs ih =>
    intro cs a i h hi
    simp only [Cells.setRun]
    cases i with
    | zero =>
      have h1 := get_setRun_other a xs (cs.set a x) (a + 1) (set_wf cs a x h) (by omega)
      exact h1.trans (get_set_same x a cs h)
    | succ i =>
      have := ih (cs.set a x) (a + 1) i (set_wf cs a x h) (by simpa using hi)
      rw [show a + (i + 1) = a + 1 + i by omega, this]
      rfl

/-! ## Memory -/

/-- Writing bytes of memory keeps its canonical form. -/
theorem writeMem_wf (s : State) (k : Nat) (bs : List Byte) (h : Memory.wf s.mem = true) :
    Memory.wf (s.writeMem k bs).mem = true := setRun_wf bs s.mem k h

/-- Writing single bytes of memory keeps its canonical form. -/
theorem writeCells_wf (s : State) (l : List (Nat × Byte)) (h : Memory.wf s.mem = true) :
    Memory.wf (s.writeCells l).mem = true := setAll_wf l s.mem h

/-- Writing through a context's page table keeps the canonical form. -/
theorem writeVirt_wf (ctx : Nat) (bs : List Byte) :
    ∀ (s : State) (va : Nat), Memory.wf s.mem = true → Memory.wf (s.writeVirt ctx va bs).mem = true := by
  induction bs with
  | nil => exact fun _ _ h => h
  | cons b bs ih =>
    intro s va h
    simp only [State.writeVirt]
    apply ih
    split
    · exact writeMem_wf s _ _ h
    · exact h

/-- The memory after reset is in canonical form. -/
theorem reset_mem_wf : Memory.wf State.reset.mem = true := rfl

end Sys2Proof.Laws
end

