-- ==== Sys2Proof/Laws/Exec.lean ====
section
/-! SUPPORT. One equation for each constructor: the instruction runs its own meaning. Proofs about an instruction
start from its equation and never unfold the dispatch. -/

namespace Sys2Proof.Laws

open Sys2Proof.Machine

theorem exec_add (g : Guard) (d : SReg) (a : Operand) (b : Operand) (s : State) :
    exec (.add g d a b) s = execAdd g d a b s := rfl

theorem exec_sub (g : Guard) (d : SReg) (a : Operand) (b : Operand) (s : State) :
    exec (.sub g d a b) s = execSub g d a b s := rfl

theorem exec_mul (g : Guard) (d : SReg) (a : Operand) (b : Operand) (s : State) :
    exec (.mul g d a b) s = execMul g d a b s := rfl

theorem exec_mulh (g : Guard) (d : SReg) (a : Operand) (b : Operand) (s : State) :
    exec (.mulh g d a b) s = execMulh g d a b s := rfl

theorem exec_mulhw (g : Guard) (d : SReg) (a : Operand) (b : Operand) (s : State) :
    exec (.mulhw g d a b) s = execMulhw g d a b s := rfl

theorem exec_div (g : Guard) (d : SReg) (a : Operand) (b : Operand) (s : State) :
    exec (.div g d a b) s = execDiv g d a b s := rfl

theorem exec_divw (g : Guard) (d : SReg) (a : Operand) (b : Operand) (s : State) :
    exec (.divw g d a b) s = execDivw g d a b s := rfl

theorem exec_rem (g : Guard) (d : SReg) (a : Operand) (b : Operand) (s : State) :
    exec (.rem g d a b) s = execRem g d a b s := rfl

theorem exec_remw (g : Guard) (d : SReg) (a : Operand) (b : Operand) (s : State) :
    exec (.remw g d a b) s = execRemw g d a b s := rfl

theorem exec_and (g : Guard) (d : SReg) (a : Operand) (b : Operand) (s : State) :
    exec (.and g d a b) s = execAnd g d a b s := rfl

theorem exec_or (g : Guard) (d : SReg) (a : Operand) (b : Operand) (s : State) :
    exec (.or g d a b) s = execOr g d a b s := rfl

theorem exec_xor (g : Guard) (d : SReg) (a : Operand) (b : Operand) (s : State) :
    exec (.xor g d a b) s = execXor g d a b s := rfl

theorem exec_andn (g : Guard) (d : SReg) (a : Operand) (b : Operand) (s : State) :
    exec (.andn g d a b) s = execAndn g d a b s := rfl

theorem exec_shl (g : Guard) (d : SReg) (a : Operand) (b : Operand) (s : State) :
    exec (.shl g d a b) s = execShl g d a b s := rfl

theorem exec_shr (g : Guard) (d : SReg) (a : Operand) (b : Operand) (s : State) :
    exec (.shr g d a b) s = execShr g d a b s := rfl

theorem exec_sar (g : Guard) (d : SReg) (a : Operand) (b : Operand) (s : State) :
    exec (.sar g d a b) s = execSar g d a b s := rfl

theorem exec_rol (g : Guard) (d : SReg) (a : Operand) (b : Operand) (s : State) :
    exec (.rol g d a b) s = execRol g d a b s := rfl

theorem exec_min (g : Guard) (d : SReg) (a : Operand) (b : Operand) (s : State) :
    exec (.min g d a b) s = execMin g d a b s := rfl

theorem exec_max (g : Guard) (d : SReg) (a : Operand) (b : Operand) (s : State) :
    exec (.max g d a b) s = execMax g d a b s := rfl

theorem exec_minw (g : Guard) (d : SReg) (a : Operand) (b : Operand) (s : State) :
    exec (.minw g d a b) s = execMinw g d a b s := rfl

theorem exec_maxw (g : Guard) (d : SReg) (a : Operand) (b : Operand) (s : State) :
    exec (.maxw g d a b) s = execMaxw g d a b s := rfl

theorem exec_clz (g : Guard) (d : SReg) (a : Operand) (s : State) :
    exec (.clz g d a) s = execClz g d a s := rfl

theorem exec_cnt (g : Guard) (d : SReg) (a : Operand) (s : State) :
    exec (.cnt g d a) s = execCnt g d a s := rfl

theorem exec_sel (g : Guard) (d : SReg) (a : Operand) (b : Operand) (c : Operand) (s : State) :
    exec (.sel g d a b c) s = execSel g d a b c s := rfl

theorem exec_mov (g : Guard) (d : SReg) (a : Operand) (s : State) :
    exec (.mov g d a) s = execMov g d a s := rfl

theorem exec_li (g : Guard) (d : SReg) (a : ImmSlot) (s : State) :
    exec (.li g d a) s = execLi g d a s := rfl

theorem exec_lih (g : Guard) (d : SReg) (a : Operand) (b : ImmSlot) (s : State) :
    exec (.lih g d a b) s = execLih g d a b s := rfl

theorem exec_ceq (g : Guard) (d : Flag) (a : Operand) (b : Operand) (s : State) :
    exec (.ceq g d a b) s = execCeq g d a b s := rfl

theorem exec_cne (g : Guard) (d : Flag) (a : Operand) (b : Operand) (s : State) :
    exec (.cne g d a b) s = execCne g d a b s := rfl

theorem exec_clt (g : Guard) (d : Flag) (a : Operand) (b : Operand) (s : State) :
    exec (.clt g d a b) s = execClt g d a b s := rfl

theorem exec_cle (g : Guard) (d : Flag) (a : Operand) (b : Operand) (s : State) :
    exec (.cle g d a b) s = execCle g d a b s := rfl

theorem exec_cltw (g : Guard) (d : Flag) (a : Operand) (b : Operand) (s : State) :
    exec (.cltw g d a b) s = execCltw g d a b s := rfl

theorem exec_clew (g : Guard) (d : Flag) (a : Operand) (b : Operand) (s : State) :
    exec (.clew g d a b) s = execClew g d a b s := rfl

theorem exec_cand (g : Guard) (d : Flag) (a : Operand) (b : Operand) (s : State) :
    exec (.cand g d a b) s = execCand g d a b s := rfl

theorem exec_cor (g : Guard) (d : Flag) (a : Operand) (b : Operand) (s : State) :
    exec (.cor g d a b) s = execCor g d a b s := rfl

theorem exec_cxor (g : Guard) (d : Flag) (a : Operand) (b : Operand) (s : State) :
    exec (.cxor g d a b) s = execCxor g d a b s := rfl

theorem exec_cany (g : Guard) (d : Flag) (a : Operand) (s : State) :
    exec (.cany g d a) s = execCany g d a s := rfl

theorem exec_cevery (g : Guard) (d : Flag) (a : Operand) (s : State) :
    exec (.cevery g d a) s = execCevery g d a s := rfl

theorem exec_br (g : Guard) (a : ImmSlot) (s : State) :
    exec (.br g a) s = execBr g a s := rfl

theorem exec_brc (g : Guard) (mod : Bool) (a : Operand) (b : ImmSlot) (s : State) :
    exec (.brc g mod a b) s = execBrc g mod a b s := rfl

theorem exec_brd (g : Guard) (a : Operand) (b : ImmSlot) (c : ImmSlot) (s : State) :
    exec (.brd g a b c) s = execBrd g a b c s := rfl

theorem exec_join (g : Guard) (s : State) :
    exec (.join g) s = execJoin g s := rfl

theorem exec_call (g : Guard) (a : ImmSlot) (s : State) :
    exec (.call g a) s = execCall g a s := rfl

theorem exec_ret (g : Guard) (s : State) :
    exec (.ret g) s = execRet g s := rfl

theorem exec_loop (g : Guard) (d : SReg) (a : Operand) (b : ImmSlot) (s : State) :
    exec (.loop g d a b) s = execLoop g d a b s := rfl

theorem exec_brx (g : Guard) (a : Operand) (s : State) :
    exec (.brx g a) s = execBrx g a s := rfl

theorem exec_exit (g : Guard) (s : State) :
    exec (.exit g) s = execExit g s := rfl

theorem exec_freeze (g : Guard) (s : State) :
    exec (.freeze g) s = execFreeze g s := rfl

theorem exec_yield (g : Guard) (s : State) :
    exec (.yield g) s = execYield g s := rfl

theorem exec_sleep (g : Guard) (a : Operand) (s : State) :
    exec (.sleep g a) s = execSleep g a s := rfl

theorem exec_trap (g : Guard) (a : ImmSlot) (s : State) :
    exec (.trap g a) s = execTrap g a s := rfl

theorem exec_rdsr (g : Guard) (d : SReg) (a : Special) (s : State) :
    exec (.rdsr g d a) s = execRdsr g d a s := rfl

theorem exec_wrsr (g : Guard) (d : Special) (a : Operand) (s : State) :
    exec (.wrsr g d a) s = execWrsr g d a s := rfl

theorem exec_vadd (g : Guard) (d : VReg) (a : Operand) (b : Operand) (s : State) :
    exec (.vadd g d a b) s = execVadd g d a b s := rfl

theorem exec_vsub (g : Guard) (d : VReg) (a : Operand) (b : Operand) (s : State) :
    exec (.vsub g d a b) s = execVsub g d a b s := rfl

theorem exec_vmul (g : Guard) (d : VReg) (a : Operand) (b : Operand) (s : State) :
    exec (.vmul g d a b) s = execVmul g d a b s := rfl

theorem exec_vmulh (g : Guard) (d : VReg) (a : Operand) (b : Operand) (s : State) :
    exec (.vmulh g d a b) s = execVmulh g d a b s := rfl

theorem exec_vmad (g : Guard) (d : VReg) (a : Operand) (b : Operand) (c : Operand) (s : State) :
    exec (.vmad g d a b c) s = execVmad g d a b c s := rfl

theorem exec_vand (g : Guard) (d : VReg) (a : Operand) (b : Operand) (s : State) :
    exec (.vand g d a b) s = execVand g d a b s := rfl

theorem exec_vor (g : Guard) (d : VReg) (a : Operand) (b : Operand) (s : State) :
    exec (.vor g d a b) s = execVor g d a b s := rfl

theorem exec_vxor (g : Guard) (d : VReg) (a : Operand) (b : Operand) (s : State) :
    exec (.vxor g d a b) s = execVxor g d a b s := rfl

theorem exec_vshl (g : Guard) (d : VReg) (a : Operand) (b : Operand) (s : State) :
    exec (.vshl g d a b) s = execVshl g d a b s := rfl

theorem exec_vshr (g : Guard) (d : VReg) (a : Operand) (b : Operand) (s : State) :
    exec (.vshr g d a b) s = execVshr g d a b s := rfl

theorem exec_vsar (g : Guard) (d : VReg) (a : Operand) (b : Operand) (s : State) :
    exec (.vsar g d a b) s = execVsar g d a b s := rfl

theorem exec_vmin (g : Guard) (d : VReg) (a : Operand) (b : Operand) (s : State) :
    exec (.vmin g d a b) s = execVmin g d a b s := rfl

theorem exec_vmax (g : Guard) (d : VReg) (a : Operand) (b : Operand) (s : State) :
    exec (.vmax g d a b) s = execVmax g d a b s := rfl

theorem exec_vminw (g : Guard) (d : VReg) (a : Operand) (b : Operand) (s : State) :
    exec (.vminw g d a b) s = execVminw g d a b s := rfl

theorem exec_vmaxw (g : Guard) (d : VReg) (a : Operand) (b : Operand) (s : State) :
    exec (.vmaxw g d a b) s = execVmaxw g d a b s := rfl

theorem exec_vabs (g : Guard) (d : VReg) (a : Operand) (s : State) :
    exec (.vabs g d a) s = execVabs g d a s := rfl

theorem exec_vclz (g : Guard) (d : VReg) (a : Operand) (s : State) :
    exec (.vclz g d a) s = execVclz g d a s := rfl

theorem exec_vcnt (g : Guard) (d : VReg) (a : Operand) (s : State) :
    exec (.vcnt g d a) s = execVcnt g d a s := rfl

theorem exec_vsel (g : Guard) (d : VReg) (a : Operand) (b : Operand) (c : Operand) (s : State) :
    exec (.vsel g d a b c) s = execVsel g d a b c s := rfl

theorem exec_vmov (g : Guard) (d : VReg) (a : Operand) (s : State) :
    exec (.vmov g d a) s = execVmov g d a s := rfl

theorem exec_vli (g : Guard) (d : VReg) (a : ImmSlot) (s : State) :
    exec (.vli g d a) s = execVli g d a s := rfl

theorem exec_vceq (g : Guard) (d : Flag) (a : Operand) (b : Operand) (s : State) :
    exec (.vceq g d a b) s = execVceq g d a b s := rfl

theorem exec_vcne (g : Guard) (d : Flag) (a : Operand) (b : Operand) (s : State) :
    exec (.vcne g d a b) s = execVcne g d a b s := rfl

theorem exec_vclt (g : Guard) (d : Flag) (a : Operand) (b : Operand) (s : State) :
    exec (.vclt g d a b) s = execVclt g d a b s := rfl

theorem exec_vcle (g : Guard) (d : Flag) (a : Operand) (b : Operand) (s : State) :
    exec (.vcle g d a b) s = execVcle g d a b s := rfl

theorem exec_vcltw (g : Guard) (d : Flag) (a : Operand) (b : Operand) (s : State) :
    exec (.vcltw g d a b) s = execVcltw g d a b s := rfl

theorem exec_vclew (g : Guard) (d : Flag) (a : Operand) (b : Operand) (s : State) :
    exec (.vclew g d a b) s = execVclew g d a b s := rfl

theorem exec_fceq (g : Guard) (d : Flag) (a : Operand) (b : Operand) (s : State) :
    exec (.fceq g d a b) s = execFceq g d a b s := rfl

theorem exec_fclt (g : Guard) (d : Flag) (a : Operand) (b : Operand) (s : State) :
    exec (.fclt g d a b) s = execFclt g d a b s := rfl

theorem exec_fcle (g : Guard) (d : Flag) (a : Operand) (b : Operand) (s : State) :
    exec (.fcle g d a b) s = execFcle g d a b s := rfl

theorem exec_fcun (g : Guard) (d : Flag) (a : Operand) (b : Operand) (s : State) :
    exec (.fcun g d a b) s = execFcun g d a b s := rfl

theorem exec_dceq (g : Guard) (d : Flag) (a : Operand) (b : Operand) (s : State) :
    exec (.dceq g d a b) s = execDceq g d a b s := rfl

theorem exec_dclt (g : Guard) (d : Flag) (a : Operand) (b : Operand) (s : State) :
    exec (.dclt g d a b) s = execDclt g d a b s := rfl

theorem exec_dcle (g : Guard) (d : Flag) (a : Operand) (b : Operand) (s : State) :
    exec (.dcle g d a b) s = execDcle g d a b s := rfl

theorem exec_pand (g : Guard) (d : Flag) (a : Operand) (b : Operand) (s : State) :
    exec (.pand g d a b) s = execPand g d a b s := rfl

theorem exec_por (g : Guard) (d : Flag) (a : Operand) (b : Operand) (s : State) :
    exec (.por g d a b) s = execPor g d a b s := rfl

theorem exec_pxor (g : Guard) (d : Flag) (a : Operand) (b : Operand) (s : State) :
    exec (.pxor g d a b) s = execPxor g d a b s := rfl

theorem exec_pandn (g : Guard) (d : Flag) (a : Operand) (b : Operand) (s : State) :
    exec (.pandn g d a b) s = execPandn g d a b s := rfl

theorem exec_pmov (g : Guard) (d : Flag) (a : Operand) (s : State) :
    exec (.pmov g d a) s = execPmov g d a s := rfl

theorem exec_fadd (g : Guard) (d : VReg) (a : Operand) (b : Operand) (s : State) :
    exec (.fadd g d a b) s = execFadd g d a b s := rfl

theorem exec_fsub (g : Guard) (d : VReg) (a : Operand) (b : Operand) (s : State) :
    exec (.fsub g d a b) s = execFsub g d a b s := rfl

theorem exec_fmul (g : Guard) (d : VReg) (a : Operand) (b : Operand) (s : State) :
    exec (.fmul g d a b) s = execFmul g d a b s := rfl

theorem exec_ffma (g : Guard) (d : VReg) (a : Operand) (b : Operand) (c : Operand) (s : State) :
    exec (.ffma g d a b c) s = execFfma g d a b c s := rfl

theorem exec_ffms (g : Guard) (d : VReg) (a : Operand) (b : Operand) (c : Operand) (s : State) :
    exec (.ffms g d a b c) s = execFfms g d a b c s := rfl

theorem exec_fnma (g : Guard) (d : VReg) (a : Operand) (b : Operand) (c : Operand) (s : State) :
    exec (.fnma g d a b c) s = execFnma g d a b c s := rfl

theorem exec_fmin (g : Guard) (d : VReg) (a : Operand) (b : Operand) (s : State) :
    exec (.fmin g d a b) s = execFmin g d a b s := rfl

theorem exec_fmax (g : Guard) (d : VReg) (a : Operand) (b : Operand) (s : State) :
    exec (.fmax g d a b) s = execFmax g d a b s := rfl

theorem exec_fabs (g : Guard) (d : VReg) (a : Operand) (s : State) :
    exec (.fabs g d a) s = execFabs g d a s := rfl

theorem exec_fneg (g : Guard) (d : VReg) (a : Operand) (s : State) :
    exec (.fneg g d a) s = execFneg g d a s := rfl

theorem exec_frnd (g : Guard) (mod : Rounding) (d : VReg) (a : Operand) (s : State) :
    exec (.frnd g mod d a) s = execFrnd g mod d a s := rfl

theorem exec_frcp (g : Guard) (d : VReg) (a : Operand) (s : State) :
    exec (.frcp g d a) s = execFrcp g d a s := rfl

theorem exec_frsq (g : Guard) (d : VReg) (a : Operand) (s : State) :
    exec (.frsq g d a) s = execFrsq g d a s := rfl

theorem exec_fsqrt (g : Guard) (d : VReg) (a : Operand) (s : State) :
    exec (.fsqrt g d a) s = execFsqrt g d a s := rfl

theorem exec_fexp2 (g : Guard) (d : VReg) (a : Operand) (s : State) :
    exec (.fexp2 g d a) s = execFexp2 g d a s := rfl

theorem exec_flog2 (g : Guard) (d : VReg) (a : Operand) (s : State) :
    exec (.flog2 g d a) s = execFlog2 g d a s := rfl

theorem exec_dadd (g : Guard) (d : VReg) (a : Operand) (b : Operand) (s : State) :
    exec (.dadd g d a b) s = execDadd g d a b s := rfl

theorem exec_dsub (g : Guard) (d : VReg) (a : Operand) (b : Operand) (s : State) :
    exec (.dsub g d a b) s = execDsub g d a b s := rfl

theorem exec_dmul (g : Guard) (d : VReg) (a : Operand) (b : Operand) (s : State) :
    exec (.dmul g d a b) s = execDmul g d a b s := rfl

theorem exec_dfma (g : Guard) (d : VReg) (a : Operand) (b : Operand) (c : Operand) (s : State) :
    exec (.dfma g d a b c) s = execDfma g d a b c s := rfl

theorem exec_drcp (g : Guard) (d : VReg) (a : Operand) (s : State) :
    exec (.drcp g d a) s = execDrcp g d a s := rfl

theorem exec_drsq (g : Guard) (d : VReg) (a : Operand) (s : State) :
    exec (.drsq g d a) s = execDrsq g d a s := rfl

theorem exec_dsqrt (g : Guard) (d : VReg) (a : Operand) (s : State) :
    exec (.dsqrt g d a) s = execDsqrt g d a s := rfl

theorem exec_hadd2 (g : Guard) (mod : Bool) (d : VReg) (a : Operand) (b : Operand) (s : State) :
    exec (.hadd2 g mod d a b) s = execHadd2 g mod d a b s := rfl

theorem exec_hmul2 (g : Guard) (mod : Bool) (d : VReg) (a : Operand) (b : Operand) (s : State) :
    exec (.hmul2 g mod d a b) s = execHmul2 g mod d a b s := rfl

theorem exec_hfma2 (g : Guard) (mod : Bool) (d : VReg) (a : Operand) (b : Operand) (c : Operand) (s : State) :
    exec (.hfma2 g mod d a b c) s = execHfma2 g mod d a b c s := rfl

theorem exec_cvtif (g : Guard) (mod : Bool) (d : VReg) (a : Operand) (s : State) :
    exec (.cvtif g mod d a) s = execCvtif g mod d a s := rfl

theorem exec_cvtfi (g : Guard) (mod : FiMode) (d : VReg) (a : Operand) (s : State) :
    exec (.cvtfi g mod d a) s = execCvtfi g mod d a s := rfl

theorem exec_cvtfd (g : Guard) (d : VReg) (a : Operand) (s : State) :
    exec (.cvtfd g d a) s = execCvtfd g d a s := rfl

theorem exec_cvtdf (g : Guard) (d : VReg) (a : Operand) (s : State) :
    exec (.cvtdf g d a) s = execCvtdf g d a s := rfl

theorem exec_cvtn (g : Guard) (d : VReg) (a : Operand) (b : SlotPart) (mode : CvtMode) (s : State) :
    exec (.cvtn g d a b mode) s = execCvtn g d a b mode s := rfl

theorem exec_cvtw (g : Guard) (d : VReg) (a : Operand) (b : SlotPart) (s : State) :
    exec (.cvtw g d a b) s = execCvtw g d a b s := rfl

theorem exec_vshf (g : Guard) (d : VReg) (a : Operand) (b : Operand) (c : Operand) (s : State) :
    exec (.vshf g d a b c) s = execVshf g d a b c s := rfl

theorem exec_vbcast (g : Guard) (d : VReg) (a : Operand) (b : Operand) (s : State) :
    exec (.vbcast g d a b) s = execVbcast g d a b s := rfl

theorem exec_vrot (g : Guard) (d : VReg) (a : Operand) (b : Operand) (s : State) :
    exec (.vrot g d a b) s = execVrot g d a b s := rfl

theorem exec_vred (g : Guard) (mod : RedOp) (d : VReg) (a : Operand) (s : State) :
    exec (.vred g mod d a) s = execVred g mod d a s := rfl

theorem exec_vscan (g : Guard) (d : VReg) (a : Operand) (s : State) :
    exec (.vscan g d a) s = execVscan g d a s := rfl

theorem exec_vrdx (g : Guard) (d : VReg) (a : Operand) (s : State) :
    exec (.vrdx g d a) s = execVrdx g d a s := rfl

theorem exec_vwrx (g : Guard) (a : Operand) (b : Operand) (s : State) :
    exec (.vwrx g a b) s = execVwrx g a b s := rfl

theorem exec_mma (g : Guard) (d : Bank) (a : View) (b : Handle) (c : Format) (s : State) :
    exec (.mma g d a b c) s = execMma g d a b c s := rfl

theorem exec_mmaz (g : Guard) (d : Bank) (a : View) (b : Handle) (c : Format) (s : State) :
    exec (.mmaz g d a b c) s = execMmaz g d a b c s := rfl

theorem exec_mdrain (g : Guard) (mod : Bool) (d : Handle) (a : Bank) (s : State) :
    exec (.mdrain g mod d a) s = execMdrain g mod d a s := rfl

theorem exec_mfill (g : Guard) (d : Bank) (a : Handle) (s : State) :
    exec (.mfill g d a) s = execMfill g d a s := rfl

theorem exec_mzero (g : Guard) (d : Bank) (s : State) :
    exec (.mzero g d) s = execMzero g d s := rfl

theorem exec_halloc (g : Guard) (mod : AllocMode) (d : Handle) (s : State) :
    exec (.halloc g mod d) s = execHalloc g mod d s := rfl

theorem exec_hfree (g : Guard) (a : Handle) (s : State) :
    exec (.hfree g a) s = execHfree g a s := rfl

theorem exec_hgive (g : Guard) (a : Handle) (b : Operand) (c : Inbox) (s : State) :
    exec (.hgive g a b c) s = execHgive g a b c s := rfl

theorem exec_htake (g : Guard) (d : Handle) (c : Inbox) (s : State) :
    exec (.htake g d c) s = execHtake g d c s := rfl

theorem exec_hshare (g : Guard) (a : Handle) (b : Operand) (c : Inbox) (s : State) :
    exec (.hshare g a b c) s = execHshare g a b c s := rfl

theorem exec_hdup (g : Guard) (d : Handle) (a : Handle) (s : State) :
    exec (.hdup g d a) s = execHdup g d a s := rfl

theorem exec_hpub (g : Guard) (a : Handle) (s : State) :
    exec (.hpub g a) s = execHpub g a s := rfl

theorem exec_hinfo (g : Guard) (d : SReg) (a : Handle) (s : State) :
    exec (.hinfo g d a) s = execHinfo g d a s := rfl

theorem exec_hwait (g : Guard) (a : Handle) (s : State) :
    exec (.hwait g a) s = execHwait g a s := rfl

theorem exec_lds (g : Guard) (mod : Width) (d : SReg) (a : Operand) (b : Operand) (s : State) :
    exec (.lds g mod d a b) s = execLds g mod d a b s := rfl

theorem exec_ldsw (g : Guard) (mod : Width) (d : SReg) (a : Operand) (b : Operand) (s : State) :
    exec (.ldsw g mod d a b) s = execLdsw g mod d a b s := rfl

theorem exec_sts (g : Guard) (mod : Width) (a : Operand) (b : Operand) (c : Operand) (s : State) :
    exec (.sts g mod a b c) s = execSts g mod a b c s := rfl

theorem exec_ldv (g : Guard) (mod : Width) (d : VReg) (a : Operand) (b : Operand) (s : State) :
    exec (.ldv g mod d a b) s = execLdv g mod d a b s := rfl

theorem exec_ldvw (g : Guard) (mod : Width) (d : VReg) (a : Operand) (b : Operand) (s : State) :
    exec (.ldvw g mod d a b) s = execLdvw g mod d a b s := rfl

theorem exec_stv (g : Guard) (mod : Width) (a : Operand) (b : Operand) (c : Operand) (s : State) :
    exec (.stv g mod a b c) s = execStv g mod a b c s := rfl

theorem exec_ldvb (g : Guard) (d : VReg) (a : Operand) (s : State) :
    exec (.ldvb g d a) s = execLdvb g d a s := rfl

theorem exec_stvb (g : Guard) (a : Operand) (c : Operand) (s : State) :
    exec (.stvb g a c) s = execStvb g a c s := rfl

theorem exec_ldl (g : Guard) (mod : Width) (d : VReg) (b : Operand) (s : State) :
    exec (.ldl g mod d b) s = execLdl g mod d b s := rfl

theorem exec_stl (g : Guard) (mod : Width) (b : Operand) (c : Operand) (s : State) :
    exec (.stl g mod b c) s = execStl g mod b c s := rfl

theorem exec_atadd (g : Guard) (mod : AtScope) (d : VReg) (a : Operand) (b : Operand) (c : Operand) (s : State) :
    exec (.atadd g mod d a b c) s = execAtadd g mod d a b c s := rfl

theorem exec_atmin (g : Guard) (mod : AtScope) (d : VReg) (a : Operand) (b : Operand) (c : Operand) (s : State) :
    exec (.atmin g mod d a b c) s = execAtmin g mod d a b c s := rfl

theorem exec_atmax (g : Guard) (mod : AtScope) (d : VReg) (a : Operand) (b : Operand) (c : Operand) (s : State) :
    exec (.atmax g mod d a b c) s = execAtmax g mod d a b c s := rfl

theorem exec_atminw (g : Guard) (mod : AtScope) (d : VReg) (a : Operand) (b : Operand) (c : Operand) (s : State) :
    exec (.atminw g mod d a b c) s = execAtminw g mod d a b c s := rfl

theorem exec_atmaxw (g : Guard) (mod : AtScope) (d : VReg) (a : Operand) (b : Operand) (c : Operand) (s : State) :
    exec (.atmaxw g mod d a b c) s = execAtmaxw g mod d a b c s := rfl

theorem exec_atand (g : Guard) (mod : AtScope) (d : VReg) (a : Operand) (b : Operand) (c : Operand) (s : State) :
    exec (.atand g mod d a b c) s = execAtand g mod d a b c s := rfl

theorem exec_ator (g : Guard) (mod : AtScope) (d : VReg) (a : Operand) (b : Operand) (c : Operand) (s : State) :
    exec (.ator g mod d a b c) s = execAtor g mod d a b c s := rfl

theorem exec_atxor (g : Guard) (mod : AtScope) (d : VReg) (a : Operand) (b : Operand) (c : Operand) (s : State) :
    exec (.atxor g mod d a b c) s = execAtxor g mod d a b c s := rfl

theorem exec_atxch (g : Guard) (mod : AtScope) (d : VReg) (a : Operand) (b : Operand) (c : Operand) (s : State) :
    exec (.atxch g mod d a b c) s = execAtxch g mod d a b c s := rfl

theorem exec_atcas (g : Guard) (mod : AtScope) (d : VReg) (a : Operand) (b : Operand) (c : Operand) (s : State) :
    exec (.atcas g mod d a b c) s = execAtcas g mod d a b c s := rfl

theorem exec_atfadd (g : Guard) (mod : AtScope) (d : VReg) (a : Operand) (b : Operand) (c : Operand) (s : State) :
    exec (.atfadd g mod d a b c) s = execAtfadd g mod d a b c s := rfl

theorem exec_facq (g : Guard) (mod : Scope) (s : State) :
    exec (.facq g mod) s = execFacq g mod s := rfl

theorem exec_frel (g : Guard) (mod : Scope) (s : State) :
    exec (.frel g mod) s = execFrel g mod s := rfl

theorem exec_far (g : Guard) (mod : Scope) (s : State) :
    exec (.far g mod) s = execFar g mod s := rfl

theorem exec_tld (g : Guard) (d : VReg) (a : View) (b : Operand) (s : State) :
    exec (.tld g d a b) s = execTld g d a b s := rfl

theorem exec_tst (g : Guard) (a : View) (b : Operand) (c : Operand) (s : State) :
    exec (.tst g a b c) s = execTst g a b c s := rfl

theorem exec_xsv (g : Guard) (d : VReg) (a : Operand) (s : State) :
    exec (.xsv g d a) s = execXsv g d a s := rfl

theorem exec_xvs (g : Guard) (mod : Bool) (d : SReg) (a : Operand) (b : Operand) (s : State) :
    exec (.xvs g mod d a b) s = execXvs g mod d a b s := rfl

theorem exec_cpy (g : Guard) (mod : Bool) (d : Handle) (a : Operand) (b : Operand) (c : Operand) (s : State) :
    exec (.cpy g mod d a b c) s = execCpy g mod d a b c s := rfl

theorem exec_cpyb (g : Guard) (mod : Bool) (d : Handle) (a : Operand) (b : Operand) (c : Operand) (s : State) :
    exec (.cpyb g mod d a b c) s = execCpyb g mod d a b c s := rfl

theorem exec_cpym (g : Guard) (mod : Bool) (d : Handle) (a : Operand) (b : Operand) (c : Operand) (s : State) :
    exec (.cpym g mod d a b c) s = execCpym g mod d a b c s := rfl

theorem exec_cpyo (g : Guard) (d : SReg) (a : Handle) (b : Operand) (c : Operand) (s : State) :
    exec (.cpyo g d a b c) s = execCpyo g d a b c s := rfl

theorem exec_cpyg (g : Guard) (d : SReg) (a : Operand) (b : Operand) (s : State) :
    exec (.cpyg g d a b) s = execCpyg g d a b s := rfl

theorem exec_cpyl (g : Guard) (d : Handle) (a : Handle) (b : Operand) (c : Operand) (s : State) :
    exec (.cpyl g d a b c) s = execCpyl g d a b c s := rfl

theorem exec_cchain (g : Guard) (s : State) :
    exec (.cchain g) s = execCchain g s := rfl

theorem exec_cseal (g : Guard) (d : SReg) (s : State) :
    exec (.cseal g d) s = execCseal g d s := rfl

theorem exec_cwait (g : Guard) (a : ImmSlot) (s : State) :
    exec (.cwait g a) s = execCwait g a s := rfl

theorem exec_cbind (g : Guard) (a : BarOff) (s : State) :
    exec (.cbind g a) s = execCbind g a s := rfl

theorem exec_barinit (g : Guard) (a : Bar) (b : Operand) (c : Operand) (s : State) :
    exec (.barinit g a b c) s = execBarinit g a b c s := rfl

theorem exec_bararv (g : Guard) (a : Bar) (s : State) :
    exec (.bararv g a) s = execBararv g a s := rfl

theorem exec_barwt (g : Guard) (a : Bar) (s : State) :
    exec (.barwt g a) s = execBarwt g a s := rfl

theorem exec_barsyn (g : Guard) (a : Bar) (s : State) :
    exec (.barsyn g a) s = execBarsyn g a s := rfl

theorem exec_qpush (g : Guard) (a : Operand) (b : Operand) (s : State) :
    exec (.qpush g a b) s = execQpush g a b s := rfl

theorem exec_qpushn (g : Guard) (d : Flag) (a : Operand) (b : Operand) (s : State) :
    exec (.qpushn g d a b) s = execQpushn g d a b s := rfl

theorem exec_qpop (g : Guard) (d : VReg) (a : Operand) (s : State) :
    exec (.qpop g d a) s = execQpop g d a s := rfl

theorem exec_qbind (g : Guard) (d : Latch) (a : Operand) (s : State) :
    exec (.qbind g d a) s = execQbind g d a s := rfl

theorem exec_qarm (g : Guard) (a : Operand) (b : Operand) (c : Operand) (s : State) :
    exec (.qarm g a b c) s = execQarm g a b c s := rfl

theorem exec_qstat (g : Guard) (d : SReg) (a : Operand) (s : State) :
    exec (.qstat g d a) s = execQstat g d a s := rfl

theorem exec_qdone (g : Guard) (s : State) :
    exec (.qdone g) s = execQdone g s := rfl

theorem exec_launch (g : Guard) (d : SReg) (a : Operand) (s : State) :
    exec (.launch g d a) s = execLaunch g d a s := rfl

theorem exec_gstate (g : Guard) (d : VReg) (a : Operand) (b : Operand) (s : State) :
    exec (.gstate g d a b) s = execGstate g d a b s := rfl

theorem exec_gset (g : Guard) (a : Operand) (b : Operand) (c : Operand) (s : State) :
    exec (.gset g a b c) s = execGset g a b c s := rfl

theorem exec_resumeAction (core : Nat) (action : Word32) (s : State) :
    exec (.resumeAction core action) s = execResumeAction core action s := rfl

theorem exec_mbox (g : Guard) (d : SReg) (a : Operand) (s : State) :
    exec (.mbox g d a) s = execMbox g d a s := rfl

theorem exec_stop (s : State) :
    exec (.stop) s = execStop s := rfl

theorem exec_streamFetch (gid : Nat) (s : State) :
    exec (.streamFetch gid) s = execStreamFetch gid s := rfl

theorem exec_streamCacheFill (core : Nat) (fill : Nat) (s : State) :
    exec (.streamCacheFill core fill) s = execStreamCacheFill core fill s := rfl

theorem exec_refillInstall (core : Nat) (refill : Nat) (s : State) :
    exec (.refillInstall core refill) s = execRefillInstall core refill s := rfl

theorem exec_starvationBound (gid : Nat) (s : State) :
    exec (.starvationBound gid) s = execStarvationBound gid s := rfl

theorem exec_resultLanding (core : Nat) (s : State) :
    exec (.resultLanding core) s = execResultLanding core s := rfl

theorem exec_longWriteFill (gid : Nat) (write : Nat) (s : State) :
    exec (.longWriteFill gid write) s = execLongWriteFill gid write s := rfl

theorem exec_dividerResult (core : Nat) (s : State) :
    exec (.dividerResult core) s = execDividerResult core s := rfl

theorem exec_indexJobLand (core : Nat) (s : State) :
    exec (.indexJobLand core) s = execIndexJobLand core s := rfl

theorem exec_matrixOpStart (core : Nat) (s : State) :
    exec (.matrixOpStart core) s = execMatrixOpStart core s := rfl

theorem exec_matrixOpComplete (core : Nat) (s : State) :
    exec (.matrixOpComplete core) s = execMatrixOpComplete core s := rfl

theorem exec_templateInstall (core : Nat) (install : Nat) (s : State) :
    exec (.templateInstall core install) s = execTemplateInstall core install s := rfl

theorem exec_freezeSnapshot (gid : Nat) (s : State) :
    exec (.freezeSnapshot gid) s = execFreezeSnapshot gid s := rfl

theorem exec_gangEnd (gid : Nat) (s : State) :
    exec (.gangEnd gid) s = execGangEnd gid s := rfl

theorem exec_copyDeadlock (core : Nat) (s : State) :
    exec (.copyDeadlock core) s = execCopyDeadlock core s := rfl

theorem exec_sleepWake (gid : Nat) (s : State) :
    exec (.sleepWake gid) s = execSleepWake gid s := rfl

theorem exec_yieldExpiry (gid : Nat) (s : State) :
    exec (.yieldExpiry gid) s = execYieldExpiry gid s := rfl

theorem exec_stlLand (gid : Nat) (write : Nat) (s : State) :
    exec (.stlLand gid write) s = execStlLand gid write s := rfl

theorem exec_tlbWalkDone (die : Nat) (walk : Nat) (s : State) :
    exec (.tlbWalkDone die walk) s = execTlbWalkDone die walk s := rfl

theorem exec_faultResolution (fault : Nat) (success : Bool) (s : State) :
    exec (.faultResolution fault success) s = execFaultResolution fault success s := rfl

theorem exec_page (gid : Nat) (s : State) :
    exec (.page gid) s = execPage gid s := rfl

theorem exec_l1Fill (core : Nat) (fetch : Nat) (s : State) :
    exec (.l1Fill core fetch) s = execL1Fill core fetch s := rfl

theorem exec_leaseExpiry (core : Nat) (line : Nat) (s : State) :
    exec (.leaseExpiry core line) s = execLeaseExpiry core line s := rfl

theorem exec_dirtyTimeout (core : Nat) (line : Nat) (s : State) :
    exec (.dirtyTimeout core line) s = execDirtyTimeout core line s := rfl

theorem exec_writebackArrival (writeback : Nat) (s : State) :
    exec (.writebackArrival writeback) s = execWritebackArrival writeback s := rfl

theorem exec_atomicAtHome (atomic : Nat) (s : State) :
    exec (.atomicAtHome atomic) s = execAtomicAtHome atomic s := rfl

theorem exec_releaseWaitEnd (gid : Nat) (s : State) :
    exec (.releaseWaitEnd gid) s = execReleaseWaitEnd gid s := rfl

theorem exec_acquireDrop (core : Nat) (gid : Nat) (s : State) :
    exec (.acquireDrop core gid) s = execAcquireDrop core gid s := rfl

theorem exec_copyCompletion (copyId : Nat) (s : State) :
    exec (.copyCompletion copyId) s = execCopyCompletion copyId s := rfl

theorem exec_batchRetirement (gid : Nat) (group : Nat) (s : State) :
    exec (.batchRetirement gid group) s = execBatchRetirement gid group s := rfl

theorem exec_autoPublish (copyId : Nat) (s : State) :
    exec (.autoPublish copyId) s = execAutoPublish copyId s := rfl

theorem exec_publishSwap (team : Nat) (record : Nat) (s : State) :
    exec (.publishSwap team record) s = execPublishSwap team record s := rfl

theorem exec_inboxDelivery (delivery : Nat) (s : State) :
    exec (.inboxDelivery delivery) s = execInboxDelivery delivery s := rfl

theorem exec_barrierArrival (arrival : Nat) (s : State) :
    exec (.barrierArrival arrival) s = execBarrierArrival arrival s := rfl

theorem exec_pushArrival (push : Nat) (s : State) :
    exec (.pushArrival push) s = execPushArrival push s := rfl

theorem exec_pushRefusal (push : Nat) (s : State) :
    exec (.pushRefusal push) s = execPushRefusal push s := rfl

theorem exec_heldPushAccept (queue : Nat) (s : State) :
    exec (.heldPushAccept queue) s = execHeldPushAccept queue s := rfl

theorem exec_qarmUpdate (update : Nat) (s : State) :
    exec (.qarmUpdate update) s = execQarmUpdate update s := rfl

theorem exec_latchDelivery (delivery : Nat) (s : State) :
    exec (.latchDelivery delivery) s = execLatchDelivery delivery s := rfl

theorem exec_refillBurstStart (queue : Nat) (s : State) :
    exec (.refillBurstStart queue) s = execRefillBurstStart queue s := rfl

theorem exec_refillBurstLanding (queue : Nat) (s : State) :
    exec (.refillBurstLanding queue) s = execRefillBurstLanding queue s := rfl

theorem exec_ageTrigger (queue : Nat) (s : State) :
    exec (.ageTrigger queue) s = execAgeTrigger queue s := rfl

theorem exec_firing (die : Nat) (s : State) :
    exec (.firing die) s = execFiring die s := rfl

theorem exec_prologueDispatch (launch : Nat) (s : State) :
    exec (.prologueDispatch launch) s = execPrologueDispatch launch s := rfl

theorem exec_teamPlacement (die : Nat) (team : Nat) (s : State) :
    exec (.teamPlacement die team) s = execTeamPlacement die team s := rfl

theorem exec_teamCompletion (team : Nat) (s : State) :
    exec (.teamCompletion team) s = execTeamCompletion team s := rfl

theorem exec_handlerRunStart (core : Nat) (s : State) :
    exec (.handlerRunStart core) s = execHandlerRunStart core s := rfl

theorem exec_softDeadline (team : Nat) (s : State) :
    exec (.softDeadline team) s = execSoftDeadline team s := rfl

theorem exec_saveComplete (team : Nat) (s : State) :
    exec (.saveComplete team) s = execSaveComplete team s := rfl

theorem exec_saveTimeout (team : Nat) (s : State) :
    exec (.saveTimeout team) s = execSaveTimeout team s := rfl

theorem exec_restore (team : Nat) (s : State) :
    exec (.restore team) s = execRestore team s := rfl

theorem exec_doorbell (value : Word64) (s : State) :
    exec (.doorbell value) s = execDoorbell value s := rfl

theorem exec_resync (value : Word64) (s : State) :
    exec (.resync value) s = execResync value s := rfl

theorem exec_ackSeq (value : Word64) (s : State) :
    exec (.ackSeq value) s = execAckSeq value s := rfl

theorem exec_ringcfg (value : Word64) (s : State) :
    exec (.ringcfg value) s = execRingcfg value s := rfl

theorem exec_carveLock (value : Word64) (s : State) :
    exec (.carveLock value) s = execCarveLock value s := rfl

theorem exec_debuglvl (value : Word64) (s : State) :
    exec (.debuglvl value) s = execDebuglvl value s := rfl

theorem exec_inw (core : Nat) (value : Word64) (s : State) :
    exec (.inw core value) s = execInw core value s := rfl

theorem exec_outw (core : Nat) (s : State) :
    exec (.outw core) s = execOutw core s := rfl

theorem exec_registerWrite (offset : Nat) (value : Word64) (s : State) :
    exec (.registerWrite offset value) s = execRegisterWrite offset value s := rfl

theorem exec_hostLaunch (hsn : Nat) (s : State) :
    exec (.hostLaunch hsn) s = execHostLaunch hsn s := rfl

theorem exec_copy (hsn : Nat) (s : State) :
    exec (.copy hsn) s = execCopy hsn s := rfl

theorem exec_queueCfg (hsn : Nat) (s : State) :
    exec (.queueCfg hsn) s = execQueueCfg hsn s := rfl

theorem exec_queuePush (hsn : Nat) (s : State) :
    exec (.queuePush hsn) s = execQueuePush hsn s := rfl

theorem exec_signal (hsn : Nat) (s : State) :
    exec (.signal hsn) s = execSignal hsn s := rfl

theorem exec_fence (hsn : Nat) (s : State) :
    exec (.fence hsn) s = execFence hsn s := rfl

theorem exec_preemptSoft (hsn : Nat) (s : State) :
    exec (.preemptSoft hsn) s = execPreemptSoft hsn s := rfl

theorem exec_preemptHard (hsn : Nat) (s : State) :
    exec (.preemptHard hsn) s = execPreemptHard hsn s := rfl

theorem exec_inval (hsn : Nat) (s : State) :
    exec (.inval hsn) s = execInval hsn s := rfl

theorem exec_contextCreate (hsn : Nat) (s : State) :
    exec (.contextCreate hsn) s = execContextCreate hsn s := rfl

theorem exec_contextDestroy (hsn : Nat) (s : State) :
    exec (.contextDestroy hsn) s = execContextDestroy hsn s := rfl

theorem exec_partition (hsn : Nat) (s : State) :
    exec (.partition hsn) s = execPartition hsn s := rfl

theorem exec_resume (hsn : Nat) (s : State) :
    exec (.resume hsn) s = execResume hsn s := rfl

theorem exec_queenClaim (die : Nat) (s : State) :
    exec (.queenClaim die) s = execQueenClaim die s := rfl

theorem exec_queenRenew (die : Nat) (s : State) :
    exec (.queenRenew die) s = execQueenRenew die s := rfl

theorem exec_queenExpiry (s : State) :
    exec (.queenExpiry) s = execQueenExpiry s := rfl

theorem exec_packageReset (s : State) :
    exec (.packageReset) s = execPackageReset s := rfl

theorem exec_lifecycleFuse (s : State) :
    exec (.lifecycleFuse) s = execLifecycleFuse s := rfl

theorem exec_scarabLinkDown (port : Nat) (s : State) :
    exec (.scarabLinkDown port) s = execScarabLinkDown port s := rfl

theorem exec_a1Entry (core : Nat) (s : State) :
    exec (.a1Entry core) s = execA1Entry core s := rfl

theorem exec_a2Entry (die : Nat) (s : State) :
    exec (.a2Entry die) s = execA2Entry die s := rfl

theorem exec_a2Exit (die : Nat) (s : State) :
    exec (.a2Exit die) s = execA2Exit die s := rfl

theorem exec_d3hotRequest (s : State) :
    exec (.d3hotRequest) s = execD3hotRequest s := rfl

theorem exec_d0Exit (s : State) :
    exec (.d0Exit) s = execD0Exit s := rfl

theorem exec_halt (s : State) :
    exec (.halt) s = execHalt s := rfl

theorem exec_scan (write : Bool) (gid : Nat) (item : Nat) (sel : Nat) (lane : Nat) (value : Nat) (s : State) :
    exec (.scan write gid item sel lane value) s = execScan write gid item sel lane value s := rfl

theorem exec_scanResume (s : State) :
    exec (.scanResume) s = execScanResume s := rfl

theorem exec_wearSample (die : Nat) (s : State) :
    exec (.wearSample die) s = execWearSample die s := rfl

theorem exec_read (core : Nat) (s : State) :
    exec (.read core) s = execRead core s := rfl

theorem exec_write (core : Nat) (s : State) :
    exec (.write core) s = execWrite core s := rfl

theorem exec_peek (core : Nat) (s : State) :
    exec (.peek core) s = execPeek core s := rfl

theorem exec_monitorResume (core : Nat) (s : State) :
    exec (.monitorResume core) s = execMonitorResume core s := rfl

theorem exec_monitorUnknown (core : Nat) (s : State) :
    exec (.monitorUnknown core) s = execMonitorUnknown core s := rfl

theorem exec_partnerSlotFill (fill : Nat) (s : State) :
    exec (.partnerSlotFill fill) s = execPartnerSlotFill fill s := rfl

theorem exec_partnerSlotWrite (write : Nat) (s : State) :
    exec (.partnerSlotWrite write) s = execPartnerSlotWrite write s := rfl

theorem exec_hallocClearDone (gid : Nat) (write : Nat) (s : State) :
    exec (.hallocClearDone gid write) s = execHallocClearDone gid write s := rfl

theorem exec_evcfg (value : Word64) (s : State) :
    exec (.evcfg value) s = execEvcfg value s := rfl

theorem exec_cxlPortDown (port : Nat) (s : State) :
    exec (.cxlPortDown port) s = execCxlPortDown port s := rfl

theorem exec_hostBar2Access (store : Bool) (offset : Nat) (bytes : Nat) (value : Nat) (s : State) :
    exec (.hostBar2Access store offset bytes value) s = execHostBar2Access store offset bytes value s := rfl

theorem exec_peerAccessArrival (arrival : Nat) (s : State) :
    exec (.peerAccessArrival arrival) s = execPeerAccessArrival arrival s := rfl

end Sys2Proof.Laws
end

