-- ==== Sys2Proof/Laws/Ops.lean ====
section
/-! SUPPORT. What the shared operations do, said once: a slot operation whose check goes has its effect, sources
that are full go, and an operation that lands a result leaves the issuing bundle's verdict alone. -/

namespace Sys2Proof.Laws

open Sys2Proof.Machine

/-! ## Tables -/

/-- A record put under a key is found there. -/
theorem find_put_same {α : Type} (x : α) (a : Nat) : ∀ t : Tbl α, (t.put a x).find a = some x
  | [] => by simp [Tbl.put, Tbl.find]
  | (k, y) :: t => by
    have ih := find_put_same x a t
    simp only [Tbl.put]
    split
    · simp [Tbl.find]
    · split
      · rename_i h; simp [Tbl.find, h]
      · rename_i h1 h2; simp [Tbl.find, h1, h2, ih]

/-- A record put under a key leaves every other key's record. -/
theorem find_put_other {α : Type} (x : α) (a b : Nat) (h : b ≠ a) :
    ∀ t : Tbl α, (t.put a x).find b = t.find b
  | [] => by simp [Tbl.put, Tbl.find, h]
  | (k, y) :: t => by
    have ih := find_put_other x a b h t
    simp only [Tbl.put]
    split
    · rename_i hak
      simp only [Tbl.find, h, if_false]
      by_cases h1 : b < a
      · have h2 : ¬b = k := by omega
        have h3 : b < k := by omega
        simp [h1, h2, h3]
      · simp [h1]
    · split
      · rename_i _ hk
        have h2 : ¬b = k := by omega
        simp [Tbl.find, h2]
      · simp only [Tbl.find, ih]

/-- A change of a record is found under its key. -/
theorem find_upd_same {α : Type} (f : α → α) (a : Nat) : ∀ t : Tbl α, (t.upd a f).find a = (t.find a).map f
  | [] => rfl
  | (k, y) :: t => by
    have ih := find_upd_same f a t
    simp only [Tbl.upd]
    split
    · rename_i h
      have h2 : ¬a = k := by omega
      simp [Tbl.find, h, h2]
    · split
      · rename_i h; simp [Tbl.find, h]
      · rename_i h1 h2; simp [Tbl.find, h1, h2, ih]

/-- A change of a record leaves every other key's record. -/
theorem find_upd_other {α : Type} (f : α → α) (a b : Nat) (h : b ≠ a) :
    ∀ t : Tbl α, (t.upd a f).find b = t.find b
  | [] => rfl
  | (k, y) :: t => by
    have ih := find_upd_other f a b h t
    simp only [Tbl.upd]
    split
    · rfl
    · split
      · rename_i _ hk
        have h2 : ¬b = k := by omega
        simp [Tbl.find, h2]
      · simp only [Tbl.find, ih]

/-! ## The issuing bundle -/

theorem setVerdict_go (s : State) (c : Cur) (h : s.cur = some c) (hv : c.verdict = .go) :
    s.setVerdict .go = s := by
  obtain ⟨⟩ := c
  cases s
  simp only [State.setVerdict] at *
  subst hv
  subst h
  rfl

/-- An operation whose check goes and whose effect finds its registers has that effect. -/
theorem runOp_go {check : State → Cur → Gang → Verdict} {effect : State → Cur → Gang → State} {s : State}
    {c : Cur} {g : Gang} (hi : s.Issues c g) (hc : check s c g = .go)
    (he : (effect s c g).cur = some c) : runOp check effect s = .next (effect s c g) := by
  have hs := setVerdict_go s c hi.cur hi.verdict
  have hm := hi.mode
  simp only [runOp, hi.cur, hi.gang]
  split
  · contradiction
  · rfl
  · simp only [hc, hs, he, hi.verdict]

/-! ## Sources -/

/-- Full sources go. -/
theorem checkSources_full {g : Gang} {groups : List Nat} {srcs : List Src} (c : Cur) (h : g.Full groups srcs) :
    checkSources c g groups srcs = .go := by
  have he : (srcs.filter fun x => !(x.empties g groups).isEmpty) = [] := by
    rw [List.filter_eq_nil_iff]
    intro x hx
    simp [h x hx]
  simp [checkSources, he]

/-- A ready S operation goes. -/
theorem checkScalar_ready {g : Gang} {gd : Guard} {srcs : List Src} (c : Cur) (h : g.ReadyS gd srcs) :
    checkScalar gd srcs c g = .go := by
  have hh : holdIf (guardPending g gd) .pending = .go := by simp [holdIf, h.1]
  simp only [checkScalar, hh, Verdict.andThen]
  split
  · rfl
  · exact checkSources_full c h.2

/-- A ready lane operation goes. -/
theorem checkLanes_ready {g : Gang} {gd : Guard} {srcs : List Src} (c : Cur) (h : g.ReadyV gd srcs) :
    checkLanes gd srcs c g = .go := by
  simp only [checkLanes]
  split
  · rfl
  · exact checkSources_full c h

/-! ## Updates leave the issuing bundle -/

@[simp] theorem putGang_cur (s : State) (i : Nat) (g : Gang) : (s.putGang i g).cur = s.cur := rfl
@[simp] theorem updGang_cur (s : State) (i : Nat) (f : Gang → Gang) : (s.updGang i f).cur = s.cur := rfl
@[simp] theorem putCore_cur (s : State) (i : Nat) (c : Core) : (s.putCore i c).cur = s.cur := rfl
@[simp] theorem updCore_cur (s : State) (i : Nat) (f : Core → Core) : (s.updCore i f).cur = s.cur := rfl
@[simp] theorem updTeam_cur (s : State) (i : Nat) (f : Team → Team) : (s.updTeam i f).cur = s.cur := rfl
@[simp] theorem updLaunch_cur (s : State) (i : Nat) (f : Launch → Launch) : (s.updLaunch i f).cur = s.cur := rfl
@[simp] theorem at_cur (s : State) (t : Nat) (e : Event) : (s.at t e).cur = s.cur := rfl
@[simp] theorem atEnd_cur (s : State) (t : Nat) (e : Event) : (s.atEnd t e).cur = s.cur := rfl
@[simp] theorem fresh_cur (s : State) : s.fresh.2.cur = s.cur := rfl
@[simp] theorem draw_cur (s : State) : s.draw.2.cur = s.cur := rfl
@[simp] theorem atOnce_cur (s : State) (t : Nat) (e : Event) : (s.atOnce t e).cur = s.cur := by
  unfold State.atOnce; split <;> rfl

/-! ## Taking registers -/

@[simp] theorem putGang_gang (s : State) (i : Nat) (g : Gang) : (s.putGang i g).gang i = some g :=
  find_put_same g i s.gangs

theorem putGang_gang_other (s : State) (i j : Nat) (g : Gang) (h : j ≠ i) : (s.putGang i g).gang j = s.gang j :=
  find_put_other g i j h s.gangs

@[simp] theorem updGang_gang (s : State) (i : Nat) (f : Gang → Gang) : (s.updGang i f).gang i = (s.gang i).map f :=
  find_upd_same f i s.gangs

theorem updGang_gang_other (s : State) (i j : Nat) (f : Gang → Gang) (h : j ≠ i) :
    (s.updGang i f).gang j = s.gang j :=
  find_upd_other f i j h s.gangs

@[simp] theorem putGang_core (s : State) (i n : Nat) (g : Gang) : (s.putGang i g).core n = s.core n := rfl
@[simp] theorem updGang_core (s : State) (i n : Nat) (f : Gang → Gang) : (s.updGang i f).core n = s.core n := rfl
@[simp] theorem updCore_gang (s : State) (i n : Nat) (f : Core → Core) : (s.updCore n f).gang i = s.gang i := rfl

@[simp] theorem putCore_core (s : State) (n : Nat) (c : Core) : (s.putCore n c).core n = c := by
  simp [State.core, State.putCore, Tbl.getD, find_put_same]

@[simp] theorem updCore_core (s : State) (n : Nat) (f : Core → Core) : (s.updCore n f).core n = f (s.core n) :=
  putCore_core s n _

theorem getLsbD_putBit_false {w : Nat} (x : BitVec w) (i j : Nat) (h : (putBit x i false).getLsbD j = true) :
    x.getLsbD j = true := by
  simp only [putBit, Bool.false_eq_true, if_false, BitVec.getLsbD_and, Bool.and_eq_true] at h
  exact h.1

/-- Registers that can be had leave the verdict alone, and the rest can still be had after the first. -/
theorem ownRegister_step {s : State} {gid r : Nat} {rs : List Nat} (h : s.CanOwn gid (r :: rs)) :
    (s.ownRegister gid r).cur = s.cur ∧ (s.ownRegister gid r).CanOwn gid rs := by
  simp only [State.ownRegister]
  split
  · rename_i hn
    exact ⟨rfl, fun g hg => by simp [hn] at hg⟩
  · rename_i g hg
    have hb := h g hg
    rw [List.countP_cons] at hb
    split
    · rename_i hr
      simp only [hr, if_true] at hb
      have hle : rs.countP (fun q => (putBit g.inherited r false).getLsbD q) ≤
          rs.countP (fun q => g.inherited.getLsbD q) :=
        List.countP_mono_left fun q _ hq => getLsbD_putBit_false _ _ _ hq
      split
      · refine ⟨rfl, fun g' hg' => ?_⟩
        simp only [putGang_gang, Option.some.injEq] at hg'
        subst hg'
        simp only [putGang_core]
        omega
      · split
        · refine ⟨rfl, fun g' hg' => ?_⟩
          simp only [updCore_gang, putGang_gang, Option.some.injEq] at hg'
          subst hg'
          simp only [updCore_core, putGang_core]
          omega
        · omega
    · refine ⟨rfl, fun g' hg' => ?_⟩
      rw [hg] at hg'
      cases hg'
      omega

/-- Registers that can be had leave the issuing bundle as it was. -/
theorem ownAll_cur {gid : Nat} : ∀ (rs : List Nat) {s : State}, s.CanOwn gid rs →
    (rs.foldl (fun s r => s.ownRegister gid r) s).cur = s.cur
  | [], _, _ => rfl
  | r :: rs, s, h => by
    have hs := ownRegister_step h
    rw [List.foldl_cons, ownAll_cur rs hs.2, hs.1]

/-- A landing whose registers can be had leaves the issuing bundle as it was. -/
theorem land_cur {s : State} {c : Cur} {n : Nat} {d : RDest} {vals : List (Nat × Nat)}
    {flags : List (Nat × FFlags)} {latch : Bool} (h : s.CanOwn c.gid d.vregs) :
    (s.land c n d vals flags latch).cur = s.cur := by
  have ho := ownAll_cur d.vregs h
  simp only [State.land]
  split
  · exact ho
  · rw [atOnce_cur, putGang_cur, ho]

/-- Nothing to take can always be had. -/
theorem canOwn_nil (s : State) (gid : Nat) : s.CanOwn gid [] := fun _ _ => by simp

/-- Beginning a long write whose registers can be had leaves the issuing bundle as it was. -/
theorem beginLong_cur {s : State} {gid seq : Nat} {d : LDest} {groups : List Nat} {want : Nat} {acq : Bool}
    (h : s.CanOwn gid d.vregs) : (s.beginLong gid seq d groups want acq).2.cur = s.cur := by
  simp only [State.beginLong, updGang_cur, fresh_cur]
  exact ownAll_cur d.vregs h

/-! ## Operation forms -/

/-- An S operation that is ready lands its scalars. -/
theorem scalarOp_go {s : State} {c : Cur} {g : Gang} {gd : Guard} {d : SReg} {srcs : List Src} {n : Nat}
    {f : State → Cur → Gang → Nat → Word64} (hi : s.Issues c g) (hr : g.ReadyS gd srcs) :
    scalarOp gd d srcs n f s = .next (if g.effConds gd = [] then s else
      s.land c n (.s d.val) ((g.effConds gd).map fun k => (k, (f s c g k).toNat)) [] true) := by
  have hc : ((if (g.effConds gd).isEmpty then s else
      s.land c n (.s d.val) ((g.effConds gd).map fun k => (k, (f s c g k).toNat)) [] true)).cur = some c := by
    split
    · exact hi.cur
    · rw [land_cur (canOwn_nil _ _), hi.cur]
  have := runOp_go (check := fun _ c g => checkScalar gd srcs c g)
    (effect := fun s c g => if (g.effConds gd).isEmpty then s else
      s.land c n (.s d.val) ((g.effConds gd).map fun k => (k, (f s c g k).toNat)) [] true)
    hi (checkScalar_ready c hr) hc
  simpa only [scalarOp, List.isEmpty_iff] using this

/-- An S operation that is ready lands its conditions. -/
theorem condOp_go {s : State} {c : Cur} {g : Gang} {gd : Guard} {d : Flag} {srcs : List Src}
    {f : State → Cur → Gang → Nat → Bool} (hi : s.Issues c g) (hr : g.ReadyS gd srcs) :
    condOp gd d srcs f s = .next (if g.effConds gd = [] then s else
      s.land c 1 (.c d.val) ((g.effConds gd).map fun k => (k, (f s c g k).toNat)) [] false) := by
  have hc : ((if (g.effConds gd).isEmpty then s else
      s.land c 1 (.c d.val) ((g.effConds gd).map fun k => (k, (f s c g k).toNat)) [] false)).cur = some c := by
    split
    · exact hi.cur
    · rw [land_cur (canOwn_nil _ _), hi.cur]
  have := runOp_go (check := fun _ c g => checkScalar gd srcs c g)
    (effect := fun s c g => if (g.effConds gd).isEmpty then s else
      s.land c 1 (.c d.val) ((g.effConds gd).map fun k => (k, (f s c g k).toNat)) [] false)
    hi (checkScalar_ready c hr) hc
  simpa only [condOp, List.isEmpty_iff] using this

/-- A lane operation that is ready lands its results and the flags they raise. -/
theorem laneOp_go {s : State} {c : Cur} {g : Gang} {gd : Guard} {d : RDest} {srcs : List Src} {n : Nat}
    {latch : Bool} {f : State → Cur → Gang → List Nat → List (Nat × FResult)} (hi : s.Issues c g)
    (hr : g.ReadyV gd srcs) (ho : s.CanOwn c.gid d.vregs) :
    laneOp gd d srcs n latch f s = .next (if g.effLanes gd = [] then s else
      s.land c n d ((f s c g (g.effLanes gd)).map fun r => (r.1, r.2.1))
        (g.groupFlags ((f s c g (g.effLanes gd)).map fun r => (r.1, r.2.2))) latch) := by
  have hc : ((if (g.effLanes gd).isEmpty then s else
      s.land c n d ((f s c g (g.effLanes gd)).map fun r => (r.1, r.2.1))
        (g.groupFlags ((f s c g (g.effLanes gd)).map fun r => (r.1, r.2.2))) latch)).cur = some c := by
    split
    · exact hi.cur
    · rw [land_cur ho, hi.cur]
  have := runOp_go (check := fun _ c g => checkLanes gd srcs c g)
    (effect := fun s c g => if (g.effLanes gd).isEmpty then s else
      s.land c n d ((f s c g (g.effLanes gd)).map fun r => (r.1, r.2.1))
        (g.groupFlags ((f s c g (g.effLanes gd)).map fun r => (r.1, r.2.2))) latch)
    hi (checkLanes_ready c hr) hc
  simpa only [laneOp, List.isEmpty_iff] using this

/-- A gang-wide guard that every active group meets runs. -/
theorem gangWide_run {g : Gang} {gd : Guard} (h : ∀ k ∈ g.activeGroups, k ∈ g.effConds gd) :
    g.gangWide gd = .run := by
  have : (g.activeGroups.map fun k => (g.effConds gd).contains k).all id = true := by
    simpa [List.all_eq_true] using h
  simp only [Gang.gangWide, agree, this, if_true]

/-- A gang-wide operation that is ready and whose own check goes has its effect. -/
theorem controlOp_go {s : State} {c : Cur} {g : Gang} {gd : Guard} {srcs : List Src}
    {check : State → Cur → Gang → Verdict} {effect : State → Cur → Gang → State} (hi : s.Issues c g)
    (hr : g.ReadyAll gd srcs) (hc : check s c g = .go) (he : (effect s c g).cur = some c) :
    controlOp gd srcs check effect s = .next (effect s c g) := by
  have hg := gangWide_run hr.2.1
  have hh : holdIf (guardPending g gd) .pending = .go := by simp [holdIf, hr.1]
  have hk : checkSources c g g.activeGroups srcs = .go := checkSources_full c hr.2.2
  unfold controlOp
  refine (runOp_go hi ?_ ?_).trans ?_
  · simp only [hh, Verdict.andThen, hg, hk, hc]
  · simp only [hg]; exact he
  · simp only [hg]

end Sys2Proof.Laws
end

