-- ==== Sys2Proof/Laws/PerInstr.lean ====
section
/-! SUPPORT. For every instruction: the word of a slot operation gives back, field by field, the bits it was made of. -/

namespace Sys2Proof.Laws

/-- The number whose bits are the fields of a slot in their order (R96). -/
def slotNat (s : SlotBits) : Nat :=
  (((((((s.valid.toNat * 2 + s.inv.toNat) * 8 + s.gidx.toNat) * 512 + s.op.toNat) * 4 + s.mod.toNat) * 256 +
    s.d.toNat) * 256 + s.a.toNat) * 256 + s.b.toNat) * 256 + s.c.toNat

/-- A slot's word is that number. -/
theorem word_toNat (s : SlotBits) : s.word.toNat = slotNat s := by
  have append : ∀ {p q : Nat} (x : BitVec p) (y : BitVec q), (x ++ y).toNat = x.toNat * 2 ^ q + y.toNat := by
    intro p q x y
    rw [BitVec.toNat_append, ← Nat.shiftLeft_add_eq_or_of_lt y.isLt, Nat.shiftLeft_eq]
  unfold SlotBits.word slotNat
  simp only [append] <;> rfl

/-- The word with that number has those fields. -/
theorem of_toNat (w : BitVec 48) (s : SlotBits) (h : w.toNat = slotNat s) : SlotBits.of w = s := by
  obtain ⟨v, n, g, o, m, d, a, b, c⟩ := s
  have := v.isLt; have := n.isLt; have := g.isLt; have := o.isLt; have := m.isLt
  have := d.isLt; have := a.isLt; have := b.isLt; have := c.isLt
  simp only [slotNat] at h
  simp only [SlotBits.of, SlotBits.mk.injEq]
  refine ⟨?_, ?_, ?_, ?_, ?_, ?_, ?_, ?_, ?_⟩ <;>
    (apply BitVec.eq_of_toNat_eq; simp only [BitVec.extractLsb'_toNat, Nat.shiftRight_eq_div_pow, h]; omega)

/-- The fields of a slot read back from its word (R96). -/
theorem bits_of_word (b : SlotBits) : SlotBits.of b.word = b := of_toNat _ _ (word_toNat b)

/-- An instruction's word splits into the bits of its opcode map (R96, R112). -/
def Encoded.Statement (i : Instr) : Prop := ∀ w sh, encode i = some w → i.shape = some sh → SlotBits.of w = sh.bits

theorem Encoded.any (i : Instr) : Encoded.Statement i := by
  intro w sh hw hs
  simp only [encode, hs, Option.map_some, Option.some.injEq] at hw
  rw [← hw, bits_of_word]

theorem Encoded.add (g : Guard) (d : SReg) (a : Operand) (b : Operand) : Encoded.Statement (.add g d a b) := Encoded.any _
theorem Encoded.sub (g : Guard) (d : SReg) (a : Operand) (b : Operand) : Encoded.Statement (.sub g d a b) := Encoded.any _
theorem Encoded.mul (g : Guard) (d : SReg) (a : Operand) (b : Operand) : Encoded.Statement (.mul g d a b) := Encoded.any _
theorem Encoded.mulh (g : Guard) (d : SReg) (a : Operand) (b : Operand) : Encoded.Statement (.mulh g d a b) := Encoded.any _
theorem Encoded.mulhw (g : Guard) (d : SReg) (a : Operand) (b : Operand) : Encoded.Statement (.mulhw g d a b) := Encoded.any _
theorem Encoded.div (g : Guard) (d : SReg) (a : Operand) (b : Operand) : Encoded.Statement (.div g d a b) := Encoded.any _
theorem Encoded.divw (g : Guard) (d : SReg) (a : Operand) (b : Operand) : Encoded.Statement (.divw g d a b) := Encoded.any _
theorem Encoded.rem (g : Guard) (d : SReg) (a : Operand) (b : Operand) : Encoded.Statement (.rem g d a b) := Encoded.any _
theorem Encoded.remw (g : Guard) (d : SReg) (a : Operand) (b : Operand) : Encoded.Statement (.remw g d a b) := Encoded.any _
theorem Encoded.and (g : Guard) (d : SReg) (a : Operand) (b : Operand) : Encoded.Statement (.and g d a b) := Encoded.any _
theorem Encoded.or (g : Guard) (d : SReg) (a : Operand) (b : Operand) : Encoded.Statement (.or g d a b) := Encoded.any _
theorem Encoded.xor (g : Guard) (d : SReg) (a : Operand) (b : Operand) : Encoded.Statement (.xor g d a b) := Encoded.any _
theorem Encoded.andn (g : Guard) (d : SReg) (a : Operand) (b : Operand) : Encoded.Statement (.andn g d a b) := Encoded.any _
theorem Encoded.shl (g : Guard) (d : SReg) (a : Operand) (b : Operand) : Encoded.Statement (.shl g d a b) := Encoded.any _
theorem Encoded.shr (g : Guard) (d : SReg) (a : Operand) (b : Operand) : Encoded.Statement (.shr g d a b) := Encoded.any _
theorem Encoded.sar (g : Guard) (d : SReg) (a : Operand) (b : Operand) : Encoded.Statement (.sar g d a b) := Encoded.any _
theorem Encoded.rol (g : Guard) (d : SReg) (a : Operand) (b : Operand) : Encoded.Statement (.rol g d a b) := Encoded.any _
theorem Encoded.min (g : Guard) (d : SReg) (a : Operand) (b : Operand) : Encoded.Statement (.min g d a b) := Encoded.any _
theorem Encoded.max (g : Guard) (d : SReg) (a : Operand) (b : Operand) : Encoded.Statement (.max g d a b) := Encoded.any _
theorem Encoded.minw (g : Guard) (d : SReg) (a : Operand) (b : Operand) : Encoded.Statement (.minw g d a b) := Encoded.any _
theorem Encoded.maxw (g : Guard) (d : SReg) (a : Operand) (b : Operand) : Encoded.Statement (.maxw g d a b) := Encoded.any _
theorem Encoded.clz (g : Guard) (d : SReg) (a : Operand) : Encoded.Statement (.clz g d a) := Encoded.any _
theorem Encoded.cnt (g : Guard) (d : SReg) (a : Operand) : Encoded.Statement (.cnt g d a) := Encoded.any _
theorem Encoded.sel (g : Guard) (d : SReg) (a : Operand) (b : Operand) (c : Operand) : Encoded.Statement (.sel g d a b c) := Encoded.any _
theorem Encoded.mov (g : Guard) (d : SReg) (a : Operand) : Encoded.Statement (.mov g d a) := Encoded.any _
theorem Encoded.li (g : Guard) (d : SReg) (a : ImmSlot) : Encoded.Statement (.li g d a) := Encoded.any _
theorem Encoded.lih (g : Guard) (d : SReg) (a : Operand) (b : ImmSlot) : Encoded.Statement (.lih g d a b) := Encoded.any _
theorem Encoded.ceq (g : Guard) (d : Flag) (a : Operand) (b : Operand) : Encoded.Statement (.ceq g d a b) := Encoded.any _
theorem Encoded.cne (g : Guard) (d : Flag) (a : Operand) (b : Operand) : Encoded.Statement (.cne g d a b) := Encoded.any _
theorem Encoded.clt (g : Guard) (d : Flag) (a : Operand) (b : Operand) : Encoded.Statement (.clt g d a b) := Encoded.any _
theorem Encoded.cle (g : Guard) (d : Flag) (a : Operand) (b : Operand) : Encoded.Statement (.cle g d a b) := Encoded.any _
theorem Encoded.cltw (g : Guard) (d : Flag) (a : Operand) (b : Operand) : Encoded.Statement (.cltw g d a b) := Encoded.any _
theorem Encoded.clew (g : Guard) (d : Flag) (a : Operand) (b : Operand) : Encoded.Statement (.clew g d a b) := Encoded.any _
theorem Encoded.cand (g : Guard) (d : Flag) (a : Operand) (b : Operand) : Encoded.Statement (.cand g d a b) := Encoded.any _
theorem Encoded.cor (g : Guard) (d : Flag) (a : Operand) (b : Operand) : Encoded.Statement (.cor g d a b) := Encoded.any _
theorem Encoded.cxor (g : Guard) (d : Flag) (a : Operand) (b : Operand) : Encoded.Statement (.cxor g d a b) := Encoded.any _
theorem Encoded.cany (g : Guard) (d : Flag) (a : Operand) : Encoded.Statement (.cany g d a) := Encoded.any _
theorem Encoded.cevery (g : Guard) (d : Flag) (a : Operand) : Encoded.Statement (.cevery g d a) := Encoded.any _
theorem Encoded.br (g : Guard) (a : ImmSlot) : Encoded.Statement (.br g a) := Encoded.any _
theorem Encoded.brc (g : Guard) (mod : Bool) (a : Operand) (b : ImmSlot) : Encoded.Statement (.brc g mod a b) := Encoded.any _
theorem Encoded.brd (g : Guard) (a : Operand) (b : ImmSlot) (c : ImmSlot) : Encoded.Statement (.brd g a b c) := Encoded.any _
theorem Encoded.join (g : Guard) : Encoded.Statement (.join g) := Encoded.any _
theorem Encoded.call (g : Guard) (a : ImmSlot) : Encoded.Statement (.call g a) := Encoded.any _
theorem Encoded.ret (g : Guard) : Encoded.Statement (.ret g) := Encoded.any _
theorem Encoded.loop (g : Guard) (d : SReg) (a : Operand) (b : ImmSlot) : Encoded.Statement (.loop g d a b) := Encoded.any _
theorem Encoded.brx (g : Guard) (a : Operand) : Encoded.Statement (.brx g a) := Encoded.any _
theorem Encoded.exit (g : Guard) : Encoded.Statement (.exit g) := Encoded.any _
theorem Encoded.freeze (g : Guard) : Encoded.Statement (.freeze g) := Encoded.any _
theorem Encoded.yield (g : Guard) : Encoded.Statement (.yield g) := Encoded.any _
theorem Encoded.sleep (g : Guard) (a : Operand) : Encoded.Statement (.sleep g a) := Encoded.any _
theorem Encoded.trap (g : Guard) (a : ImmSlot) : Encoded.Statement (.trap g a) := Encoded.any _
theorem Encoded.rdsr (g : Guard) (d : SReg) (a : Special) : Encoded.Statement (.rdsr g d a) := Encoded.any _
theorem Encoded.wrsr (g : Guard) (d : Special) (a : Operand) : Encoded.Statement (.wrsr g d a) := Encoded.any _
theorem Encoded.vadd (g : Guard) (d : VReg) (a : Operand) (b : Operand) : Encoded.Statement (.vadd g d a b) := Encoded.any _
theorem Encoded.vsub (g : Guard) (d : VReg) (a : Operand) (b : Operand) : Encoded.Statement (.vsub g d a b) := Encoded.any _
theorem Encoded.vmul (g : Guard) (d : VReg) (a : Operand) (b : Operand) : Encoded.Statement (.vmul g d a b) := Encoded.any _
theorem Encoded.vmulh (g : Guard) (d : VReg) (a : Operand) (b : Operand) : Encoded.Statement (.vmulh g d a b) := Encoded.any _
theorem Encoded.vmad (g : Guard) (d : VReg) (a : Operand) (b : Operand) (c : Operand) : Encoded.Statement (.vmad g d a b c) := Encoded.any _
theorem Encoded.vand (g : Guard) (d : VReg) (a : Operand) (b : Operand) : Encoded.Statement (.vand g d a b) := Encoded.any _
theorem Encoded.vor (g : Guard) (d : VReg) (a : Operand) (b : Operand) : Encoded.Statement (.vor g d a b) := Encoded.any _
theorem Encoded.vxor (g : Guard) (d : VReg) (a : Operand) (b : Operand) : Encoded.Statement (.vxor g d a b) := Encoded.any _
theorem Encoded.vshl (g : Guard) (d : VReg) (a : Operand) (b : Operand) : Encoded.Statement (.vshl g d a b) := Encoded.any _
theorem Encoded.vshr (g : Guard) (d : VReg) (a : Operand) (b : Operand) : Encoded.Statement (.vshr g d a b) := Encoded.any _
theorem Encoded.vsar (g : Guard) (d : VReg) (a : Operand) (b : Operand) : Encoded.Statement (.vsar g d a b) := Encoded.any _
theorem Encoded.vmin (g : Guard) (d : VReg) (a : Operand) (b : Operand) : Encoded.Statement (.vmin g d a b) := Encoded.any _
theorem Encoded.vmax (g : Guard) (d : VReg) (a : Operand) (b : Operand) : Encoded.Statement (.vmax g d a b) := Encoded.any _
theorem Encoded.vminw (g : Guard) (d : VReg) (a : Operand) (b : Operand) : Encoded.Statement (.vminw g d a b) := Encoded.any _
theorem Encoded.vmaxw (g : Guard) (d : VReg) (a : Operand) (b : Operand) : Encoded.Statement (.vmaxw g d a b) := Encoded.any _
theorem Encoded.vabs (g : Guard) (d : VReg) (a : Operand) : Encoded.Statement (.vabs g d a) := Encoded.any _
theorem Encoded.vclz (g : Guard) (d : VReg) (a : Operand) : Encoded.Statement (.vclz g d a) := Encoded.any _
theorem Encoded.vcnt (g : Guard) (d : VReg) (a : Operand) : Encoded.Statement (.vcnt g d a) := Encoded.any _
theorem Encoded.vsel (g : Guard) (d : VReg) (a : Operand) (b : Operand) (c : Operand) : Encoded.Statement (.vsel g d a b c) := Encoded.any _
theorem Encoded.vmov (g : Guard) (d : VReg) (a : Operand) : Encoded.Statement (.vmov g d a) := Encoded.any _
theorem Encoded.vli (g : Guard) (d : VReg) (a : ImmSlot) : Encoded.Statement (.vli g d a) := Encoded.any _
theorem Encoded.vceq (g : Guard) (d : Flag) (a : Operand) (b : Operand) : Encoded.Statement (.vceq g d a b) := Encoded.any _
theorem Encoded.vcne (g : Guard) (d : Flag) (a : Operand) (b : Operand) : Encoded.Statement (.vcne g d a b) := Encoded.any _
theorem Encoded.vclt (g : Guard) (d : Flag) (a : Operand) (b : Operand) : Encoded.Statement (.vclt g d a b) := Encoded.any _
theorem Encoded.vcle (g : Guard) (d : Flag) (a : Operand) (b : Operand) : Encoded.Statement (.vcle g d a b) := Encoded.any _
theorem Encoded.vcltw (g : Guard) (d : Flag) (a : Operand) (b : Operand) : Encoded.Statement (.vcltw g d a b) := Encoded.any _
theorem Encoded.vclew (g : Guard) (d : Flag) (a : Operand) (b : Operand) : Encoded.Statement (.vclew g d a b) := Encoded.any _
theorem Encoded.fceq (g : Guard) (d : Flag) (a : Operand) (b : Operand) : Encoded.Statement (.fceq g d a b) := Encoded.any _
theorem Encoded.fclt (g : Guard) (d : Flag) (a : Operand) (b : Operand) : Encoded.Statement (.fclt g d a b) := Encoded.any _
theorem Encoded.fcle (g : Guard) (d : Flag) (a : Operand) (b : Operand) : Encoded.Statement (.fcle g d a b) := Encoded.any _
theorem Encoded.fcun (g : Guard) (d : Flag) (a : Operand) (b : Operand) : Encoded.Statement (.fcun g d a b) := Encoded.any _
theorem Encoded.dceq (g : Guard) (d : Flag) (a : Operand) (b : Operand) : Encoded.Statement (.dceq g d a b) := Encoded.any _
theorem Encoded.dclt (g : Guard) (d : Flag) (a : Operand) (b : Operand) : Encoded.Statement (.dclt g d a b) := Encoded.any _
theorem Encoded.dcle (g : Guard) (d : Flag) (a : Operand) (b : Operand) : Encoded.Statement (.dcle g d a b) := Encoded.any _
theorem Encoded.pand (g : Guard) (d : Flag) (a : Operand) (b : Operand) : Encoded.Statement (.pand g d a b) := Encoded.any _
theorem Encoded.por (g : Guard) (d : Flag) (a : Operand) (b : Operand) : Encoded.Statement (.por g d a b) := Encoded.any _
theorem Encoded.pxor (g : Guard) (d : Flag) (a : Operand) (b : Operand) : Encoded.Statement (.pxor g d a b) := Encoded.any _
theorem Encoded.pandn (g : Guard) (d : Flag) (a : Operand) (b : Operand) : Encoded.Statement (.pandn g d a b) := Encoded.any _
theorem Encoded.pmov (g : Guard) (d : Flag) (a : Operand) : Encoded.Statement (.pmov g d a) := Encoded.any _
theorem Encoded.fadd (g : Guard) (d : VReg) (a : Operand) (b : Operand) : Encoded.Statement (.fadd g d a b) := Encoded.any _
theorem Encoded.fsub (g : Guard) (d : VReg) (a : Operand) (b : Operand) : Encoded.Statement (.fsub g d a b) := Encoded.any _
theorem Encoded.fmul (g : Guard) (d : VReg) (a : Operand) (b : Operand) : Encoded.Statement (.fmul g d a b) := Encoded.any _
theorem Encoded.ffma (g : Guard) (d : VReg) (a : Operand) (b : Operand) (c : Operand) : Encoded.Statement (.ffma g d a b c) := Encoded.any _
theorem Encoded.ffms (g : Guard) (d : VReg) (a : Operand) (b : Operand) (c : Operand) : Encoded.Statement (.ffms g d a b c) := Encoded.any _
theorem Encoded.fnma (g : Guard) (d : VReg) (a : Operand) (b : Operand) (c : Operand) : Encoded.Statement (.fnma g d a b c) := Encoded.any _
theorem Encoded.fmin (g : Guard) (d : VReg) (a : Operand) (b : Operand) : Encoded.Statement (.fmin g d a b) := Encoded.any _
theorem Encoded.fmax (g : Guard) (d : VReg) (a : Operand) (b : Operand) : Encoded.Statement (.fmax g d a b) := Encoded.any _
theorem Encoded.fabs (g : Guard) (d : VReg) (a : Operand) : Encoded.Statement (.fabs g d a) := Encoded.any _
theorem Encoded.fneg (g : Guard) (d : VReg) (a : Operand) : Encoded.Statement (.fneg g d a) := Encoded.any _
theorem Encoded.frnd (g : Guard) (mod : Rounding) (d : VReg) (a : Operand) : Encoded.Statement (.frnd g mod d a) := Encoded.any _
theorem Encoded.frcp (g : Guard) (d : VReg) (a : Operand) : Encoded.Statement (.frcp g d a) := Encoded.any _
theorem Encoded.frsq (g : Guard) (d : VReg) (a : Operand) : Encoded.Statement (.frsq g d a) := Encoded.any _
theorem Encoded.fsqrt (g : Guard) (d : VReg) (a : Operand) : Encoded.Statement (.fsqrt g d a) := Encoded.any _
theorem Encoded.fexp2 (g : Guard) (d : VReg) (a : Operand) : Encoded.Statement (.fexp2 g d a) := Encoded.any _
theorem Encoded.flog2 (g : Guard) (d : VReg) (a : Operand) : Encoded.Statement (.flog2 g d a) := Encoded.any _
theorem Encoded.dadd (g : Guard) (d : VReg) (a : Operand) (b : Operand) : Encoded.Statement (.dadd g d a b) := Encoded.any _
theorem Encoded.dsub (g : Guard) (d : VReg) (a : Operand) (b : Operand) : Encoded.Statement (.dsub g d a b) := Encoded.any _
theorem Encoded.dmul (g : Guard) (d : VReg) (a : Operand) (b : Operand) : Encoded.Statement (.dmul g d a b) := Encoded.any _
theorem Encoded.dfma (g : Guard) (d : VReg) (a : Operand) (b : Operand) (c : Operand) : Encoded.Statement (.dfma g d a b c) := Encoded.any _
theorem Encoded.drcp (g : Guard) (d : VReg) (a : Operand) : Encoded.Statement (.drcp g d a) := Encoded.any _
theorem Encoded.drsq (g : Guard) (d : VReg) (a : Operand) : Encoded.Statement (.drsq g d a) := Encoded.any _
theorem Encoded.dsqrt (g : Guard) (d : VReg) (a : Operand) : Encoded.Statement (.dsqrt g d a) := Encoded.any _
theorem Encoded.hadd2 (g : Guard) (mod : Bool) (d : VReg) (a : Operand) (b : Operand) : Encoded.Statement (.hadd2 g mod d a b) := Encoded.any _
theorem Encoded.hmul2 (g : Guard) (mod : Bool) (d : VReg) (a : Operand) (b : Operand) : Encoded.Statement (.hmul2 g mod d a b) := Encoded.any _
theorem Encoded.hfma2 (g : Guard) (mod : Bool) (d : VReg) (a : Operand) (b : Operand) (c : Operand) : Encoded.Statement (.hfma2 g mod d a b c) := Encoded.any _
theorem Encoded.cvtif (g : Guard) (mod : Bool) (d : VReg) (a : Operand) : Encoded.Statement (.cvtif g mod d a) := Encoded.any _
theorem Encoded.cvtfi (g : Guard) (mod : FiMode) (d : VReg) (a : Operand) : Encoded.Statement (.cvtfi g mod d a) := Encoded.any _
theorem Encoded.cvtfd (g : Guard) (d : VReg) (a : Operand) : Encoded.Statement (.cvtfd g d a) := Encoded.any _
theorem Encoded.cvtdf (g : Guard) (d : VReg) (a : Operand) : Encoded.Statement (.cvtdf g d a) := Encoded.any _
theorem Encoded.cvtn (g : Guard) (d : VReg) (a : Operand) (b : SlotPart) (mode : CvtMode) : Encoded.Statement (.cvtn g d a b mode) := Encoded.any _
theorem Encoded.cvtw (g : Guard) (d : VReg) (a : Operand) (b : SlotPart) : Encoded.Statement (.cvtw g d a b) := Encoded.any _
theorem Encoded.vshf (g : Guard) (d : VReg) (a : Operand) (b : Operand) (c : Operand) : Encoded.Statement (.vshf g d a b c) := Encoded.any _
theorem Encoded.vbcast (g : Guard) (d : VReg) (a : Operand) (b : Operand) : Encoded.Statement (.vbcast g d a b) := Encoded.any _
theorem Encoded.vrot (g : Guard) (d : VReg) (a : Operand) (b : Operand) : Encoded.Statement (.vrot g d a b) := Encoded.any _
theorem Encoded.vred (g : Guard) (mod : RedOp) (d : VReg) (a : Operand) : Encoded.Statement (.vred g mod d a) := Encoded.any _
theorem Encoded.vscan (g : Guard) (d : VReg) (a : Operand) : Encoded.Statement (.vscan g d a) := Encoded.any _
theorem Encoded.vrdx (g : Guard) (d : VReg) (a : Operand) : Encoded.Statement (.vrdx g d a) := Encoded.any _
theorem Encoded.vwrx (g : Guard) (a : Operand) (b : Operand) : Encoded.Statement (.vwrx g a b) := Encoded.any _
theorem Encoded.mma (g : Guard) (d : Bank) (a : View) (b : Handle) (c : Format) : Encoded.Statement (.mma g d a b c) := Encoded.any _
theorem Encoded.mmaz (g : Guard) (d : Bank) (a : View) (b : Handle) (c : Format) : Encoded.Statement (.mmaz g d a b c) := Encoded.any _
theorem Encoded.mdrain (g : Guard) (mod : Bool) (d : Handle) (a : Bank) : Encoded.Statement (.mdrain g mod d a) := Encoded.any _
theorem Encoded.mfill (g : Guard) (d : Bank) (a : Handle) : Encoded.Statement (.mfill g d a) := Encoded.any _
theorem Encoded.mzero (g : Guard) (d : Bank) : Encoded.Statement (.mzero g d) := Encoded.any _
theorem Encoded.halloc (g : Guard) (mod : AllocMode) (d : Handle) : Encoded.Statement (.halloc g mod d) := Encoded.any _
theorem Encoded.hfree (g : Guard) (a : Handle) : Encoded.Statement (.hfree g a) := Encoded.any _
theorem Encoded.hgive (g : Guard) (a : Handle) (b : Operand) (c : Inbox) : Encoded.Statement (.hgive g a b c) := Encoded.any _
theorem Encoded.htake (g : Guard) (d : Handle) (c : Inbox) : Encoded.Statement (.htake g d c) := Encoded.any _
theorem Encoded.hshare (g : Guard) (a : Handle) (b : Operand) (c : Inbox) : Encoded.Statement (.hshare g a b c) := Encoded.any _
theorem Encoded.hdup (g : Guard) (d : Handle) (a : Handle) : Encoded.Statement (.hdup g d a) := Encoded.any _
theorem Encoded.hpub (g : Guard) (a : Handle) : Encoded.Statement (.hpub g a) := Encoded.any _
theorem Encoded.hinfo (g : Guard) (d : SReg) (a : Handle) : Encoded.Statement (.hinfo g d a) := Encoded.any _
theorem Encoded.hwait (g : Guard) (a : Handle) : Encoded.Statement (.hwait g a) := Encoded.any _
theorem Encoded.lds (g : Guard) (mod : Width) (d : SReg) (a : Operand) (b : Operand) : Encoded.Statement (.lds g mod d a b) := Encoded.any _
theorem Encoded.ldsw (g : Guard) (mod : Width) (d : SReg) (a : Operand) (b : Operand) : Encoded.Statement (.ldsw g mod d a b) := Encoded.any _
theorem Encoded.sts (g : Guard) (mod : Width) (a : Operand) (b : Operand) (c : Operand) : Encoded.Statement (.sts g mod a b c) := Encoded.any _
theorem Encoded.ldv (g : Guard) (mod : Width) (d : VReg) (a : Operand) (b : Operand) : Encoded.Statement (.ldv g mod d a b) := Encoded.any _
theorem Encoded.ldvw (g : Guard) (mod : Width) (d : VReg) (a : Operand) (b : Operand) : Encoded.Statement (.ldvw g mod d a b) := Encoded.any _
theorem Encoded.stv (g : Guard) (mod : Width) (a : Operand) (b : Operand) (c : Operand) : Encoded.Statement (.stv g mod a b c) := Encoded.any _
theorem Encoded.ldvb (g : Guard) (d : VReg) (a : Operand) : Encoded.Statement (.ldvb g d a) := Encoded.any _
theorem Encoded.stvb (g : Guard) (a : Operand) (c : Operand) : Encoded.Statement (.stvb g a c) := Encoded.any _
theorem Encoded.ldl (g : Guard) (mod : Width) (d : VReg) (b : Operand) : Encoded.Statement (.ldl g mod d b) := Encoded.any _
theorem Encoded.stl (g : Guard) (mod : Width) (b : Operand) (c : Operand) : Encoded.Statement (.stl g mod b c) := Encoded.any _
theorem Encoded.atadd (g : Guard) (mod : AtScope) (d : VReg) (a : Operand) (b : Operand) (c : Operand) : Encoded.Statement (.atadd g mod d a b c) := Encoded.any _
theorem Encoded.atmin (g : Guard) (mod : AtScope) (d : VReg) (a : Operand) (b : Operand) (c : Operand) : Encoded.Statement (.atmin g mod d a b c) := Encoded.any _
theorem Encoded.atmax (g : Guard) (mod : AtScope) (d : VReg) (a : Operand) (b : Operand) (c : Operand) : Encoded.Statement (.atmax g mod d a b c) := Encoded.any _
theorem Encoded.atminw (g : Guard) (mod : AtScope) (d : VReg) (a : Operand) (b : Operand) (c : Operand) : Encoded.Statement (.atminw g mod d a b c) := Encoded.any _
theorem Encoded.atmaxw (g : Guard) (mod : AtScope) (d : VReg) (a : Operand) (b : Operand) (c : Operand) : Encoded.Statement (.atmaxw g mod d a b c) := Encoded.any _
theorem Encoded.atand (g : Guard) (mod : AtScope) (d : VReg) (a : Operand) (b : Operand) (c : Operand) : Encoded.Statement (.atand g mod d a b c) := Encoded.any _
theorem Encoded.ator (g : Guard) (mod : AtScope) (d : VReg) (a : Operand) (b : Operand) (c : Operand) : Encoded.Statement (.ator g mod d a b c) := Encoded.any _
theorem Encoded.atxor (g : Guard) (mod : AtScope) (d : VReg) (a : Operand) (b : Operand) (c : Operand) : Encoded.Statement (.atxor g mod d a b c) := Encoded.any _
theorem Encoded.atxch (g : Guard) (mod : AtScope) (d : VReg) (a : Operand) (b : Operand) (c : Operand) : Encoded.Statement (.atxch g mod d a b c) := Encoded.any _
theorem Encoded.atcas (g : Guard) (mod : AtScope) (d : VReg) (a : Operand) (b : Operand) (c : Operand) : Encoded.Statement (.atcas g mod d a b c) := Encoded.any _
theorem Encoded.atfadd (g : Guard) (mod : AtScope) (d : VReg) (a : Operand) (b : Operand) (c : Operand) : Encoded.Statement (.atfadd g mod d a b c) := Encoded.any _
theorem Encoded.facq (g : Guard) (mod : Scope) : Encoded.Statement (.facq g mod) := Encoded.any _
theorem Encoded.frel (g : Guard) (mod : Scope) : Encoded.Statement (.frel g mod) := Encoded.any _
theorem Encoded.far (g : Guard) (mod : Scope) : Encoded.Statement (.far g mod) := Encoded.any _
theorem Encoded.tld (g : Guard) (d : VReg) (a : View) (b : Operand) : Encoded.Statement (.tld g d a b) := Encoded.any _
theorem Encoded.tst (g : Guard) (a : View) (b : Operand) (c : Operand) : Encoded.Statement (.tst g a b c) := Encoded.any _
theorem Encoded.xsv (g : Guard) (d : VReg) (a : Operand) : Encoded.Statement (.xsv g d a) := Encoded.any _
theorem Encoded.xvs (g : Guard) (mod : Bool) (d : SReg) (a : Operand) (b : Operand) : Encoded.Statement (.xvs g mod d a b) := Encoded.any _
theorem Encoded.cpy (g : Guard) (mod : Bool) (d : Handle) (a : Operand) (b : Operand) (c : Operand) : Encoded.Statement (.cpy g mod d a b c) := Encoded.any _
theorem Encoded.cpyb (g : Guard) (mod : Bool) (d : Handle) (a : Operand) (b : Operand) (c : Operand) : Encoded.Statement (.cpyb g mod d a b c) := Encoded.any _
theorem Encoded.cpym (g : Guard) (mod : Bool) (d : Handle) (a : Operand) (b : Operand) (c : Operand) : Encoded.Statement (.cpym g mod d a b c) := Encoded.any _
theorem Encoded.cpyo (g : Guard) (d : SReg) (a : Handle) (b : Operand) (c : Operand) : Encoded.Statement (.cpyo g d a b c) := Encoded.any _
theorem Encoded.cpyg (g : Guard) (d : SReg) (a : Operand) (b : Operand) : Encoded.Statement (.cpyg g d a b) := Encoded.any _
theorem Encoded.cpyl (g : Guard) (d : Handle) (a : Handle) (b : Operand) (c : Operand) : Encoded.Statement (.cpyl g d a b c) := Encoded.any _
theorem Encoded.cchain (g : Guard) : Encoded.Statement (.cchain g) := Encoded.any _
theorem Encoded.cseal (g : Guard) (d : SReg) : Encoded.Statement (.cseal g d) := Encoded.any _
theorem Encoded.cwait (g : Guard) (a : ImmSlot) : Encoded.Statement (.cwait g a) := Encoded.any _
theorem Encoded.cbind (g : Guard) (a : BarOff) : Encoded.Statement (.cbind g a) := Encoded.any _
theorem Encoded.barinit (g : Guard) (a : Bar) (b : Operand) (c : Operand) : Encoded.Statement (.barinit g a b c) := Encoded.any _
theorem Encoded.bararv (g : Guard) (a : Bar) : Encoded.Statement (.bararv g a) := Encoded.any _
theorem Encoded.barwt (g : Guard) (a : Bar) : Encoded.Statement (.barwt g a) := Encoded.any _
theorem Encoded.barsyn (g : Guard) (a : Bar) : Encoded.Statement (.barsyn g a) := Encoded.any _
theorem Encoded.qpush (g : Guard) (a : Operand) (b : Operand) : Encoded.Statement (.qpush g a b) := Encoded.any _
theorem Encoded.qpushn (g : Guard) (d : Flag) (a : Operand) (b : Operand) : Encoded.Statement (.qpushn g d a b) := Encoded.any _
theorem Encoded.qpop (g : Guard) (d : VReg) (a : Operand) : Encoded.Statement (.qpop g d a) := Encoded.any _
theorem Encoded.qbind (g : Guard) (d : Latch) (a : Operand) : Encoded.Statement (.qbind g d a) := Encoded.any _
theorem Encoded.qarm (g : Guard) (a : Operand) (b : Operand) (c : Operand) : Encoded.Statement (.qarm g a b c) := Encoded.any _
theorem Encoded.qstat (g : Guard) (d : SReg) (a : Operand) : Encoded.Statement (.qstat g d a) := Encoded.any _
theorem Encoded.qdone (g : Guard) : Encoded.Statement (.qdone g) := Encoded.any _
theorem Encoded.launch (g : Guard) (d : SReg) (a : Operand) : Encoded.Statement (.launch g d a) := Encoded.any _
theorem Encoded.gstate (g : Guard) (d : VReg) (a : Operand) (b : Operand) : Encoded.Statement (.gstate g d a b) := Encoded.any _
theorem Encoded.gset (g : Guard) (a : Operand) (b : Operand) (c : Operand) : Encoded.Statement (.gset g a b c) := Encoded.any _
theorem Encoded.resumeAction (core : Nat) (action : Word32) : Encoded.Statement (.resumeAction core action) := Encoded.any _
theorem Encoded.mbox (g : Guard) (d : SReg) (a : Operand) : Encoded.Statement (.mbox g d a) := Encoded.any _
theorem Encoded.stop : Encoded.Statement (.stop) := Encoded.any _
theorem Encoded.streamFetch (gid : Nat) : Encoded.Statement (.streamFetch gid) := Encoded.any _
theorem Encoded.streamCacheFill (core : Nat) (fill : Nat) : Encoded.Statement (.streamCacheFill core fill) := Encoded.any _
theorem Encoded.refillInstall (core : Nat) (refill : Nat) : Encoded.Statement (.refillInstall core refill) := Encoded.any _
theorem Encoded.starvationBound (gid : Nat) : Encoded.Statement (.starvationBound gid) := Encoded.any _
theorem Encoded.resultLanding (core : Nat) : Encoded.Statement (.resultLanding core) := Encoded.any _
theorem Encoded.longWriteFill (gid : Nat) (write : Nat) : Encoded.Statement (.longWriteFill gid write) := Encoded.any _
theorem Encoded.dividerResult (core : Nat) : Encoded.Statement (.dividerResult core) := Encoded.any _
theorem Encoded.indexJobLand (core : Nat) : Encoded.Statement (.indexJobLand core) := Encoded.any _
theorem Encoded.matrixOpStart (core : Nat) : Encoded.Statement (.matrixOpStart core) := Encoded.any _
theorem Encoded.matrixOpComplete (core : Nat) : Encoded.Statement (.matrixOpComplete core) := Encoded.any _
theorem Encoded.templateInstall (core : Nat) (install : Nat) : Encoded.Statement (.templateInstall core install) := Encoded.any _
theorem Encoded.freezeSnapshot (gid : Nat) : Encoded.Statement (.freezeSnapshot gid) := Encoded.any _
theorem Encoded.gangEnd (gid : Nat) : Encoded.Statement (.gangEnd gid) := Encoded.any _
theorem Encoded.copyDeadlock (core : Nat) : Encoded.Statement (.copyDeadlock core) := Encoded.any _
theorem Encoded.sleepWake (gid : Nat) : Encoded.Statement (.sleepWake gid) := Encoded.any _
theorem Encoded.yieldExpiry (gid : Nat) : Encoded.Statement (.yieldExpiry gid) := Encoded.any _
theorem Encoded.stlLand (gid : Nat) (write : Nat) : Encoded.Statement (.stlLand gid write) := Encoded.any _
theorem Encoded.tlbWalkDone (die : Nat) (walk : Nat) : Encoded.Statement (.tlbWalkDone die walk) := Encoded.any _
theorem Encoded.faultResolution (fault : Nat) (success : Bool) : Encoded.Statement (.faultResolution fault success) := Encoded.any _
theorem Encoded.page (gid : Nat) : Encoded.Statement (.page gid) := Encoded.any _
theorem Encoded.l1Fill (core : Nat) (fetch : Nat) : Encoded.Statement (.l1Fill core fetch) := Encoded.any _
theorem Encoded.leaseExpiry (core : Nat) (line : Nat) : Encoded.Statement (.leaseExpiry core line) := Encoded.any _
theorem Encoded.dirtyTimeout (core : Nat) (line : Nat) : Encoded.Statement (.dirtyTimeout core line) := Encoded.any _
theorem Encoded.writebackArrival (writeback : Nat) : Encoded.Statement (.writebackArrival writeback) := Encoded.any _
theorem Encoded.atomicAtHome (atomic : Nat) : Encoded.Statement (.atomicAtHome atomic) := Encoded.any _
theorem Encoded.releaseWaitEnd (gid : Nat) : Encoded.Statement (.releaseWaitEnd gid) := Encoded.any _
theorem Encoded.acquireDrop (core : Nat) (gid : Nat) : Encoded.Statement (.acquireDrop core gid) := Encoded.any _
theorem Encoded.copyCompletion (copyId : Nat) : Encoded.Statement (.copyCompletion copyId) := Encoded.any _
theorem Encoded.batchRetirement (gid : Nat) (group : Nat) : Encoded.Statement (.batchRetirement gid group) := Encoded.any _
theorem Encoded.autoPublish (copyId : Nat) : Encoded.Statement (.autoPublish copyId) := Encoded.any _
theorem Encoded.publishSwap (team : Nat) (record : Nat) : Encoded.Statement (.publishSwap team record) := Encoded.any _
theorem Encoded.inboxDelivery (delivery : Nat) : Encoded.Statement (.inboxDelivery delivery) := Encoded.any _
theorem Encoded.barrierArrival (arrival : Nat) : Encoded.Statement (.barrierArrival arrival) := Encoded.any _
theorem Encoded.pushArrival (push : Nat) : Encoded.Statement (.pushArrival push) := Encoded.any _
theorem Encoded.pushRefusal (push : Nat) : Encoded.Statement (.pushRefusal push) := Encoded.any _
theorem Encoded.heldPushAccept (queue : Nat) : Encoded.Statement (.heldPushAccept queue) := Encoded.any _
theorem Encoded.qarmUpdate (update : Nat) : Encoded.Statement (.qarmUpdate update) := Encoded.any _
theorem Encoded.latchDelivery (delivery : Nat) : Encoded.Statement (.latchDelivery delivery) := Encoded.any _
theorem Encoded.refillBurstStart (queue : Nat) : Encoded.Statement (.refillBurstStart queue) := Encoded.any _
theorem Encoded.refillBurstLanding (queue : Nat) : Encoded.Statement (.refillBurstLanding queue) := Encoded.any _
theorem Encoded.ageTrigger (queue : Nat) : Encoded.Statement (.ageTrigger queue) := Encoded.any _
theorem Encoded.firing (die : Nat) : Encoded.Statement (.firing die) := Encoded.any _
theorem Encoded.prologueDispatch (launch : Nat) : Encoded.Statement (.prologueDispatch launch) := Encoded.any _
theorem Encoded.teamPlacement (die : Nat) (team : Nat) : Encoded.Statement (.teamPlacement die team) := Encoded.any _
theorem Encoded.teamCompletion (team : Nat) : Encoded.Statement (.teamCompletion team) := Encoded.any _
theorem Encoded.handlerRunStart (core : Nat) : Encoded.Statement (.handlerRunStart core) := Encoded.any _
theorem Encoded.softDeadline (team : Nat) : Encoded.Statement (.softDeadline team) := Encoded.any _
theorem Encoded.saveComplete (team : Nat) : Encoded.Statement (.saveComplete team) := Encoded.any _
theorem Encoded.saveTimeout (team : Nat) : Encoded.Statement (.saveTimeout team) := Encoded.any _
theorem Encoded.restore (team : Nat) : Encoded.Statement (.restore team) := Encoded.any _
theorem Encoded.doorbell (value : Word64) : Encoded.Statement (.doorbell value) := Encoded.any _
theorem Encoded.resync (value : Word64) : Encoded.Statement (.resync value) := Encoded.any _
theorem Encoded.ackSeq (value : Word64) : Encoded.Statement (.ackSeq value) := Encoded.any _
theorem Encoded.ringcfg (value : Word64) : Encoded.Statement (.ringcfg value) := Encoded.any _
theorem Encoded.carveLock (value : Word64) : Encoded.Statement (.carveLock value) := Encoded.any _
theorem Encoded.debuglvl (value : Word64) : Encoded.Statement (.debuglvl value) := Encoded.any _
theorem Encoded.inw (core : Nat) (value : Word64) : Encoded.Statement (.inw core value) := Encoded.any _
theorem Encoded.outw (core : Nat) : Encoded.Statement (.outw core) := Encoded.any _
theorem Encoded.registerWrite (offset : Nat) (value : Word64) : Encoded.Statement (.registerWrite offset value) := Encoded.any _
theorem Encoded.hostLaunch (hsn : Nat) : Encoded.Statement (.hostLaunch hsn) := Encoded.any _
theorem Encoded.copy (hsn : Nat) : Encoded.Statement (.copy hsn) := Encoded.any _
theorem Encoded.queueCfg (hsn : Nat) : Encoded.Statement (.queueCfg hsn) := Encoded.any _
theorem Encoded.queuePush (hsn : Nat) : Encoded.Statement (.queuePush hsn) := Encoded.any _
theorem Encoded.signal (hsn : Nat) : Encoded.Statement (.signal hsn) := Encoded.any _
theorem Encoded.fence (hsn : Nat) : Encoded.Statement (.fence hsn) := Encoded.any _
theorem Encoded.preemptSoft (hsn : Nat) : Encoded.Statement (.preemptSoft hsn) := Encoded.any _
theorem Encoded.preemptHard (hsn : Nat) : Encoded.Statement (.preemptHard hsn) := Encoded.any _
theorem Encoded.inval (hsn : Nat) : Encoded.Statement (.inval hsn) := Encoded.any _
theorem Encoded.contextCreate (hsn : Nat) : Encoded.Statement (.contextCreate hsn) := Encoded.any _
theorem Encoded.contextDestroy (hsn : Nat) : Encoded.Statement (.contextDestroy hsn) := Encoded.any _
theorem Encoded.partition (hsn : Nat) : Encoded.Statement (.partition hsn) := Encoded.any _
theorem Encoded.resume (hsn : Nat) : Encoded.Statement (.resume hsn) := Encoded.any _
theorem Encoded.queenClaim (die : Nat) : Encoded.Statement (.queenClaim die) := Encoded.any _
theorem Encoded.queenRenew (die : Nat) : Encoded.Statement (.queenRenew die) := Encoded.any _
theorem Encoded.queenExpiry : Encoded.Statement (.queenExpiry) := Encoded.any _
theorem Encoded.packageReset : Encoded.Statement (.packageReset) := Encoded.any _
theorem Encoded.lifecycleFuse : Encoded.Statement (.lifecycleFuse) := Encoded.any _
theorem Encoded.scarabLinkDown (port : Nat) : Encoded.Statement (.scarabLinkDown port) := Encoded.any _
theorem Encoded.a1Entry (core : Nat) : Encoded.Statement (.a1Entry core) := Encoded.any _
theorem Encoded.a2Entry (die : Nat) : Encoded.Statement (.a2Entry die) := Encoded.any _
theorem Encoded.a2Exit (die : Nat) : Encoded.Statement (.a2Exit die) := Encoded.any _
theorem Encoded.d3hotRequest : Encoded.Statement (.d3hotRequest) := Encoded.any _
theorem Encoded.d0Exit : Encoded.Statement (.d0Exit) := Encoded.any _
theorem Encoded.halt : Encoded.Statement (.halt) := Encoded.any _
theorem Encoded.scan (write : Bool) (gid : Nat) (item : Nat) (sel : Nat) (lane : Nat) (value : Nat) : Encoded.Statement (.scan write gid item sel lane value) := Encoded.any _
theorem Encoded.scanResume : Encoded.Statement (.scanResume) := Encoded.any _
theorem Encoded.wearSample (die : Nat) : Encoded.Statement (.wearSample die) := Encoded.any _
theorem Encoded.read (core : Nat) : Encoded.Statement (.read core) := Encoded.any _
theorem Encoded.write (core : Nat) : Encoded.Statement (.write core) := Encoded.any _
theorem Encoded.peek (core : Nat) : Encoded.Statement (.peek core) := Encoded.any _
theorem Encoded.monitorResume (core : Nat) : Encoded.Statement (.monitorResume core) := Encoded.any _
theorem Encoded.monitorUnknown (core : Nat) : Encoded.Statement (.monitorUnknown core) := Encoded.any _
theorem Encoded.partnerSlotFill (fill : Nat) : Encoded.Statement (.partnerSlotFill fill) := Encoded.any _
theorem Encoded.partnerSlotWrite (write : Nat) : Encoded.Statement (.partnerSlotWrite write) := Encoded.any _
theorem Encoded.hallocClearDone (gid : Nat) (write : Nat) : Encoded.Statement (.hallocClearDone gid write) := Encoded.any _
theorem Encoded.evcfg (value : Word64) : Encoded.Statement (.evcfg value) := Encoded.any _
theorem Encoded.cxlPortDown (port : Nat) : Encoded.Statement (.cxlPortDown port) := Encoded.any _
theorem Encoded.hostBar2Access (store : Bool) (offset : Nat) (bytes : Nat) (value : Nat) : Encoded.Statement (.hostBar2Access store offset bytes value) := Encoded.any _
theorem Encoded.peerAccessArrival (arrival : Nat) : Encoded.Statement (.peerAccessArrival arrival) := Encoded.any _

end Sys2Proof.Laws
end

