-- ==== Sys2Proof/Laws/State.lean ====
section
/-! SUPPORT. The fields of the state under each named update: what an update does not touch stays, by definition. -/

namespace Sys2Proof.Laws

open Sys2Proof.Machine

/-! ## putGang -/

@[simp] theorem putGang_time (s : State) (i : Nat) (g : Gang) : (s.putGang i g).time = s.time := rfl
@[simp] theorem putGang_phase (s : State) (i : Nat) (g : Gang) : (s.putGang i g).phase = s.phase := rfl
@[simp] theorem putGang_agenda (s : State) (i : Nat) (g : Gang) : (s.putGang i g).agenda = s.agenda := rfl
@[simp] theorem putGang_inputs (s : State) (i : Nat) (g : Gang) : (s.putGang i g).inputs = s.inputs := rfl
@[simp] theorem putGang_bundles (s : State) (i : Nat) (g : Gang) : (s.putGang i g).bundles = s.bundles := rfl
@[simp] theorem putGang_draws (s : State) (i : Nat) (g : Gang) : (s.putGang i g).draws = s.draws := rfl
@[simp] theorem putGang_nextId (s : State) (i : Nat) (g : Gang) : (s.putGang i g).nextId = s.nextId := rfl
@[simp] theorem putGang_mem (s : State) (i : Nat) (g : Gang) : (s.putGang i g).mem = s.mem := rfl
@[simp] theorem putGang_l2 (s : State) (i : Nat) (g : Gang) : (s.putGang i g).l2 = s.l2 := rfl
@[simp] theorem putGang_homes (s : State) (i : Nat) (g : Gang) : (s.putGang i g).homes = s.homes := rfl
@[simp] theorem putGang_cores (s : State) (i : Nat) (g : Gang) : (s.putGang i g).cores = s.cores := rfl
@[simp] theorem putGang_teams (s : State) (i : Nat) (g : Gang) : (s.putGang i g).teams = s.teams := rfl
@[simp] theorem putGang_launches (s : State) (i : Nat) (g : Gang) : (s.putGang i g).launches = s.launches := rfl
@[simp] theorem putGang_contexts (s : State) (i : Nat) (g : Gang) : (s.putGang i g).contexts = s.contexts := rfl
@[simp] theorem putGang_tiles (s : State) (i : Nat) (g : Gang) : (s.putGang i g).tiles = s.tiles := rfl
@[simp] theorem putGang_acc (s : State) (i : Nat) (g : Gang) : (s.putGang i g).acc = s.acc := rfl
@[simp] theorem putGang_walks (s : State) (i : Nat) (g : Gang) : (s.putGang i g).walks = s.walks := rfl
@[simp] theorem putGang_faults (s : State) (i : Nat) (g : Gang) : (s.putGang i g).faults = s.faults := rfl
@[simp] theorem putGang_copies (s : State) (i : Nat) (g : Gang) : (s.putGang i g).copies = s.copies := rfl
@[simp] theorem putGang_pushes (s : State) (i : Nat) (g : Gang) : (s.putGang i g).pushes = s.pushes := rfl
@[simp] theorem putGang_arrivals (s : State) (i : Nat) (g : Gang) : (s.putGang i g).arrivals = s.arrivals := rfl
@[simp] theorem putGang_messages (s : State) (i : Nat) (g : Gang) : (s.putGang i g).messages = s.messages := rfl
@[simp] theorem putGang_bridges (s : State) (i : Nat) (g : Gang) : (s.putGang i g).bridges = s.bridges := rfl
@[simp] theorem putGang_padWrites (s : State) (i : Nat) (g : Gang) : (s.putGang i g).padWrites = s.padWrites := rfl
@[simp] theorem putGang_clears (s : State) (i : Nat) (g : Gang) : (s.putGang i g).clears = s.clears := rfl
@[simp] theorem putGang_writebacks (s : State) (i : Nat) (g : Gang) : (s.putGang i g).writebacks = s.writebacks := rfl
@[simp] theorem putGang_atomics (s : State) (i : Nat) (g : Gang) : (s.putGang i g).atomics = s.atomics := rfl
@[simp] theorem putGang_afters (s : State) (i : Nat) (g : Gang) : (s.putGang i g).afters = s.afters := rfl
@[simp] theorem putGang_submits (s : State) (i : Nat) (g : Gang) : (s.putGang i g).submits = s.submits := rfl
@[simp] theorem putGang_partitions (s : State) (i : Nat) (g : Gang) : (s.putGang i g).partitions = s.partitions := rfl
@[simp] theorem putGang_queues (s : State) (i : Nat) (g : Gang) : (s.putGang i g).queues = s.queues := rfl
@[simp] theorem putGang_claims (s : State) (i : Nat) (g : Gang) : (s.putGang i g).claims = s.claims := rfl
@[simp] theorem putGang_qarms (s : State) (i : Nat) (g : Gang) : (s.putGang i g).qarms = s.qarms := rfl
@[simp] theorem putGang_firingUnits (s : State) (i : Nat) (g : Gang) : (s.putGang i g).firingUnits = s.firingUnits := rfl
@[simp] theorem putGang_commands (s : State) (i : Nat) (g : Gang) : (s.putGang i g).commands = s.commands := rfl
@[simp] theorem putGang_events (s : State) (i : Nat) (g : Gang) : (s.putGang i g).events = s.events := rfl
@[simp] theorem putGang_meas (s : State) (i : Nat) (g : Gang) : (s.putGang i g).meas = s.meas := rfl
@[simp] theorem putGang_debugLvl (s : State) (i : Nat) (g : Gang) : (s.putGang i g).debugLvl = s.debugLvl := rfl
@[simp] theorem putGang_floors (s : State) (i : Nat) (g : Gang) : (s.putGang i g).floors = s.floors := rfl
@[simp] theorem putGang_routes (s : State) (i : Nat) (g : Gang) : (s.putGang i g).routes = s.routes := rfl
@[simp] theorem putGang_cxlPorts (s : State) (i : Nat) (g : Gang) : (s.putGang i g).cxlPorts = s.cxlPorts := rfl
@[simp] theorem putGang_rewrites (s : State) (i : Nat) (g : Gang) : (s.putGang i g).rewrites = s.rewrites := rfl
@[simp] theorem putGang_msixPending (s : State) (i : Nat) (g : Gang) : (s.putGang i g).msixPending = s.msixPending := rfl
@[simp] theorem putGang_bootStage (s : State) (i : Nat) (g : Gang) : (s.putGang i g).bootStage = s.bootStage := rfl
@[simp] theorem putGang_bootFail (s : State) (i : Nat) (g : Gang) : (s.putGang i g).bootFail = s.bootFail := rfl
@[simp] theorem putGang_capSize (s : State) (i : Nat) (g : Gang) : (s.putGang i g).capSize = s.capSize := rfl

/-! ## updGang -/

@[simp] theorem updGang_time (s : State) (i : Nat) (f : Gang → Gang) : (s.updGang i f).time = s.time := rfl
@[simp] theorem updGang_phase (s : State) (i : Nat) (f : Gang → Gang) : (s.updGang i f).phase = s.phase := rfl
@[simp] theorem updGang_agenda (s : State) (i : Nat) (f : Gang → Gang) : (s.updGang i f).agenda = s.agenda := rfl
@[simp] theorem updGang_inputs (s : State) (i : Nat) (f : Gang → Gang) : (s.updGang i f).inputs = s.inputs := rfl
@[simp] theorem updGang_bundles (s : State) (i : Nat) (f : Gang → Gang) : (s.updGang i f).bundles = s.bundles := rfl
@[simp] theorem updGang_draws (s : State) (i : Nat) (f : Gang → Gang) : (s.updGang i f).draws = s.draws := rfl
@[simp] theorem updGang_nextId (s : State) (i : Nat) (f : Gang → Gang) : (s.updGang i f).nextId = s.nextId := rfl
@[simp] theorem updGang_mem (s : State) (i : Nat) (f : Gang → Gang) : (s.updGang i f).mem = s.mem := rfl
@[simp] theorem updGang_l2 (s : State) (i : Nat) (f : Gang → Gang) : (s.updGang i f).l2 = s.l2 := rfl
@[simp] theorem updGang_homes (s : State) (i : Nat) (f : Gang → Gang) : (s.updGang i f).homes = s.homes := rfl
@[simp] theorem updGang_cores (s : State) (i : Nat) (f : Gang → Gang) : (s.updGang i f).cores = s.cores := rfl
@[simp] theorem updGang_teams (s : State) (i : Nat) (f : Gang → Gang) : (s.updGang i f).teams = s.teams := rfl
@[simp] theorem updGang_launches (s : State) (i : Nat) (f : Gang → Gang) : (s.updGang i f).launches = s.launches := rfl
@[simp] theorem updGang_contexts (s : State) (i : Nat) (f : Gang → Gang) : (s.updGang i f).contexts = s.contexts := rfl
@[simp] theorem updGang_tiles (s : State) (i : Nat) (f : Gang → Gang) : (s.updGang i f).tiles = s.tiles := rfl
@[simp] theorem updGang_acc (s : State) (i : Nat) (f : Gang → Gang) : (s.updGang i f).acc = s.acc := rfl
@[simp] theorem updGang_walks (s : State) (i : Nat) (f : Gang → Gang) : (s.updGang i f).walks = s.walks := rfl
@[simp] theorem updGang_faults (s : State) (i : Nat) (f : Gang → Gang) : (s.updGang i f).faults = s.faults := rfl
@[simp] theorem updGang_copies (s : State) (i : Nat) (f : Gang → Gang) : (s.updGang i f).copies = s.copies := rfl
@[simp] theorem updGang_pushes (s : State) (i : Nat) (f : Gang → Gang) : (s.updGang i f).pushes = s.pushes := rfl
@[simp] theorem updGang_arrivals (s : State) (i : Nat) (f : Gang → Gang) : (s.updGang i f).arrivals = s.arrivals := rfl
@[simp] theorem updGang_messages (s : State) (i : Nat) (f : Gang → Gang) : (s.updGang i f).messages = s.messages := rfl
@[simp] theorem updGang_bridges (s : State) (i : Nat) (f : Gang → Gang) : (s.updGang i f).bridges = s.bridges := rfl
@[simp] theorem updGang_padWrites (s : State) (i : Nat) (f : Gang → Gang) : (s.updGang i f).padWrites = s.padWrites := rfl
@[simp] theorem updGang_clears (s : State) (i : Nat) (f : Gang → Gang) : (s.updGang i f).clears = s.clears := rfl
@[simp] theorem updGang_writebacks (s : State) (i : Nat) (f : Gang → Gang) : (s.updGang i f).writebacks = s.writebacks := rfl
@[simp] theorem updGang_atomics (s : State) (i : Nat) (f : Gang → Gang) : (s.updGang i f).atomics = s.atomics := rfl
@[simp] theorem updGang_afters (s : State) (i : Nat) (f : Gang → Gang) : (s.updGang i f).afters = s.afters := rfl
@[simp] theorem updGang_submits (s : State) (i : Nat) (f : Gang → Gang) : (s.updGang i f).submits = s.submits := rfl
@[simp] theorem updGang_partitions (s : State) (i : Nat) (f : Gang → Gang) : (s.updGang i f).partitions = s.partitions := rfl
@[simp] theorem updGang_queues (s : State) (i : Nat) (f : Gang → Gang) : (s.updGang i f).queues = s.queues := rfl
@[simp] theorem updGang_claims (s : State) (i : Nat) (f : Gang → Gang) : (s.updGang i f).claims = s.claims := rfl
@[simp] theorem updGang_qarms (s : State) (i : Nat) (f : Gang → Gang) : (s.updGang i f).qarms = s.qarms := rfl
@[simp] theorem updGang_firingUnits (s : State) (i : Nat) (f : Gang → Gang) : (s.updGang i f).firingUnits = s.firingUnits := rfl
@[simp] theorem updGang_commands (s : State) (i : Nat) (f : Gang → Gang) : (s.updGang i f).commands = s.commands := rfl
@[simp] theorem updGang_events (s : State) (i : Nat) (f : Gang → Gang) : (s.updGang i f).events = s.events := rfl
@[simp] theorem updGang_meas (s : State) (i : Nat) (f : Gang → Gang) : (s.updGang i f).meas = s.meas := rfl
@[simp] theorem updGang_debugLvl (s : State) (i : Nat) (f : Gang → Gang) : (s.updGang i f).debugLvl = s.debugLvl := rfl
@[simp] theorem updGang_floors (s : State) (i : Nat) (f : Gang → Gang) : (s.updGang i f).floors = s.floors := rfl
@[simp] theorem updGang_routes (s : State) (i : Nat) (f : Gang → Gang) : (s.updGang i f).routes = s.routes := rfl
@[simp] theorem updGang_cxlPorts (s : State) (i : Nat) (f : Gang → Gang) : (s.updGang i f).cxlPorts = s.cxlPorts := rfl
@[simp] theorem updGang_rewrites (s : State) (i : Nat) (f : Gang → Gang) : (s.updGang i f).rewrites = s.rewrites := rfl
@[simp] theorem updGang_msixPending (s : State) (i : Nat) (f : Gang → Gang) : (s.updGang i f).msixPending = s.msixPending := rfl
@[simp] theorem updGang_bootStage (s : State) (i : Nat) (f : Gang → Gang) : (s.updGang i f).bootStage = s.bootStage := rfl
@[simp] theorem updGang_bootFail (s : State) (i : Nat) (f : Gang → Gang) : (s.updGang i f).bootFail = s.bootFail := rfl
@[simp] theorem updGang_capSize (s : State) (i : Nat) (f : Gang → Gang) : (s.updGang i f).capSize = s.capSize := rfl

/-! ## putCore -/

@[simp] theorem putCore_time (s : State) (i : Nat) (c : Core) : (s.putCore i c).time = s.time := rfl
@[simp] theorem putCore_phase (s : State) (i : Nat) (c : Core) : (s.putCore i c).phase = s.phase := rfl
@[simp] theorem putCore_agenda (s : State) (i : Nat) (c : Core) : (s.putCore i c).agenda = s.agenda := rfl
@[simp] theorem putCore_inputs (s : State) (i : Nat) (c : Core) : (s.putCore i c).inputs = s.inputs := rfl
@[simp] theorem putCore_bundles (s : State) (i : Nat) (c : Core) : (s.putCore i c).bundles = s.bundles := rfl
@[simp] theorem putCore_draws (s : State) (i : Nat) (c : Core) : (s.putCore i c).draws = s.draws := rfl
@[simp] theorem putCore_nextId (s : State) (i : Nat) (c : Core) : (s.putCore i c).nextId = s.nextId := rfl
@[simp] theorem putCore_mem (s : State) (i : Nat) (c : Core) : (s.putCore i c).mem = s.mem := rfl
@[simp] theorem putCore_l2 (s : State) (i : Nat) (c : Core) : (s.putCore i c).l2 = s.l2 := rfl
@[simp] theorem putCore_homes (s : State) (i : Nat) (c : Core) : (s.putCore i c).homes = s.homes := rfl
@[simp] theorem putCore_gangs (s : State) (i : Nat) (c : Core) : (s.putCore i c).gangs = s.gangs := rfl
@[simp] theorem putCore_teams (s : State) (i : Nat) (c : Core) : (s.putCore i c).teams = s.teams := rfl
@[simp] theorem putCore_launches (s : State) (i : Nat) (c : Core) : (s.putCore i c).launches = s.launches := rfl
@[simp] theorem putCore_contexts (s : State) (i : Nat) (c : Core) : (s.putCore i c).contexts = s.contexts := rfl
@[simp] theorem putCore_tiles (s : State) (i : Nat) (c : Core) : (s.putCore i c).tiles = s.tiles := rfl
@[simp] theorem putCore_acc (s : State) (i : Nat) (c : Core) : (s.putCore i c).acc = s.acc := rfl
@[simp] theorem putCore_walks (s : State) (i : Nat) (c : Core) : (s.putCore i c).walks = s.walks := rfl
@[simp] theorem putCore_faults (s : State) (i : Nat) (c : Core) : (s.putCore i c).faults = s.faults := rfl
@[simp] theorem putCore_copies (s : State) (i : Nat) (c : Core) : (s.putCore i c).copies = s.copies := rfl
@[simp] theorem putCore_pushes (s : State) (i : Nat) (c : Core) : (s.putCore i c).pushes = s.pushes := rfl
@[simp] theorem putCore_arrivals (s : State) (i : Nat) (c : Core) : (s.putCore i c).arrivals = s.arrivals := rfl
@[simp] theorem putCore_messages (s : State) (i : Nat) (c : Core) : (s.putCore i c).messages = s.messages := rfl
@[simp] theorem putCore_bridges (s : State) (i : Nat) (c : Core) : (s.putCore i c).bridges = s.bridges := rfl
@[simp] theorem putCore_padWrites (s : State) (i : Nat) (c : Core) : (s.putCore i c).padWrites = s.padWrites := rfl
@[simp] theorem putCore_clears (s : State) (i : Nat) (c : Core) : (s.putCore i c).clears = s.clears := rfl
@[simp] theorem putCore_writebacks (s : State) (i : Nat) (c : Core) : (s.putCore i c).writebacks = s.writebacks := rfl
@[simp] theorem putCore_atomics (s : State) (i : Nat) (c : Core) : (s.putCore i c).atomics = s.atomics := rfl
@[simp] theorem putCore_afters (s : State) (i : Nat) (c : Core) : (s.putCore i c).afters = s.afters := rfl
@[simp] theorem putCore_submits (s : State) (i : Nat) (c : Core) : (s.putCore i c).submits = s.submits := rfl
@[simp] theorem putCore_partitions (s : State) (i : Nat) (c : Core) : (s.putCore i c).partitions = s.partitions := rfl
@[simp] theorem putCore_queues (s : State) (i : Nat) (c : Core) : (s.putCore i c).queues = s.queues := rfl
@[simp] theorem putCore_claims (s : State) (i : Nat) (c : Core) : (s.putCore i c).claims = s.claims := rfl
@[simp] theorem putCore_qarms (s : State) (i : Nat) (c : Core) : (s.putCore i c).qarms = s.qarms := rfl
@[simp] theorem putCore_firingUnits (s : State) (i : Nat) (c : Core) : (s.putCore i c).firingUnits = s.firingUnits := rfl
@[simp] theorem putCore_commands (s : State) (i : Nat) (c : Core) : (s.putCore i c).commands = s.commands := rfl
@[simp] theorem putCore_events (s : State) (i : Nat) (c : Core) : (s.putCore i c).events = s.events := rfl
@[simp] theorem putCore_meas (s : State) (i : Nat) (c : Core) : (s.putCore i c).meas = s.meas := rfl
@[simp] theorem putCore_debugLvl (s : State) (i : Nat) (c : Core) : (s.putCore i c).debugLvl = s.debugLvl := rfl
@[simp] theorem putCore_floors (s : State) (i : Nat) (c : Core) : (s.putCore i c).floors = s.floors := rfl
@[simp] theorem putCore_routes (s : State) (i : Nat) (c : Core) : (s.putCore i c).routes = s.routes := rfl
@[simp] theorem putCore_cxlPorts (s : State) (i : Nat) (c : Core) : (s.putCore i c).cxlPorts = s.cxlPorts := rfl
@[simp] theorem putCore_rewrites (s : State) (i : Nat) (c : Core) : (s.putCore i c).rewrites = s.rewrites := rfl
@[simp] theorem putCore_msixPending (s : State) (i : Nat) (c : Core) : (s.putCore i c).msixPending = s.msixPending := rfl
@[simp] theorem putCore_bootStage (s : State) (i : Nat) (c : Core) : (s.putCore i c).bootStage = s.bootStage := rfl
@[simp] theorem putCore_bootFail (s : State) (i : Nat) (c : Core) : (s.putCore i c).bootFail = s.bootFail := rfl
@[simp] theorem putCore_capSize (s : State) (i : Nat) (c : Core) : (s.putCore i c).capSize = s.capSize := rfl

/-! ## updCore -/

@[simp] theorem updCore_time (s : State) (i : Nat) (f : Core → Core) : (s.updCore i f).time = s.time := rfl
@[simp] theorem updCore_phase (s : State) (i : Nat) (f : Core → Core) : (s.updCore i f).phase = s.phase := rfl
@[simp] theorem updCore_agenda (s : State) (i : Nat) (f : Core → Core) : (s.updCore i f).agenda = s.agenda := rfl
@[simp] theorem updCore_inputs (s : State) (i : Nat) (f : Core → Core) : (s.updCore i f).inputs = s.inputs := rfl
@[simp] theorem updCore_bundles (s : State) (i : Nat) (f : Core → Core) : (s.updCore i f).bundles = s.bundles := rfl
@[simp] theorem updCore_draws (s : State) (i : Nat) (f : Core → Core) : (s.updCore i f).draws = s.draws := rfl
@[simp] theorem updCore_nextId (s : State) (i : Nat) (f : Core → Core) : (s.updCore i f).nextId = s.nextId := rfl
@[simp] theorem updCore_mem (s : State) (i : Nat) (f : Core → Core) : (s.updCore i f).mem = s.mem := rfl
@[simp] theorem updCore_l2 (s : State) (i : Nat) (f : Core → Core) : (s.updCore i f).l2 = s.l2 := rfl
@[simp] theorem updCore_homes (s : State) (i : Nat) (f : Core → Core) : (s.updCore i f).homes = s.homes := rfl
@[simp] theorem updCore_gangs (s : State) (i : Nat) (f : Core → Core) : (s.updCore i f).gangs = s.gangs := rfl
@[simp] theorem updCore_teams (s : State) (i : Nat) (f : Core → Core) : (s.updCore i f).teams = s.teams := rfl
@[simp] theorem updCore_launches (s : State) (i : Nat) (f : Core → Core) : (s.updCore i f).launches = s.launches := rfl
@[simp] theorem updCore_contexts (s : State) (i : Nat) (f : Core → Core) : (s.updCore i f).contexts = s.contexts := rfl
@[simp] theorem updCore_tiles (s : State) (i : Nat) (f : Core → Core) : (s.updCore i f).tiles = s.tiles := rfl
@[simp] theorem updCore_acc (s : State) (i : Nat) (f : Core → Core) : (s.updCore i f).acc = s.acc := rfl
@[simp] theorem updCore_walks (s : State) (i : Nat) (f : Core → Core) : (s.updCore i f).walks = s.walks := rfl
@[simp] theorem updCore_faults (s : State) (i : Nat) (f : Core → Core) : (s.updCore i f).faults = s.faults := rfl
@[simp] theorem updCore_copies (s : State) (i : Nat) (f : Core → Core) : (s.updCore i f).copies = s.copies := rfl
@[simp] theorem updCore_pushes (s : State) (i : Nat) (f : Core → Core) : (s.updCore i f).pushes = s.pushes := rfl
@[simp] theorem updCore_arrivals (s : State) (i : Nat) (f : Core → Core) : (s.updCore i f).arrivals = s.arrivals := rfl
@[simp] theorem updCore_messages (s : State) (i : Nat) (f : Core → Core) : (s.updCore i f).messages = s.messages := rfl
@[simp] theorem updCore_bridges (s : State) (i : Nat) (f : Core → Core) : (s.updCore i f).bridges = s.bridges := rfl
@[simp] theorem updCore_padWrites (s : State) (i : Nat) (f : Core → Core) : (s.updCore i f).padWrites = s.padWrites := rfl
@[simp] theorem updCore_clears (s : State) (i : Nat) (f : Core → Core) : (s.updCore i f).clears = s.clears := rfl
@[simp] theorem updCore_writebacks (s : State) (i : Nat) (f : Core → Core) : (s.updCore i f).writebacks = s.writebacks := rfl
@[simp] theorem updCore_atomics (s : State) (i : Nat) (f : Core → Core) : (s.updCore i f).atomics = s.atomics := rfl
@[simp] theorem updCore_afters (s : State) (i : Nat) (f : Core → Core) : (s.updCore i f).afters = s.afters := rfl
@[simp] theorem updCore_submits (s : State) (i : Nat) (f : Core → Core) : (s.updCore i f).submits = s.submits := rfl
@[simp] theorem updCore_partitions (s : State) (i : Nat) (f : Core → Core) : (s.updCore i f).partitions = s.partitions := rfl
@[simp] theorem updCore_queues (s : State) (i : Nat) (f : Core → Core) : (s.updCore i f).queues = s.queues := rfl
@[simp] theorem updCore_claims (s : State) (i : Nat) (f : Core → Core) : (s.updCore i f).claims = s.claims := rfl
@[simp] theorem updCore_qarms (s : State) (i : Nat) (f : Core → Core) : (s.updCore i f).qarms = s.qarms := rfl
@[simp] theorem updCore_firingUnits (s : State) (i : Nat) (f : Core → Core) : (s.updCore i f).firingUnits = s.firingUnits := rfl
@[simp] theorem updCore_commands (s : State) (i : Nat) (f : Core → Core) : (s.updCore i f).commands = s.commands := rfl
@[simp] theorem updCore_events (s : State) (i : Nat) (f : Core → Core) : (s.updCore i f).events = s.events := rfl
@[simp] theorem updCore_meas (s : State) (i : Nat) (f : Core → Core) : (s.updCore i f).meas = s.meas := rfl
@[simp] theorem updCore_debugLvl (s : State) (i : Nat) (f : Core → Core) : (s.updCore i f).debugLvl = s.debugLvl := rfl
@[simp] theorem updCore_floors (s : State) (i : Nat) (f : Core → Core) : (s.updCore i f).floors = s.floors := rfl
@[simp] theorem updCore_routes (s : State) (i : Nat) (f : Core → Core) : (s.updCore i f).routes = s.routes := rfl
@[simp] theorem updCore_cxlPorts (s : State) (i : Nat) (f : Core → Core) : (s.updCore i f).cxlPorts = s.cxlPorts := rfl
@[simp] theorem updCore_rewrites (s : State) (i : Nat) (f : Core → Core) : (s.updCore i f).rewrites = s.rewrites := rfl
@[simp] theorem updCore_msixPending (s : State) (i : Nat) (f : Core → Core) : (s.updCore i f).msixPending = s.msixPending := rfl
@[simp] theorem updCore_bootStage (s : State) (i : Nat) (f : Core → Core) : (s.updCore i f).bootStage = s.bootStage := rfl
@[simp] theorem updCore_bootFail (s : State) (i : Nat) (f : Core → Core) : (s.updCore i f).bootFail = s.bootFail := rfl
@[simp] theorem updCore_capSize (s : State) (i : Nat) (f : Core → Core) : (s.updCore i f).capSize = s.capSize := rfl

/-! ## updTeam -/

@[simp] theorem updTeam_time (s : State) (i : Nat) (f : Team → Team) : (s.updTeam i f).time = s.time := rfl
@[simp] theorem updTeam_phase (s : State) (i : Nat) (f : Team → Team) : (s.updTeam i f).phase = s.phase := rfl
@[simp] theorem updTeam_agenda (s : State) (i : Nat) (f : Team → Team) : (s.updTeam i f).agenda = s.agenda := rfl
@[simp] theorem updTeam_inputs (s : State) (i : Nat) (f : Team → Team) : (s.updTeam i f).inputs = s.inputs := rfl
@[simp] theorem updTeam_bundles (s : State) (i : Nat) (f : Team → Team) : (s.updTeam i f).bundles = s.bundles := rfl
@[simp] theorem updTeam_draws (s : State) (i : Nat) (f : Team → Team) : (s.updTeam i f).draws = s.draws := rfl
@[simp] theorem updTeam_nextId (s : State) (i : Nat) (f : Team → Team) : (s.updTeam i f).nextId = s.nextId := rfl
@[simp] theorem updTeam_mem (s : State) (i : Nat) (f : Team → Team) : (s.updTeam i f).mem = s.mem := rfl
@[simp] theorem updTeam_l2 (s : State) (i : Nat) (f : Team → Team) : (s.updTeam i f).l2 = s.l2 := rfl
@[simp] theorem updTeam_homes (s : State) (i : Nat) (f : Team → Team) : (s.updTeam i f).homes = s.homes := rfl
@[simp] theorem updTeam_cores (s : State) (i : Nat) (f : Team → Team) : (s.updTeam i f).cores = s.cores := rfl
@[simp] theorem updTeam_gangs (s : State) (i : Nat) (f : Team → Team) : (s.updTeam i f).gangs = s.gangs := rfl
@[simp] theorem updTeam_launches (s : State) (i : Nat) (f : Team → Team) : (s.updTeam i f).launches = s.launches := rfl
@[simp] theorem updTeam_contexts (s : State) (i : Nat) (f : Team → Team) : (s.updTeam i f).contexts = s.contexts := rfl
@[simp] theorem updTeam_tiles (s : State) (i : Nat) (f : Team → Team) : (s.updTeam i f).tiles = s.tiles := rfl
@[simp] theorem updTeam_acc (s : State) (i : Nat) (f : Team → Team) : (s.updTeam i f).acc = s.acc := rfl
@[simp] theorem updTeam_walks (s : State) (i : Nat) (f : Team → Team) : (s.updTeam i f).walks = s.walks := rfl
@[simp] theorem updTeam_faults (s : State) (i : Nat) (f : Team → Team) : (s.updTeam i f).faults = s.faults := rfl
@[simp] theorem updTeam_copies (s : State) (i : Nat) (f : Team → Team) : (s.updTeam i f).copies = s.copies := rfl
@[simp] theorem updTeam_pushes (s : State) (i : Nat) (f : Team → Team) : (s.updTeam i f).pushes = s.pushes := rfl
@[simp] theorem updTeam_arrivals (s : State) (i : Nat) (f : Team → Team) : (s.updTeam i f).arrivals = s.arrivals := rfl
@[simp] theorem updTeam_messages (s : State) (i : Nat) (f : Team → Team) : (s.updTeam i f).messages = s.messages := rfl
@[simp] theorem updTeam_bridges (s : State) (i : Nat) (f : Team → Team) : (s.updTeam i f).bridges = s.bridges := rfl
@[simp] theorem updTeam_padWrites (s : State) (i : Nat) (f : Team → Team) : (s.updTeam i f).padWrites = s.padWrites := rfl
@[simp] theorem updTeam_clears (s : State) (i : Nat) (f : Team → Team) : (s.updTeam i f).clears = s.clears := rfl
@[simp] theorem updTeam_writebacks (s : State) (i : Nat) (f : Team → Team) : (s.updTeam i f).writebacks = s.writebacks := rfl
@[simp] theorem updTeam_atomics (s : State) (i : Nat) (f : Team → Team) : (s.updTeam i f).atomics = s.atomics := rfl
@[simp] theorem updTeam_afters (s : State) (i : Nat) (f : Team → Team) : (s.updTeam i f).afters = s.afters := rfl
@[simp] theorem updTeam_submits (s : State) (i : Nat) (f : Team → Team) : (s.updTeam i f).submits = s.submits := rfl
@[simp] theorem updTeam_partitions (s : State) (i : Nat) (f : Team → Team) : (s.updTeam i f).partitions = s.partitions := rfl
@[simp] theorem updTeam_queues (s : State) (i : Nat) (f : Team → Team) : (s.updTeam i f).queues = s.queues := rfl
@[simp] theorem updTeam_claims (s : State) (i : Nat) (f : Team → Team) : (s.updTeam i f).claims = s.claims := rfl
@[simp] theorem updTeam_qarms (s : State) (i : Nat) (f : Team → Team) : (s.updTeam i f).qarms = s.qarms := rfl
@[simp] theorem updTeam_firingUnits (s : State) (i : Nat) (f : Team → Team) : (s.updTeam i f).firingUnits = s.firingUnits := rfl
@[simp] theorem updTeam_commands (s : State) (i : Nat) (f : Team → Team) : (s.updTeam i f).commands = s.commands := rfl
@[simp] theorem updTeam_events (s : State) (i : Nat) (f : Team → Team) : (s.updTeam i f).events = s.events := rfl
@[simp] theorem updTeam_meas (s : State) (i : Nat) (f : Team → Team) : (s.updTeam i f).meas = s.meas := rfl
@[simp] theorem updTeam_debugLvl (s : State) (i : Nat) (f : Team → Team) : (s.updTeam i f).debugLvl = s.debugLvl := rfl
@[simp] theorem updTeam_floors (s : State) (i : Nat) (f : Team → Team) : (s.updTeam i f).floors = s.floors := rfl
@[simp] theorem updTeam_routes (s : State) (i : Nat) (f : Team → Team) : (s.updTeam i f).routes = s.routes := rfl
@[simp] theorem updTeam_cxlPorts (s : State) (i : Nat) (f : Team → Team) : (s.updTeam i f).cxlPorts = s.cxlPorts := rfl
@[simp] theorem updTeam_rewrites (s : State) (i : Nat) (f : Team → Team) : (s.updTeam i f).rewrites = s.rewrites := rfl
@[simp] theorem updTeam_msixPending (s : State) (i : Nat) (f : Team → Team) : (s.updTeam i f).msixPending = s.msixPending := rfl
@[simp] theorem updTeam_bootStage (s : State) (i : Nat) (f : Team → Team) : (s.updTeam i f).bootStage = s.bootStage := rfl
@[simp] theorem updTeam_bootFail (s : State) (i : Nat) (f : Team → Team) : (s.updTeam i f).bootFail = s.bootFail := rfl
@[simp] theorem updTeam_capSize (s : State) (i : Nat) (f : Team → Team) : (s.updTeam i f).capSize = s.capSize := rfl

/-! ## updLaunch -/

@[simp] theorem updLaunch_time (s : State) (i : Nat) (f : Launch → Launch) : (s.updLaunch i f).time = s.time := rfl
@[simp] theorem updLaunch_phase (s : State) (i : Nat) (f : Launch → Launch) : (s.updLaunch i f).phase = s.phase := rfl
@[simp] theorem updLaunch_agenda (s : State) (i : Nat) (f : Launch → Launch) : (s.updLaunch i f).agenda = s.agenda := rfl
@[simp] theorem updLaunch_inputs (s : State) (i : Nat) (f : Launch → Launch) : (s.updLaunch i f).inputs = s.inputs := rfl
@[simp] theorem updLaunch_bundles (s : State) (i : Nat) (f : Launch → Launch) : (s.updLaunch i f).bundles = s.bundles := rfl
@[simp] theorem updLaunch_draws (s : State) (i : Nat) (f : Launch → Launch) : (s.updLaunch i f).draws = s.draws := rfl
@[simp] theorem updLaunch_nextId (s : State) (i : Nat) (f : Launch → Launch) : (s.updLaunch i f).nextId = s.nextId := rfl
@[simp] theorem updLaunch_mem (s : State) (i : Nat) (f : Launch → Launch) : (s.updLaunch i f).mem = s.mem := rfl
@[simp] theorem updLaunch_l2 (s : State) (i : Nat) (f : Launch → Launch) : (s.updLaunch i f).l2 = s.l2 := rfl
@[simp] theorem updLaunch_homes (s : State) (i : Nat) (f : Launch → Launch) : (s.updLaunch i f).homes = s.homes := rfl
@[simp] theorem updLaunch_cores (s : State) (i : Nat) (f : Launch → Launch) : (s.updLaunch i f).cores = s.cores := rfl
@[simp] theorem updLaunch_gangs (s : State) (i : Nat) (f : Launch → Launch) : (s.updLaunch i f).gangs = s.gangs := rfl
@[simp] theorem updLaunch_teams (s : State) (i : Nat) (f : Launch → Launch) : (s.updLaunch i f).teams = s.teams := rfl
@[simp] theorem updLaunch_contexts (s : State) (i : Nat) (f : Launch → Launch) : (s.updLaunch i f).contexts = s.contexts := rfl
@[simp] theorem updLaunch_tiles (s : State) (i : Nat) (f : Launch → Launch) : (s.updLaunch i f).tiles = s.tiles := rfl
@[simp] theorem updLaunch_acc (s : State) (i : Nat) (f : Launch → Launch) : (s.updLaunch i f).acc = s.acc := rfl
@[simp] theorem updLaunch_walks (s : State) (i : Nat) (f : Launch → Launch) : (s.updLaunch i f).walks = s.walks := rfl
@[simp] theorem updLaunch_faults (s : State) (i : Nat) (f : Launch → Launch) : (s.updLaunch i f).faults = s.faults := rfl
@[simp] theorem updLaunch_copies (s : State) (i : Nat) (f : Launch → Launch) : (s.updLaunch i f).copies = s.copies := rfl
@[simp] theorem updLaunch_pushes (s : State) (i : Nat) (f : Launch → Launch) : (s.updLaunch i f).pushes = s.pushes := rfl
@[simp] theorem updLaunch_arrivals (s : State) (i : Nat) (f : Launch → Launch) : (s.updLaunch i f).arrivals = s.arrivals := rfl
@[simp] theorem updLaunch_messages (s : State) (i : Nat) (f : Launch → Launch) : (s.updLaunch i f).messages = s.messages := rfl
@[simp] theorem updLaunch_bridges (s : State) (i : Nat) (f : Launch → Launch) : (s.updLaunch i f).bridges = s.bridges := rfl
@[simp] theorem updLaunch_padWrites (s : State) (i : Nat) (f : Launch → Launch) : (s.updLaunch i f).padWrites = s.padWrites := rfl
@[simp] theorem updLaunch_clears (s : State) (i : Nat) (f : Launch → Launch) : (s.updLaunch i f).clears = s.clears := rfl
@[simp] theorem updLaunch_writebacks (s : State) (i : Nat) (f : Launch → Launch) : (s.updLaunch i f).writebacks = s.writebacks := rfl
@[simp] theorem updLaunch_atomics (s : State) (i : Nat) (f : Launch → Launch) : (s.updLaunch i f).atomics = s.atomics := rfl
@[simp] theorem updLaunch_afters (s : State) (i : Nat) (f : Launch → Launch) : (s.updLaunch i f).afters = s.afters := rfl
@[simp] theorem updLaunch_submits (s : State) (i : Nat) (f : Launch → Launch) : (s.updLaunch i f).submits = s.submits := rfl
@[simp] theorem updLaunch_partitions (s : State) (i : Nat) (f : Launch → Launch) : (s.updLaunch i f).partitions = s.partitions := rfl
@[simp] theorem updLaunch_queues (s : State) (i : Nat) (f : Launch → Launch) : (s.updLaunch i f).queues = s.queues := rfl
@[simp] theorem updLaunch_claims (s : State) (i : Nat) (f : Launch → Launch) : (s.updLaunch i f).claims = s.claims := rfl
@[simp] theorem updLaunch_qarms (s : State) (i : Nat) (f : Launch → Launch) : (s.updLaunch i f).qarms = s.qarms := rfl
@[simp] theorem updLaunch_firingUnits (s : State) (i : Nat) (f : Launch → Launch) : (s.updLaunch i f).firingUnits = s.firingUnits := rfl
@[simp] theorem updLaunch_commands (s : State) (i : Nat) (f : Launch → Launch) : (s.updLaunch i f).commands = s.commands := rfl
@[simp] theorem updLaunch_events (s : State) (i : Nat) (f : Launch → Launch) : (s.updLaunch i f).events = s.events := rfl
@[simp] theorem updLaunch_meas (s : State) (i : Nat) (f : Launch → Launch) : (s.updLaunch i f).meas = s.meas := rfl
@[simp] theorem updLaunch_debugLvl (s : State) (i : Nat) (f : Launch → Launch) : (s.updLaunch i f).debugLvl = s.debugLvl := rfl
@[simp] theorem updLaunch_floors (s : State) (i : Nat) (f : Launch → Launch) : (s.updLaunch i f).floors = s.floors := rfl
@[simp] theorem updLaunch_routes (s : State) (i : Nat) (f : Launch → Launch) : (s.updLaunch i f).routes = s.routes := rfl
@[simp] theorem updLaunch_cxlPorts (s : State) (i : Nat) (f : Launch → Launch) : (s.updLaunch i f).cxlPorts = s.cxlPorts := rfl
@[simp] theorem updLaunch_rewrites (s : State) (i : Nat) (f : Launch → Launch) : (s.updLaunch i f).rewrites = s.rewrites := rfl
@[simp] theorem updLaunch_msixPending (s : State) (i : Nat) (f : Launch → Launch) : (s.updLaunch i f).msixPending = s.msixPending := rfl
@[simp] theorem updLaunch_bootStage (s : State) (i : Nat) (f : Launch → Launch) : (s.updLaunch i f).bootStage = s.bootStage := rfl
@[simp] theorem updLaunch_bootFail (s : State) (i : Nat) (f : Launch → Launch) : (s.updLaunch i f).bootFail = s.bootFail := rfl
@[simp] theorem updLaunch_capSize (s : State) (i : Nat) (f : Launch → Launch) : (s.updLaunch i f).capSize = s.capSize := rfl

/-! ## at -/

@[simp] theorem at_time (s : State) (t : Nat) (e : Event) : (s.at t e).time = s.time := rfl
@[simp] theorem at_phase (s : State) (t : Nat) (e : Event) : (s.at t e).phase = s.phase := rfl
@[simp] theorem at_inputs (s : State) (t : Nat) (e : Event) : (s.at t e).inputs = s.inputs := rfl
@[simp] theorem at_bundles (s : State) (t : Nat) (e : Event) : (s.at t e).bundles = s.bundles := rfl
@[simp] theorem at_draws (s : State) (t : Nat) (e : Event) : (s.at t e).draws = s.draws := rfl
@[simp] theorem at_nextId (s : State) (t : Nat) (e : Event) : (s.at t e).nextId = s.nextId := rfl
@[simp] theorem at_mem (s : State) (t : Nat) (e : Event) : (s.at t e).mem = s.mem := rfl
@[simp] theorem at_l2 (s : State) (t : Nat) (e : Event) : (s.at t e).l2 = s.l2 := rfl
@[simp] theorem at_homes (s : State) (t : Nat) (e : Event) : (s.at t e).homes = s.homes := rfl
@[simp] theorem at_cores (s : State) (t : Nat) (e : Event) : (s.at t e).cores = s.cores := rfl
@[simp] theorem at_gangs (s : State) (t : Nat) (e : Event) : (s.at t e).gangs = s.gangs := rfl
@[simp] theorem at_teams (s : State) (t : Nat) (e : Event) : (s.at t e).teams = s.teams := rfl
@[simp] theorem at_launches (s : State) (t : Nat) (e : Event) : (s.at t e).launches = s.launches := rfl
@[simp] theorem at_contexts (s : State) (t : Nat) (e : Event) : (s.at t e).contexts = s.contexts := rfl
@[simp] theorem at_tiles (s : State) (t : Nat) (e : Event) : (s.at t e).tiles = s.tiles := rfl
@[simp] theorem at_acc (s : State) (t : Nat) (e : Event) : (s.at t e).acc = s.acc := rfl
@[simp] theorem at_walks (s : State) (t : Nat) (e : Event) : (s.at t e).walks = s.walks := rfl
@[simp] theorem at_faults (s : State) (t : Nat) (e : Event) : (s.at t e).faults = s.faults := rfl
@[simp] theorem at_copies (s : State) (t : Nat) (e : Event) : (s.at t e).copies = s.copies := rfl
@[simp] theorem at_pushes (s : State) (t : Nat) (e : Event) : (s.at t e).pushes = s.pushes := rfl
@[simp] theorem at_arrivals (s : State) (t : Nat) (e : Event) : (s.at t e).arrivals = s.arrivals := rfl
@[simp] theorem at_messages (s : State) (t : Nat) (e : Event) : (s.at t e).messages = s.messages := rfl
@[simp] theorem at_bridges (s : State) (t : Nat) (e : Event) : (s.at t e).bridges = s.bridges := rfl
@[simp] theorem at_padWrites (s : State) (t : Nat) (e : Event) : (s.at t e).padWrites = s.padWrites := rfl
@[simp] theorem at_clears (s : State) (t : Nat) (e : Event) : (s.at t e).clears = s.clears := rfl
@[simp] theorem at_writebacks (s : State) (t : Nat) (e : Event) : (s.at t e).writebacks = s.writebacks := rfl
@[simp] theorem at_atomics (s : State) (t : Nat) (e : Event) : (s.at t e).atomics = s.atomics := rfl
@[simp] theorem at_afters (s : State) (t : Nat) (e : Event) : (s.at t e).afters = s.afters := rfl
@[simp] theorem at_submits (s : State) (t : Nat) (e : Event) : (s.at t e).submits = s.submits := rfl
@[simp] theorem at_partitions (s : State) (t : Nat) (e : Event) : (s.at t e).partitions = s.partitions := rfl
@[simp] theorem at_queues (s : State) (t : Nat) (e : Event) : (s.at t e).queues = s.queues := rfl
@[simp] theorem at_claims (s : State) (t : Nat) (e : Event) : (s.at t e).claims = s.claims := rfl
@[simp] theorem at_qarms (s : State) (t : Nat) (e : Event) : (s.at t e).qarms = s.qarms := rfl
@[simp] theorem at_firingUnits (s : State) (t : Nat) (e : Event) : (s.at t e).firingUnits = s.firingUnits := rfl
@[simp] theorem at_commands (s : State) (t : Nat) (e : Event) : (s.at t e).commands = s.commands := rfl
@[simp] theorem at_events (s : State) (t : Nat) (e : Event) : (s.at t e).events = s.events := rfl
@[simp] theorem at_meas (s : State) (t : Nat) (e : Event) : (s.at t e).meas = s.meas := rfl
@[simp] theorem at_debugLvl (s : State) (t : Nat) (e : Event) : (s.at t e).debugLvl = s.debugLvl := rfl
@[simp] theorem at_floors (s : State) (t : Nat) (e : Event) : (s.at t e).floors = s.floors := rfl
@[simp] theorem at_routes (s : State) (t : Nat) (e : Event) : (s.at t e).routes = s.routes := rfl
@[simp] theorem at_cxlPorts (s : State) (t : Nat) (e : Event) : (s.at t e).cxlPorts = s.cxlPorts := rfl
@[simp] theorem at_rewrites (s : State) (t : Nat) (e : Event) : (s.at t e).rewrites = s.rewrites := rfl
@[simp] theorem at_msixPending (s : State) (t : Nat) (e : Event) : (s.at t e).msixPending = s.msixPending := rfl
@[simp] theorem at_bootStage (s : State) (t : Nat) (e : Event) : (s.at t e).bootStage = s.bootStage := rfl
@[simp] theorem at_bootFail (s : State) (t : Nat) (e : Event) : (s.at t e).bootFail = s.bootFail := rfl
@[simp] theorem at_capSize (s : State) (t : Nat) (e : Event) : (s.at t e).capSize = s.capSize := rfl

/-! ## atEnd -/

@[simp] theorem atEnd_time (s : State) (t : Nat) (e : Event) : (s.atEnd t e).time = s.time := rfl
@[simp] theorem atEnd_phase (s : State) (t : Nat) (e : Event) : (s.atEnd t e).phase = s.phase := rfl
@[simp] theorem atEnd_inputs (s : State) (t : Nat) (e : Event) : (s.atEnd t e).inputs = s.inputs := rfl
@[simp] theorem atEnd_bundles (s : State) (t : Nat) (e : Event) : (s.atEnd t e).bundles = s.bundles := rfl
@[simp] theorem atEnd_draws (s : State) (t : Nat) (e : Event) : (s.atEnd t e).draws = s.draws := rfl
@[simp] theorem atEnd_nextId (s : State) (t : Nat) (e : Event) : (s.atEnd t e).nextId = s.nextId := rfl
@[simp] theorem atEnd_mem (s : State) (t : Nat) (e : Event) : (s.atEnd t e).mem = s.mem := rfl
@[simp] theorem atEnd_l2 (s : State) (t : Nat) (e : Event) : (s.atEnd t e).l2 = s.l2 := rfl
@[simp] theorem atEnd_homes (s : State) (t : Nat) (e : Event) : (s.atEnd t e).homes = s.homes := rfl
@[simp] theorem atEnd_cores (s : State) (t : Nat) (e : Event) : (s.atEnd t e).cores = s.cores := rfl
@[simp] theorem atEnd_gangs (s : State) (t : Nat) (e : Event) : (s.atEnd t e).gangs = s.gangs := rfl
@[simp] theorem atEnd_teams (s : State) (t : Nat) (e : Event) : (s.atEnd t e).teams = s.teams := rfl
@[simp] theorem atEnd_launches (s : State) (t : Nat) (e : Event) : (s.atEnd t e).launches = s.launches := rfl
@[simp] theorem atEnd_contexts (s : State) (t : Nat) (e : Event) : (s.atEnd t e).contexts = s.contexts := rfl
@[simp] theorem atEnd_tiles (s : State) (t : Nat) (e : Event) : (s.atEnd t e).tiles = s.tiles := rfl
@[simp] theorem atEnd_acc (s : State) (t : Nat) (e : Event) : (s.atEnd t e).acc = s.acc := rfl
@[simp] theorem atEnd_walks (s : State) (t : Nat) (e : Event) : (s.atEnd t e).walks = s.walks := rfl
@[simp] theorem atEnd_faults (s : State) (t : Nat) (e : Event) : (s.atEnd t e).faults = s.faults := rfl
@[simp] theorem atEnd_copies (s : State) (t : Nat) (e : Event) : (s.atEnd t e).copies = s.copies := rfl
@[simp] theorem atEnd_pushes (s : State) (t : Nat) (e : Event) : (s.atEnd t e).pushes = s.pushes := rfl
@[simp] theorem atEnd_arrivals (s : State) (t : Nat) (e : Event) : (s.atEnd t e).arrivals = s.arrivals := rfl
@[simp] theorem atEnd_messages (s : State) (t : Nat) (e : Event) : (s.atEnd t e).messages = s.messages := rfl
@[simp] theorem atEnd_bridges (s : State) (t : Nat) (e : Event) : (s.atEnd t e).bridges = s.bridges := rfl
@[simp] theorem atEnd_padWrites (s : State) (t : Nat) (e : Event) : (s.atEnd t e).padWrites = s.padWrites := rfl
@[simp] theorem atEnd_clears (s : State) (t : Nat) (e : Event) : (s.atEnd t e).clears = s.clears := rfl
@[simp] theorem atEnd_writebacks (s : State) (t : Nat) (e : Event) : (s.atEnd t e).writebacks = s.writebacks := rfl
@[simp] theorem atEnd_atomics (s : State) (t : Nat) (e : Event) : (s.atEnd t e).atomics = s.atomics := rfl
@[simp] theorem atEnd_afters (s : State) (t : Nat) (e : Event) : (s.atEnd t e).afters = s.afters := rfl
@[simp] theorem atEnd_submits (s : State) (t : Nat) (e : Event) : (s.atEnd t e).submits = s.submits := rfl
@[simp] theorem atEnd_partitions (s : State) (t : Nat) (e : Event) : (s.atEnd t e).partitions = s.partitions := rfl
@[simp] theorem atEnd_queues (s : State) (t : Nat) (e : Event) : (s.atEnd t e).queues = s.queues := rfl
@[simp] theorem atEnd_claims (s : State) (t : Nat) (e : Event) : (s.atEnd t e).claims = s.claims := rfl
@[simp] theorem atEnd_qarms (s : State) (t : Nat) (e : Event) : (s.atEnd t e).qarms = s.qarms := rfl
@[simp] theorem atEnd_firingUnits (s : State) (t : Nat) (e : Event) : (s.atEnd t e).firingUnits = s.firingUnits := rfl
@[simp] theorem atEnd_commands (s : State) (t : Nat) (e : Event) : (s.atEnd t e).commands = s.commands := rfl
@[simp] theorem atEnd_events (s : State) (t : Nat) (e : Event) : (s.atEnd t e).events = s.events := rfl
@[simp] theorem atEnd_meas (s : State) (t : Nat) (e : Event) : (s.atEnd t e).meas = s.meas := rfl
@[simp] theorem atEnd_debugLvl (s : State) (t : Nat) (e : Event) : (s.atEnd t e).debugLvl = s.debugLvl := rfl
@[simp] theorem atEnd_floors (s : State) (t : Nat) (e : Event) : (s.atEnd t e).floors = s.floors := rfl
@[simp] theorem atEnd_routes (s : State) (t : Nat) (e : Event) : (s.atEnd t e).routes = s.routes := rfl
@[simp] theorem atEnd_cxlPorts (s : State) (t : Nat) (e : Event) : (s.atEnd t e).cxlPorts = s.cxlPorts := rfl
@[simp] theorem atEnd_rewrites (s : State) (t : Nat) (e : Event) : (s.atEnd t e).rewrites = s.rewrites := rfl
@[simp] theorem atEnd_msixPending (s : State) (t : Nat) (e : Event) : (s.atEnd t e).msixPending = s.msixPending := rfl
@[simp] theorem atEnd_bootStage (s : State) (t : Nat) (e : Event) : (s.atEnd t e).bootStage = s.bootStage := rfl
@[simp] theorem atEnd_bootFail (s : State) (t : Nat) (e : Event) : (s.atEnd t e).bootFail = s.bootFail := rfl
@[simp] theorem atEnd_capSize (s : State) (t : Nat) (e : Event) : (s.atEnd t e).capSize = s.capSize := rfl

/-! ## fresh -/

@[simp] theorem fresh_time (s : State) : (s.fresh.2).time = s.time := rfl
@[simp] theorem fresh_phase (s : State) : (s.fresh.2).phase = s.phase := rfl
@[simp] theorem fresh_agenda (s : State) : (s.fresh.2).agenda = s.agenda := rfl
@[simp] theorem fresh_inputs (s : State) : (s.fresh.2).inputs = s.inputs := rfl
@[simp] theorem fresh_bundles (s : State) : (s.fresh.2).bundles = s.bundles := rfl
@[simp] theorem fresh_draws (s : State) : (s.fresh.2).draws = s.draws := rfl
@[simp] theorem fresh_mem (s : State) : (s.fresh.2).mem = s.mem := rfl
@[simp] theorem fresh_l2 (s : State) : (s.fresh.2).l2 = s.l2 := rfl
@[simp] theorem fresh_homes (s : State) : (s.fresh.2).homes = s.homes := rfl
@[simp] theorem fresh_cores (s : State) : (s.fresh.2).cores = s.cores := rfl
@[simp] theorem fresh_gangs (s : State) : (s.fresh.2).gangs = s.gangs := rfl
@[simp] theorem fresh_teams (s : State) : (s.fresh.2).teams = s.teams := rfl
@[simp] theorem fresh_launches (s : State) : (s.fresh.2).launches = s.launches := rfl
@[simp] theorem fresh_contexts (s : State) : (s.fresh.2).contexts = s.contexts := rfl
@[simp] theorem fresh_tiles (s : State) : (s.fresh.2).tiles = s.tiles := rfl
@[simp] theorem fresh_acc (s : State) : (s.fresh.2).acc = s.acc := rfl
@[simp] theorem fresh_walks (s : State) : (s.fresh.2).walks = s.walks := rfl
@[simp] theorem fresh_faults (s : State) : (s.fresh.2).faults = s.faults := rfl
@[simp] theorem fresh_copies (s : State) : (s.fresh.2).copies = s.copies := rfl
@[simp] theorem fresh_pushes (s : State) : (s.fresh.2).pushes = s.pushes := rfl
@[simp] theorem fresh_arrivals (s : State) : (s.fresh.2).arrivals = s.arrivals := rfl
@[simp] theorem fresh_messages (s : State) : (s.fresh.2).messages = s.messages := rfl
@[simp] theorem fresh_bridges (s : State) : (s.fresh.2).bridges = s.bridges := rfl
@[simp] theorem fresh_padWrites (s : State) : (s.fresh.2).padWrites = s.padWrites := rfl
@[simp] theorem fresh_clears (s : State) : (s.fresh.2).clears = s.clears := rfl
@[simp] theorem fresh_writebacks (s : State) : (s.fresh.2).writebacks = s.writebacks := rfl
@[simp] theorem fresh_atomics (s : State) : (s.fresh.2).atomics = s.atomics := rfl
@[simp] theorem fresh_afters (s : State) : (s.fresh.2).afters = s.afters := rfl
@[simp] theorem fresh_submits (s : State) : (s.fresh.2).submits = s.submits := rfl
@[simp] theorem fresh_partitions (s : State) : (s.fresh.2).partitions = s.partitions := rfl
@[simp] theorem fresh_queues (s : State) : (s.fresh.2).queues = s.queues := rfl
@[simp] theorem fresh_claims (s : State) : (s.fresh.2).claims = s.claims := rfl
@[simp] theorem fresh_qarms (s : State) : (s.fresh.2).qarms = s.qarms := rfl
@[simp] theorem fresh_firingUnits (s : State) : (s.fresh.2).firingUnits = s.firingUnits := rfl
@[simp] theorem fresh_commands (s : State) : (s.fresh.2).commands = s.commands := rfl
@[simp] theorem fresh_events (s : State) : (s.fresh.2).events = s.events := rfl
@[simp] theorem fresh_meas (s : State) : (s.fresh.2).meas = s.meas := rfl
@[simp] theorem fresh_debugLvl (s : State) : (s.fresh.2).debugLvl = s.debugLvl := rfl
@[simp] theorem fresh_floors (s : State) : (s.fresh.2).floors = s.floors := rfl
@[simp] theorem fresh_routes (s : State) : (s.fresh.2).routes = s.routes := rfl
@[simp] theorem fresh_cxlPorts (s : State) : (s.fresh.2).cxlPorts = s.cxlPorts := rfl
@[simp] theorem fresh_rewrites (s : State) : (s.fresh.2).rewrites = s.rewrites := rfl
@[simp] theorem fresh_msixPending (s : State) : (s.fresh.2).msixPending = s.msixPending := rfl
@[simp] theorem fresh_bootStage (s : State) : (s.fresh.2).bootStage = s.bootStage := rfl
@[simp] theorem fresh_bootFail (s : State) : (s.fresh.2).bootFail = s.bootFail := rfl
@[simp] theorem fresh_capSize (s : State) : (s.fresh.2).capSize = s.capSize := rfl

/-! ## draw -/

@[simp] theorem draw_time (s : State) : (s.draw.2).time = s.time := rfl
@[simp] theorem draw_phase (s : State) : (s.draw.2).phase = s.phase := rfl
@[simp] theorem draw_agenda (s : State) : (s.draw.2).agenda = s.agenda := rfl
@[simp] theorem draw_inputs (s : State) : (s.draw.2).inputs = s.inputs := rfl
@[simp] theorem draw_bundles (s : State) : (s.draw.2).bundles = s.bundles := rfl
@[simp] theorem draw_nextId (s : State) : (s.draw.2).nextId = s.nextId := rfl
@[simp] theorem draw_mem (s : State) : (s.draw.2).mem = s.mem := rfl
@[simp] theorem draw_l2 (s : State) : (s.draw.2).l2 = s.l2 := rfl
@[simp] theorem draw_homes (s : State) : (s.draw.2).homes = s.homes := rfl
@[simp] theorem draw_cores (s : State) : (s.draw.2).cores = s.cores := rfl
@[simp] theorem draw_gangs (s : State) : (s.draw.2).gangs = s.gangs := rfl
@[simp] theorem draw_teams (s : State) : (s.draw.2).teams = s.teams := rfl
@[simp] theorem draw_launches (s : State) : (s.draw.2).launches = s.launches := rfl
@[simp] theorem draw_contexts (s : State) : (s.draw.2).contexts = s.contexts := rfl
@[simp] theorem draw_tiles (s : State) : (s.draw.2).tiles = s.tiles := rfl
@[simp] theorem draw_acc (s : State) : (s.draw.2).acc = s.acc := rfl
@[simp] theorem draw_walks (s : State) : (s.draw.2).walks = s.walks := rfl
@[simp] theorem draw_faults (s : State) : (s.draw.2).faults = s.faults := rfl
@[simp] theorem draw_copies (s : State) : (s.draw.2).copies = s.copies := rfl
@[simp] theorem draw_pushes (s : State) : (s.draw.2).pushes = s.pushes := rfl
@[simp] theorem draw_arrivals (s : State) : (s.draw.2).arrivals = s.arrivals := rfl
@[simp] theorem draw_messages (s : State) : (s.draw.2).messages = s.messages := rfl
@[simp] theorem draw_bridges (s : State) : (s.draw.2).bridges = s.bridges := rfl
@[simp] theorem draw_padWrites (s : State) : (s.draw.2).padWrites = s.padWrites := rfl
@[simp] theorem draw_clears (s : State) : (s.draw.2).clears = s.clears := rfl
@[simp] theorem draw_writebacks (s : State) : (s.draw.2).writebacks = s.writebacks := rfl
@[simp] theorem draw_atomics (s : State) : (s.draw.2).atomics = s.atomics := rfl
@[simp] theorem draw_afters (s : State) : (s.draw.2).afters = s.afters := rfl
@[simp] theorem draw_submits (s : State) : (s.draw.2).submits = s.submits := rfl
@[simp] theorem draw_partitions (s : State) : (s.draw.2).partitions = s.partitions := rfl
@[simp] theorem draw_queues (s : State) : (s.draw.2).queues = s.queues := rfl
@[simp] theorem draw_claims (s : State) : (s.draw.2).claims = s.claims := rfl
@[simp] theorem draw_qarms (s : State) : (s.draw.2).qarms = s.qarms := rfl
@[simp] theorem draw_firingUnits (s : State) : (s.draw.2).firingUnits = s.firingUnits := rfl
@[simp] theorem draw_commands (s : State) : (s.draw.2).commands = s.commands := rfl
@[simp] theorem draw_events (s : State) : (s.draw.2).events = s.events := rfl
@[simp] theorem draw_meas (s : State) : (s.draw.2).meas = s.meas := rfl
@[simp] theorem draw_debugLvl (s : State) : (s.draw.2).debugLvl = s.debugLvl := rfl
@[simp] theorem draw_floors (s : State) : (s.draw.2).floors = s.floors := rfl
@[simp] theorem draw_routes (s : State) : (s.draw.2).routes = s.routes := rfl
@[simp] theorem draw_cxlPorts (s : State) : (s.draw.2).cxlPorts = s.cxlPorts := rfl
@[simp] theorem draw_rewrites (s : State) : (s.draw.2).rewrites = s.rewrites := rfl
@[simp] theorem draw_msixPending (s : State) : (s.draw.2).msixPending = s.msixPending := rfl
@[simp] theorem draw_bootStage (s : State) : (s.draw.2).bootStage = s.bootStage := rfl
@[simp] theorem draw_bootFail (s : State) : (s.draw.2).bootFail = s.bootFail := rfl
@[simp] theorem draw_capSize (s : State) : (s.draw.2).capSize = s.capSize := rfl

/-! ## setVerdict -/

@[simp] theorem setVerdict_time (s : State) (v : Verdict) : (s.setVerdict v).time = s.time := rfl
@[simp] theorem setVerdict_phase (s : State) (v : Verdict) : (s.setVerdict v).phase = s.phase := rfl
@[simp] theorem setVerdict_agenda (s : State) (v : Verdict) : (s.setVerdict v).agenda = s.agenda := rfl
@[simp] theorem setVerdict_inputs (s : State) (v : Verdict) : (s.setVerdict v).inputs = s.inputs := rfl
@[simp] theorem setVerdict_bundles (s : State) (v : Verdict) : (s.setVerdict v).bundles = s.bundles := rfl
@[simp] theorem setVerdict_draws (s : State) (v : Verdict) : (s.setVerdict v).draws = s.draws := rfl
@[simp] theorem setVerdict_nextId (s : State) (v : Verdict) : (s.setVerdict v).nextId = s.nextId := rfl
@[simp] theorem setVerdict_mem (s : State) (v : Verdict) : (s.setVerdict v).mem = s.mem := rfl
@[simp] theorem setVerdict_l2 (s : State) (v : Verdict) : (s.setVerdict v).l2 = s.l2 := rfl
@[simp] theorem setVerdict_homes (s : State) (v : Verdict) : (s.setVerdict v).homes = s.homes := rfl
@[simp] theorem setVerdict_cores (s : State) (v : Verdict) : (s.setVerdict v).cores = s.cores := rfl
@[simp] theorem setVerdict_gangs (s : State) (v : Verdict) : (s.setVerdict v).gangs = s.gangs := rfl
@[simp] theorem setVerdict_teams (s : State) (v : Verdict) : (s.setVerdict v).teams = s.teams := rfl
@[simp] theorem setVerdict_launches (s : State) (v : Verdict) : (s.setVerdict v).launches = s.launches := rfl
@[simp] theorem setVerdict_contexts (s : State) (v : Verdict) : (s.setVerdict v).contexts = s.contexts := rfl
@[simp] theorem setVerdict_tiles (s : State) (v : Verdict) : (s.setVerdict v).tiles = s.tiles := rfl
@[simp] theorem setVerdict_acc (s : State) (v : Verdict) : (s.setVerdict v).acc = s.acc := rfl
@[simp] theorem setVerdict_walks (s : State) (v : Verdict) : (s.setVerdict v).walks = s.walks := rfl
@[simp] theorem setVerdict_faults (s : State) (v : Verdict) : (s.setVerdict v).faults = s.faults := rfl
@[simp] theorem setVerdict_copies (s : State) (v : Verdict) : (s.setVerdict v).copies = s.copies := rfl
@[simp] theorem setVerdict_pushes (s : State) (v : Verdict) : (s.setVerdict v).pushes = s.pushes := rfl
@[simp] theorem setVerdict_arrivals (s : State) (v : Verdict) : (s.setVerdict v).arrivals = s.arrivals := rfl
@[simp] theorem setVerdict_messages (s : State) (v : Verdict) : (s.setVerdict v).messages = s.messages := rfl
@[simp] theorem setVerdict_bridges (s : State) (v : Verdict) : (s.setVerdict v).bridges = s.bridges := rfl
@[simp] theorem setVerdict_padWrites (s : State) (v : Verdict) : (s.setVerdict v).padWrites = s.padWrites := rfl
@[simp] theorem setVerdict_clears (s : State) (v : Verdict) : (s.setVerdict v).clears = s.clears := rfl
@[simp] theorem setVerdict_writebacks (s : State) (v : Verdict) : (s.setVerdict v).writebacks = s.writebacks := rfl
@[simp] theorem setVerdict_atomics (s : State) (v : Verdict) : (s.setVerdict v).atomics = s.atomics := rfl
@[simp] theorem setVerdict_afters (s : State) (v : Verdict) : (s.setVerdict v).afters = s.afters := rfl
@[simp] theorem setVerdict_submits (s : State) (v : Verdict) : (s.setVerdict v).submits = s.submits := rfl
@[simp] theorem setVerdict_partitions (s : State) (v : Verdict) : (s.setVerdict v).partitions = s.partitions := rfl
@[simp] theorem setVerdict_queues (s : State) (v : Verdict) : (s.setVerdict v).queues = s.queues := rfl
@[simp] theorem setVerdict_claims (s : State) (v : Verdict) : (s.setVerdict v).claims = s.claims := rfl
@[simp] theorem setVerdict_qarms (s : State) (v : Verdict) : (s.setVerdict v).qarms = s.qarms := rfl
@[simp] theorem setVerdict_firingUnits (s : State) (v : Verdict) : (s.setVerdict v).firingUnits = s.firingUnits := rfl
@[simp] theorem setVerdict_commands (s : State) (v : Verdict) : (s.setVerdict v).commands = s.commands := rfl
@[simp] theorem setVerdict_events (s : State) (v : Verdict) : (s.setVerdict v).events = s.events := rfl
@[simp] theorem setVerdict_meas (s : State) (v : Verdict) : (s.setVerdict v).meas = s.meas := rfl
@[simp] theorem setVerdict_debugLvl (s : State) (v : Verdict) : (s.setVerdict v).debugLvl = s.debugLvl := rfl
@[simp] theorem setVerdict_floors (s : State) (v : Verdict) : (s.setVerdict v).floors = s.floors := rfl
@[simp] theorem setVerdict_routes (s : State) (v : Verdict) : (s.setVerdict v).routes = s.routes := rfl
@[simp] theorem setVerdict_cxlPorts (s : State) (v : Verdict) : (s.setVerdict v).cxlPorts = s.cxlPorts := rfl
@[simp] theorem setVerdict_rewrites (s : State) (v : Verdict) : (s.setVerdict v).rewrites = s.rewrites := rfl
@[simp] theorem setVerdict_msixPending (s : State) (v : Verdict) : (s.setVerdict v).msixPending = s.msixPending := rfl
@[simp] theorem setVerdict_bootStage (s : State) (v : Verdict) : (s.setVerdict v).bootStage = s.bootStage := rfl
@[simp] theorem setVerdict_bootFail (s : State) (v : Verdict) : (s.setVerdict v).bootFail = s.bootFail := rfl
@[simp] theorem setVerdict_capSize (s : State) (v : Verdict) : (s.setVerdict v).capSize = s.capSize := rfl

/-! ## writeMem -/

@[simp] theorem writeMem_time (s : State) (k : Nat) (bs : List Byte) : (s.writeMem k bs).time = s.time := rfl
@[simp] theorem writeMem_phase (s : State) (k : Nat) (bs : List Byte) : (s.writeMem k bs).phase = s.phase := rfl
@[simp] theorem writeMem_agenda (s : State) (k : Nat) (bs : List Byte) : (s.writeMem k bs).agenda = s.agenda := rfl
@[simp] theorem writeMem_inputs (s : State) (k : Nat) (bs : List Byte) : (s.writeMem k bs).inputs = s.inputs := rfl
@[simp] theorem writeMem_cur (s : State) (k : Nat) (bs : List Byte) : (s.writeMem k bs).cur = s.cur := rfl
@[simp] theorem writeMem_bundles (s : State) (k : Nat) (bs : List Byte) : (s.writeMem k bs).bundles = s.bundles := rfl
@[simp] theorem writeMem_draws (s : State) (k : Nat) (bs : List Byte) : (s.writeMem k bs).draws = s.draws := rfl
@[simp] theorem writeMem_nextId (s : State) (k : Nat) (bs : List Byte) : (s.writeMem k bs).nextId = s.nextId := rfl
@[simp] theorem writeMem_l2 (s : State) (k : Nat) (bs : List Byte) : (s.writeMem k bs).l2 = s.l2 := rfl
@[simp] theorem writeMem_homes (s : State) (k : Nat) (bs : List Byte) : (s.writeMem k bs).homes = s.homes := rfl
@[simp] theorem writeMem_cores (s : State) (k : Nat) (bs : List Byte) : (s.writeMem k bs).cores = s.cores := rfl
@[simp] theorem writeMem_gangs (s : State) (k : Nat) (bs : List Byte) : (s.writeMem k bs).gangs = s.gangs := rfl
@[simp] theorem writeMem_teams (s : State) (k : Nat) (bs : List Byte) : (s.writeMem k bs).teams = s.teams := rfl
@[simp] theorem writeMem_launches (s : State) (k : Nat) (bs : List Byte) : (s.writeMem k bs).launches = s.launches := rfl
@[simp] theorem writeMem_contexts (s : State) (k : Nat) (bs : List Byte) : (s.writeMem k bs).contexts = s.contexts := rfl
@[simp] theorem writeMem_tiles (s : State) (k : Nat) (bs : List Byte) : (s.writeMem k bs).tiles = s.tiles := rfl
@[simp] theorem writeMem_acc (s : State) (k : Nat) (bs : List Byte) : (s.writeMem k bs).acc = s.acc := rfl
@[simp] theorem writeMem_walks (s : State) (k : Nat) (bs : List Byte) : (s.writeMem k bs).walks = s.walks := rfl
@[simp] theorem writeMem_faults (s : State) (k : Nat) (bs : List Byte) : (s.writeMem k bs).faults = s.faults := rfl
@[simp] theorem writeMem_copies (s : State) (k : Nat) (bs : List Byte) : (s.writeMem k bs).copies = s.copies := rfl
@[simp] theorem writeMem_pushes (s : State) (k : Nat) (bs : List Byte) : (s.writeMem k bs).pushes = s.pushes := rfl
@[simp] theorem writeMem_arrivals (s : State) (k : Nat) (bs : List Byte) : (s.writeMem k bs).arrivals = s.arrivals := rfl
@[simp] theorem writeMem_messages (s : State) (k : Nat) (bs : List Byte) : (s.writeMem k bs).messages = s.messages := rfl
@[simp] theorem writeMem_bridges (s : State) (k : Nat) (bs : List Byte) : (s.writeMem k bs).bridges = s.bridges := rfl
@[simp] theorem writeMem_padWrites (s : State) (k : Nat) (bs : List Byte) : (s.writeMem k bs).padWrites = s.padWrites := rfl
@[simp] theorem writeMem_clears (s : State) (k : Nat) (bs : List Byte) : (s.writeMem k bs).clears = s.clears := rfl
@[simp] theorem writeMem_writebacks (s : State) (k : Nat) (bs : List Byte) : (s.writeMem k bs).writebacks = s.writebacks := rfl
@[simp] theorem writeMem_atomics (s : State) (k : Nat) (bs : List Byte) : (s.writeMem k bs).atomics = s.atomics := rfl
@[simp] theorem writeMem_afters (s : State) (k : Nat) (bs : List Byte) : (s.writeMem k bs).afters = s.afters := rfl
@[simp] theorem writeMem_submits (s : State) (k : Nat) (bs : List Byte) : (s.writeMem k bs).submits = s.submits := rfl
@[simp] theorem writeMem_partitions (s : State) (k : Nat) (bs : List Byte) : (s.writeMem k bs).partitions = s.partitions := rfl
@[simp] theorem writeMem_queues (s : State) (k : Nat) (bs : List Byte) : (s.writeMem k bs).queues = s.queues := rfl
@[simp] theorem writeMem_claims (s : State) (k : Nat) (bs : List Byte) : (s.writeMem k bs).claims = s.claims := rfl
@[simp] theorem writeMem_qarms (s : State) (k : Nat) (bs : List Byte) : (s.writeMem k bs).qarms = s.qarms := rfl
@[simp] theorem writeMem_firingUnits (s : State) (k : Nat) (bs : List Byte) : (s.writeMem k bs).firingUnits = s.firingUnits := rfl
@[simp] theorem writeMem_commands (s : State) (k : Nat) (bs : List Byte) : (s.writeMem k bs).commands = s.commands := rfl
@[simp] theorem writeMem_events (s : State) (k : Nat) (bs : List Byte) : (s.writeMem k bs).events = s.events := rfl
@[simp] theorem writeMem_meas (s : State) (k : Nat) (bs : List Byte) : (s.writeMem k bs).meas = s.meas := rfl
@[simp] theorem writeMem_debugLvl (s : State) (k : Nat) (bs : List Byte) : (s.writeMem k bs).debugLvl = s.debugLvl := rfl
@[simp] theorem writeMem_floors (s : State) (k : Nat) (bs : List Byte) : (s.writeMem k bs).floors = s.floors := rfl
@[simp] theorem writeMem_routes (s : State) (k : Nat) (bs : List Byte) : (s.writeMem k bs).routes = s.routes := rfl
@[simp] theorem writeMem_cxlPorts (s : State) (k : Nat) (bs : List Byte) : (s.writeMem k bs).cxlPorts = s.cxlPorts := rfl
@[simp] theorem writeMem_rewrites (s : State) (k : Nat) (bs : List Byte) : (s.writeMem k bs).rewrites = s.rewrites := rfl
@[simp] theorem writeMem_msixPending (s : State) (k : Nat) (bs : List Byte) : (s.writeMem k bs).msixPending = s.msixPending := rfl
@[simp] theorem writeMem_bootStage (s : State) (k : Nat) (bs : List Byte) : (s.writeMem k bs).bootStage = s.bootStage := rfl
@[simp] theorem writeMem_bootFail (s : State) (k : Nat) (bs : List Byte) : (s.writeMem k bs).bootFail = s.bootFail := rfl
@[simp] theorem writeMem_capSize (s : State) (k : Nat) (bs : List Byte) : (s.writeMem k bs).capSize = s.capSize := rfl

end Sys2Proof.Laws
end

