-- ==== Sys2Proof/Tests/Slice0.lean ====
section
/-! SUPPORT. Tests: a small state, a witness for the hypotheses of every statement, the spec's worked examples, words
of the table decoded, and ill-formed terms refused. -/

namespace Sys2Proof.Tests

open Sys2Proof Sys2Proof.Machine Sys2Proof.Claims

set_option maxRecDepth 8000
set_option Elab.async false

/-! ## A small state -/

/-- A guard that every lane and group meets. -/
def always : Guard := ⟨false, 0⟩

/-- Sources of the tests. -/
def r (n : Fin 64) : Operand := ⟨false, .reg n⟩
def rE (n : Fin 64) : Operand := ⟨true, .reg n⟩
def im (k : Fin 4) : Operand := ⟨false, .imm k⟩
def fl (n : Fin 8) : Operand := ⟨false, .flag n⟩
def zero : Operand := ⟨false, .zero⟩

/-- A group with scalars and conditions. -/
def grp (n : Nat) (scalars : List (Nat × Word64)) (c : BitVec 8) : Group :=
  { Group.atDispatch n 0 with s := scalars, c := c }

/-- A gang of two groups of 16 lanes and a third that is not active, on core 5. -/
def gang : Gang :=
  { Gang.atDispatch 1 1 5 0 16 40 0 0
      [(0, grp 0 [(1, 7), (2, 0xFFFFFFFFFFFFFFFB)] 2), (1, grp 1 [(1, 0x8000000000000000), (2, 64)] 6), (2, grp 2 [] 0)] with
    team := 2, active := 3, v := [(64, 5), (65, 0xFFFFFFFF), (80, 0x3F800000), (128, 0x7FC00000), (130, 33)], p := [(1, 0x10003)]
    banks := [0, 1] }

/-- A gang of one group of 64 lanes. -/
def solo : Gang :=
  { Gang.atDispatch 1 1 5 0 64 40 0 0 [(0, grp 0 [(1, 0x10000), (2, 8), (3, 0x1122334455667788)] 0)] with
    team := 2, v := [(64, 3), (65, 4)], banks := [0, 1] }

/-- The bundle that issues: at position 40, with two immediates. -/
def cur : Cur :=
  { gid := 1, slot := .s, pos := 40, next := 44, imms := [5, 0xFFFFFFFFFFFFFFF0], mode := .whole, verdict := .go, snap := none,
    bundle := 3, ops := [], ready := [4], claims := [] }

/-- The launch, context and team of the gang. -/
def launch : Launch := { placedLaunch with stream := 0x20000, groups := 3, width := 16, formats := [1, 4, 5, 7, 8, 2, 3, 6] }

def context : Context := { placedContext with root := 0x8000, trapArea := 0x100000, saveArea := 0x200000 }

def team : Team :=
  { Team.make 1 0 0 0 0 0 false false with
    phase := .placed, cores := [5], gangs := [1], freeA := 8, freeB := 8, padCore := 5
    bars := (List.range 8).map fun b => (b, Barrier.atDispatch 3) }

/-- A page of the core's TLB that may be read and written. -/
def page : TlbEntry :=
  { context := 1, base := 0x10000, size := 0x10000, kind := kindDevice, frame := 0x40000, sys := false, exec := false, write := true }

/-- The partition: 64 KiB and more of memory, sixteen queues. -/
def part : Partition := { pairs := [2], queueBase := 0, queueCount := 16, ranges := [(0, 0x100000)], saveLimit := 200000 }

def core5 : Core := { Core.reset with seats := [(0, 1)], quotas := [(1, 8)], bankOwner := [(0, 1), (1, 1)], tlb := [page] }

/-- The package at cycle 401 with one gang. -/
def world (g : Gang) : State :=
  { State.reset with
    time := 401, phase := 6, nextId := 10, bootStage := 7, gangs := [(1, g)], cores := [(5, core5)], teams := [(2, team)]
    launches := [(1, launch)], contexts := [(1, context)], partitions := [(0, part)] }

/-- The gang's bundle is issuing. -/
def on (g : Gang) : State := { world g with cur := some cur }

theorem on_issues (g : Gang) : (on g).Issues cur g := ⟨rfl, by decide, rfl, rfl⟩

/-- A property of the groups that stand at some positions, decided position by position. -/
theorem groups_all {g : Gang} {ks : List Nat} {P : Nat → Group → Prop} [∀ k x, Decidable (P k x)]
    (h : (ks.all fun k => (g.group k).all fun x => decide (P k x)) = true) : ∀ k ∈ ks, ∀ x, g.group k = some x → P k x := by
  intro k hk x hx
  have := List.all_eq_true.mp h k hk
  rw [hx] at this
  simpa using this

/-! ## Witnesses: the S slot -/

/-- A guard that the first group meets and the second does not. -/
def first : Guard := ⟨false, 3⟩

/-- The gang with conditions c3 true in group 0 alone. -/
def mixed : Gang := { gang with groups := [(0, grp 0 [(1, 7), (2, 1)] 0x0A), (1, grp 1 [(1, 5), (2, 1)] 2), (2, grp 2 [] 0)] }

theorem witness_ScalarIntegerResults : (on gang).Issues cur gang ∧ gang.ReadyS always [.sca (r 1), .sca (rE 2)] ∧
    gang.effConds always = [0, 1] := by
  unfold Gang.ReadyS Gang.Full; exact ⟨on_issues _, by decide +kernel⟩

theorem witness_ScalarMoves : (on gang).Issues cur gang ∧ gang.ReadyS always [.sca (r 1), .sca (im 1), .cnd (fl 2)] ∧
    gang.ReadyS always [.sca (r 1)] ∧ gang.ReadyS always [] := by
  unfold Gang.ReadyS Gang.Full; exact ⟨on_issues _, by decide +kernel⟩

theorem witness_ScalarConditions : (on gang).Issues cur gang ∧ gang.ReadyS always [.sca (r 1), .sca (r 2)] ∧
    gang.ReadyS always [.cnd (fl 1), .cnd (fl 0)] ∧ gang.ReadyS always [] := by
  unfold Gang.ReadyS Gang.Full; exact ⟨on_issues _, by decide +kernel⟩

/-- Three divisions that wait for the divider. -/
def divs : List DivJob := [⟨1, 3, 900, 800⟩, ⟨1, 4, 900, 801⟩, ⟨1, 5, 900, 802⟩]
def dividing : State := { on gang with cores := [(5, { core5 with divider := divs })] }

theorem witness_Division : dividing.Issues cur gang ∧ gang.ReadyS always [.sca (r 1), .sca (r 2)] ∧
    (dividing.core gang.core).divWaiting dividing.time = 3 ∧ dividing.gang cur.gid = some gang ∧
    gang.effConds always ≠ [] ∧ un dividing cur gang (r 2) 0 ≠ 0 ∧ un dividing cur gang zero 0 = 0 := by
  unfold Gang.ReadyS Gang.Full; exact ⟨⟨rfl, by decide, rfl, rfl⟩, by decide +kernel⟩

theorem witness_SpecialRegisters : (on gang).Issues cur gang ∧ gang.ReadyS always [] ∧ gang.ReadyS always [.sca (r 1)] ∧
    gang.effConds always ≠ [] := by
  unfold Gang.ReadyS Gang.Full; exact ⟨on_issues _, by decide +kernel⟩

/-- A gang with seven return positions, which is one fewer than the stack takes. -/
def seven : Gang := { gang with returns := [44, 8, 8, 8, 8, 8, 8], groups := [(0, grp 0 [(1, 64), (2, 1)] 0x0A), (1, grp 1 [(1, 64), (2, 1)] 2)] }

theorem witness_Branches : (on seven).Issues cur seven ∧ seven.ReadyAll always [] ∧ seven.returns.length = 7 ∧
    seven.returns.head? = some 44 ∧ seven.ReadyAll always [.cnd (fl 1)] ∧ (∀ k ∈ seven.activeGroups, condSrc seven (fl 1) k ≠ false) ∧
    (∀ k ∈ seven.activeGroups, condSrc seven (fl 1) k = true) ∧ seven.activeGroups ≠ [] ∧ seven.ReadyAll always [.sca (r 1)] ∧
    (∀ k ∈ seven.activeGroups, un (on seven) cur seven (r 1) k ≠ 1) ∧ (∀ k ∈ seven.activeGroups, un (on seven) cur seven (r 2) k = 1) ∧
    (∀ k ∈ seven.activeGroups, un (on seven) cur seven (r 1) k = 64) ∧ (on seven).streamBase seven + 64 < 2 ^ 48 := by
  unfold Gang.ReadyAll Gang.Full; exact ⟨on_issues _, by decide +kernel⟩

/-- A gang with two entries on its reconvergence stack, the first at its position. -/
def joining : Gang := { mixed with reconv := [⟨2, 80, 40, false⟩, ⟨3, 84, 84, true⟩] }

theorem witness_DivergenceAndJoin : (on joining).Issues cur joining ∧ guardPending joining always = false ∧
    joining.Full (joining.effConds always) [.cnd (fl 3)] ∧
    ((joining.effConds always).filter fun k => condSrc joining (fl 5) k) = [] ∧
    ((joining.effConds always).filter fun k => condSrc joining (fl 1) k) = joining.activeGroups ∧
    ((joining.effConds always).filter fun k => condSrc joining (fl 3) k) = [0] ∧ joining.reconv.length = 2 ∧
    joining.ReadyAll always [] ∧ (joining.reconv.head?.map fun e => (e.tag, e.mask)) = some (cur.pos, 2) ∧
    (∀ e ∈ mixed.reconv.head?, e.tag ≠ cur.pos) := by
  unfold Gang.ReadyAll Gang.Full; exact ⟨on_issues _, by decide +kernel⟩

/-- A gang whose first group's open batch holds a copy, with room for one more sealed batch. -/
def sealing : Gang :=
  { mixed with prologue := true, reconv := [⟨2, 80, 40, false⟩]
               groups := mixed.groups.map fun p => (p.1, { p.2 with openBatch := [30], sealed := List.replicate 15 ⟨1, [], none, false, 0⟩ }) }

theorem witness_ExitAndFreeze : (on sealing).Issues cur sealing ∧ (on sealing).gang cur.gid = some sealing ∧
    guardPending sealing always = false ∧ noGuard sealing (sealing.effConds always) ∧ sealRoom cur.ops sealing (sealing.effConds always) ∧
    sealing.effConds ⟨false, 7⟩ = [] ∧ sealing.effConds first = [0] ∧
    sealing.active &&& ~~~BitVec.ofNat 4 (groupMask (sealing.effConds first)) ≠ 0 ∧
    sealing.active &&& ~~~BitVec.ofNat 4 (groupMask (sealing.effConds always)) = 0 ∧
    ({ sealing with active := 1 } : Gang).active &&& ~~~BitVec.ofNat 4 (groupMask (sealing.effConds first)) = 0 ∧
    (sealing.reconv.find? fun e => e.mask &&& ~~~BitVec.ofNat 4 (groupMask (sealing.effConds first)) != 0) = some ⟨2, 80, 40, false⟩ ∧
    sealing.ReadyAll always [] ∧ sealing.prologue = true ∧ sealing.handler = false := by
  unfold noGuard sealRoom Gang.ReadyAll Gang.Full
  exact ⟨on_issues _, rfl, by decide +kernel, groups_all (by decide +kernel), groups_all (by decide +kernel), by decide +kernel⟩

theorem witness_YieldAndSleep : (on gang).Issues cur gang ∧ gang.ReadyAll always [] ∧ gang.handler = false ∧
    ({ gang with handler := true } : Gang).handler = true ∧ gang.ReadyAll always [.sca (r 1)] ∧ gang.activeGroups ≠ [] ∧
    2 ^ 32 ≤ un (on gang) cur gang (r 1) 1 := by
  unfold Gang.ReadyAll Gang.Full; exact ⟨on_issues _, by decide +kernel⟩

/-! ## Witnesses: traps -/

def touched : Gang :=
  { mixed with groups := mixed.groups.map fun p => (p.1, { p.2 with guardPend := true, touch := some ⟨3, 36, 1⟩ }) }

theorem witness_TrapRecordLayout : ({ code := 0x0B, log := List.replicate 32 7 } : Trap).log.length ≤ 32 := by decide

theorem witness_TrapTaken : (on gang).gang 1 = some gang ∧ (on gang).context gang.context = some context ∧ gang.group 1 ≠ none := by
  decide +kernel

/-- Every case of ScalarTraps: a mixed guard, a full and an empty return stack, FREEZE outside a prologue, a condition
that differs, a full reconvergence stack, and an empty register. -/
def trapping : Gang :=
  { mixed with reconv := [⟨1, 0, 0, false⟩, ⟨1, 0, 0, false⟩, ⟨1, 0, 0, false⟩], returns := List.replicate 8 8
               groups := mixed.groups.map fun p => (p.1, { p.2 with sAwait := [(9, 3)] }) }

/-- Active groups of which one leaves a loop; they would branch to different places. -/
def leaving : Gang := { gang with groups := [(0, grp 0 [(1, 1)] 0), (1, grp 1 [(1, 5)] 0), (2, grp 2 [] 0)] }

theorem witness_ScalarTraps : (on trapping).Issues cur trapping ∧ cur.mode = .whole ∧ guardPending trapping first = false ∧
    trapping.effConds first ≠ [] ∧ trapping.effConds ⟨false, 7⟩ = [] ∧ (∃ k ∈ trapping.activeGroups, k ∈ trapping.effConds first) ∧
    (∃ k ∈ trapping.activeGroups, k ∉ trapping.effConds first) ∧ trapping.ReadyAll always [] ∧ trapping.returns.length = 8 ∧
    mixed.returns = [] ∧ trapping.prologue = false ∧ trapping.teamPrologue = false ∧ trapping.ReadyAll always [.cnd (fl 3)] ∧
    (∃ k ∈ trapping.activeGroups, condSrc trapping (fl 3) k = true) ∧ (∃ k ∈ trapping.activeGroups, condSrc trapping (fl 3) k = false) ∧
    trapping.reconv.length = 3 ∧ (rE 9).code = .reg 9 ∧ (r 9).code = .reg 9 ∧
    (∀ a ∈ [rE 9, r 9], emptyFor trapping (trapping.effConds first) a ≠ [] ∧ emptyFor trapping trapping.activeGroups a ≠ []) ∧
    trapping.Full (trapping.effConds first) [.sca (r 2)] := by
  unfold Gang.ReadyAll Gang.Full; exact ⟨on_issues _, by decide +kernel⟩

theorem witness_ScalarTrapsDiverge : (on leaving).Issues cur leaving ∧ guardPending leaving always = false ∧
    leaving.ReadyAll always [.sca (r 1)] ∧ 0 ∈ leaving.activeGroups ∧ 1 ∈ leaving.activeGroups ∧
    un (on leaving) cur leaving (r 1) 0 = 1 ∧ un (on leaving) cur leaving (r 1) 1 ≠ 1 := by
  unfold Gang.ReadyAll Gang.Full; exact ⟨on_issues _, by decide +kernel⟩

theorem witness_StopAndGuard : (on gang).Issues cur gang ∧ cur.mode = .whole ∧ (on gang).gang cur.gid = some gang ∧
    (∀ k < 4, gang.active.getLsbD k = true → k ∈ gang.liveGroups) ∧ gang.reconv = [] ∧
    (∀ k ∈ gang.liveGroups, (gang.group k).any (fun x => !x.guardPend && x.openBatch.isEmpty) = true) ∧
    guardPending touched always = false ∧
    ((touched.effConds always).filter fun k => (touched.group k).elim false Group.guardPend) = [0, 1] ∧
    (touched.group 0).bind Group.touch = some ⟨3, 36, 1⟩ ∧
    (touched.liveGroups.filter fun k => (touched.group k).elim false Group.guardPend) = [0, 1] := by
  exact ⟨on_issues _, by decide +kernel⟩

/-! ## Witnesses: the V slots and results -/

theorem witness_VectorIntegerResults : (on gang).Issues cur gang ∧ (on gang).CanOwn cur.gid [4] ∧
    gang.ReadyV always [.vec (r 1), .vec (r 2)] ∧ gang.ReadyV always [.vec (r 1), .vec (r 2), .vec zero] ∧
    gang.ReadyV always [.vec (im 1)] ∧ (gang.effLanes always).length = 32 := by
  unfold Gang.ReadyV Gang.Full
  exact ⟨on_issues _, fun g h => by cases h; decide +kernel, by decide +kernel⟩

theorem witness_VectorPredicates : (on gang).Issues cur gang ∧ gang.ReadyV always [.vec (r 1), .vec (r 2)] ∧
    gang.ReadyV always [.pair (r 2), .pair (r 4)] := by
  unfold Gang.ReadyV Gang.Full; exact ⟨on_issues _, by decide +kernel⟩

theorem witness_FloatOperations : (on gang).Issues cur gang ∧ (on gang).CanOwn cur.gid [4] ∧
    gang.ReadyV always [.vec (r 1), .vec (r 2), .vec (r 3)] ∧ gang.ReadyV always [.vec (r 1), .vec (r 2)] ∧
    gang.ReadyV always [.vec (r 1)] := by
  unfold Gang.ReadyV Gang.Full
  exact ⟨on_issues _, fun g h => by cases h; decide +kernel, by decide +kernel⟩

theorem witness_DoubleAndPackedOperations : (on gang).Issues cur gang ∧ (on gang).CanOwn cur.gid [4, 5] ∧
    (on gang).CanOwn cur.gid [4] ∧ gang.ReadyV always [.pair (r 2), .pair (r 4), .pair (r 6)] ∧
    gang.ReadyV always [.pair (r 2), .pair (r 4)] ∧ gang.ReadyV always [.pair (r 2)] ∧
    gang.ReadyV always [.vec (r 1), .vec (r 2)] ∧ gang.ReadyV always [.vec (r 1), .vec (r 2), .vec (r 3)] := by
  unfold Gang.ReadyV Gang.Full
  exact ⟨on_issues _, fun g h => by cases h; decide +kernel, fun g h => by cases h; decide +kernel, by decide +kernel⟩

theorem witness_Conversions : (on gang).Issues cur gang ∧ (on gang).CanOwn cur.gid [4, 5] ∧ (on gang).CanOwn cur.gid [4] ∧
    gang.ReadyV always [.vec (r 1)] ∧ gang.ReadyV always [.pair (r 2)] ∧ gang.ReadyV always [.vec (r 1), .vreg 5 false] ∧
    gang.effLanes always ≠ [] ∧ slotFormat ((on gang).formatSlot gang 0) = some .fp32 ∧
    slotFormat ((on gang).formatSlot gang 5) = some .fp16 ∧ slotFormat ((on gang).formatSlot gang 4) = some .fp64 ∧
    cur.mode = .whole := by
  unfold Gang.ReadyV Gang.Full
  exact ⟨on_issues _, fun g h => by cases h; decide +kernel, fun g h => by cases h; decide +kernel, by decide +kernel⟩

theorem witness_CrossLaneOperations : (on gang).Issues cur gang ∧ (on gang).CanOwn cur.gid [4] ∧
    gang.ReadyV always [.vec (r 1), .vec (r 2), .vec (r 3)] ∧ gang.ReadyV always [.vec (r 1), .vec (r 2)] ∧
    gang.ReadyV always [.vec (r 1)] ∧ gang.effLanes always ≠ [] ∧ gang.width = 16 ∧ solo.width = 64 ∧
    Tbl.wf gang.groups = true := by
  unfold Gang.ReadyV Gang.Full
  exact ⟨on_issues _, fun g h => by cases h; decide +kernel, by decide +kernel⟩

/-- An index job of one bank, whose lane 1 names register 9. -/
def job : IndexJob :=
  { gid := 1, seq := 24, dest := some 4, names := [(1, 9), (2, 3)], effective := 6, banks := [1], vals := [], started := true, skip := [], old := []
    collide := 0, issued := 99, first := none, blocked := false }

/-- Jobs that wait at the port; and a port with none, free in this beat. -/
def indexing (n : Nat) : State :=
  { on gang with cores := [(5, { core5 with index := List.replicate n { job with started := false }, indexAt := 100 })] }

theorem witness_IndexedRegisterJobs :
    (∀ n ∈ [0, 3], (indexing n).Issues cur gang ∧ (indexing n).gang cur.gid = some gang ∧ (indexing n).CanOwn cur.gid [4] ∧
      (indexing n).CanOwn cur.gid (List.range 64)) ∧
    (gang.ReadyV always [.vec (r 1)] ∧ gang.ReadyV always [.vec (r 1), .vec (r 2)] ∧ gang.effLanes always ≠ []) ∧
    ((indexing 3).core gang.core).index.countP (fun j => !j.started) + indexBefore cur gang = 3 ∧
    ((indexing 0).core gang.core).index = [] ∧ ((indexing 0).core gang.core).indexAt ≤ (indexing 0).time / 4 ∧
    (∀ p ∈ gang.activeLanes, gang.vEmpty (vun (indexing 0) cur gang (r 1) p % 64) = false) ∧ gang.vFilled = [] := by
  unfold Gang.ReadyV Gang.Full
  refine ⟨fun n hn => ?_, by decide +kernel⟩
  simp only [List.mem_cons, List.not_mem_nil, or_false] at hn
  rcases hn with rfl | rfl <;>
    exact ⟨⟨rfl, by decide, rfl, rfl⟩, rfl, fun g h => by cases h; decide +kernel, fun g h => by cases h; decide +kernel⟩

theorem witness_FiniteArithmetic : fp32 ∈ [fp64, fp32, fp16, bf16] ∧ fp32.value 0x3F800000 = .fin false (2 ^ 23) (-23) ∧
    fp32.value 0xBF800001 = .fin true (2 ^ 23 + 1) (-23) ∧ fp32.value 1 = .fin false 1 (-149) ∧
    (2 : Int) ^ 23 - (2 ^ 23 + 1) ≠ 0 ∧ (2 : Int) ^ 23 - 2 ^ 23 = 0 := by decide +kernel

theorem witness_OneRounding : (-149 : Int) < -148 ∧ 7 % 2 ^ ((-148 : Int) - -149).toNat ≠ 0 ∧
    2 * (7 % 2 ^ ((-148 : Int) - -149).toNat) = 2 ^ ((-148 : Int) - -149).toNat := by decide

theorem witness_NaNOperands : (fp32.value 0x7F800001).isNaN = true ∧ (fp32.value 0x3F800000).isNaN = false ∧
    0x3F800000 < 2 ^ (fp32.sign + 1) := by decide +kernel

/-- A result in flight whose beat has come. -/
def flight (d : RDest) (seq : Nat) : Flight :=
  { seq := seq, unit := .v0, land := 100, dest := d, vals := [(0, 7), (1, 8)], flags := [], latch := false, collide := 0
    indexed := false }
def landing (l : List Flight) : Gang := { gang with flights := l ++ [{ flight (.v 9) 99 with land := 101 }] }

theorem witness_ResultsLand : (∀ d ∈ ([.v 4, .pair 4, .p 2, .s 3, .c 3, .special 2] : List RDest),
    (world (landing [flight d 8])).gang 1 = some (landing [flight d 8]) ∧ (landing [flight d 8]).core = 5 ∧
    (world (landing [flight d 8])).tileWrites 5 = [] ∧
    ((landing [flight d 8]).flights.filter fun x => decide (x.land ≤ (world gang).beat)) = [flight d 8] ∧
    ((flight d 8).vals.map Prod.fst).Nodup) ∧ (landing []).vAwait.find 4 = none ∧ (landing []).vAwait.find 5 = none ∧
    (∀ k < 3, ((landing []).group k).all (fun x => (x.sAwait.find 3).isNone && (x.cAwait.find 3).isNone) = true) := by
  decide +kernel

theorem witness_CollidingResults :
    let g := landing [flight (.v 4) 8, flight (.v 4) 16]
    (world g).gang 1 = some g ∧ g.core = 5 ∧ (world g).tileWrites 5 = [] ∧
    (g.flights.filter fun x => decide (x.land ≤ (world g).beat)) = [flight (.v 4) 8, flight (.v 4) 16] ∧
    g.vAwait.find 4 = none := by decide +kernel

/-- A long write whose values have all arrived. -/
def long (d : LDest) (due : Nat) : Long := { seq := 24, dest := d, vals := [(0, 7)], want := 0, due := due, groups := 3, acquire := false }

/-- A gang with long writes, and the registers they fill; v7 awaits a later one. -/
def awaiting : Gang :=
  { gang with longs := [(9, long (.v 4) 401), (10, long (.s 3) 400), (11, long (.c 3) 400), (12, long (.v 7) 400),
                        (13, { long (.v 6) 402 with want := 1 }), (14, { long (.pair 10) 400 with logged := true })]
              vAwait := [(4, 24), (7, 32), (10, 24), (11, 24)]
              groups := gang.groups.map fun p => (p.1, { p.2 with sAwait := [(3, 24)], cAwait := [(3, 24)] }) }
def divided : State := { world awaiting with cores := [(5, { core5 with divider := [⟨1, 10, 401, 353⟩] })] }

theorem witness_LongWritesFill : divided.gang 1 = some awaiting ∧ awaiting.longs.find 9 = some (long (.v 4) 401) ∧
    divided.time = 401 ∧ awaiting.vAwait.find 4 = some 24 ∧ awaiting.longs.find 12 = some (long (.v 7) 400) ∧
    awaiting.vAwait.find 7 ≠ some 24 ∧ awaiting.longs.find 10 = some (long (.s 3) 400) ∧
    awaiting.longs.find 11 = some (long (.c 3) 400) ∧ (awaiting.longs.find 13).map Long.due = some 402 ∧
    awaiting.longs.find 14 = some { long (.pair 10) 400 with logged := true } ∧ awaiting.vAwait.find 10 = some 24 ∧
    awaiting.vAwait.find 11 = some 24 ∧ (awaiting.liveGroups.contains 0 = true ∧ awaiting.liveGroups.contains 3 = false) ∧
    ((divided.core 5).divider.filter fun x => decide (x.due ≤ divided.time)) = [⟨1, 10, 401, 353⟩] := by decide +kernel

def reading (g : Gang) (j : IndexJob) : State := { world g with cores := [(5, { core5 with index := [j], indexAt := 100 })] }

/-- The register that the job's bank reads is empty. -/
def unread : Gang := { gang with vAwait := [(9, 3)] }

/-- A job that starts in the beat of its issue, with its first bank's registers as its bundle found them. -/
def fresh : IndexJob := { job with started := false, issued := 100, first := some [(1, 7)] }

theorem witness_IndexedReadFinishes :
    (∀ q ∈ [(gang, job), (unread, job), (unread, fresh)], (reading q.1 q.2).gang q.2.gid = some q.1 ∧ q.1.core = 5 ∧
      ((reading q.1 q.2).gangs.all fun p => p.2.flights.isEmpty) = true ∧ ((reading q.1 q.2).core 5).index = [q.2] ∧
      ((reading q.1 q.2).core 5).indexAt = (reading q.1 q.2).beat ∧ q.2.dest = some 4 ∧ q.2.banks = [1]) ∧
    (job.started = true ∧ fresh.started = false ∧ fresh.issued = (reading unread fresh).beat ∧ fresh.first = some [(1, 7)]) ∧
    (∀ p ∈ job.names, p.2 % 8 = 1 → p.2 ≠ 4 ∧ gang.vEmpty p.2 = false) ∧
    ∃ p ∈ job.names.filter (fun p => p.2 % 8 == 1 && job.effective.getLsbD p.1), p.2 ≠ 4 ∧ unread.vEmpty p.2 = true := by
  decide +kernel

/-! ## Witnesses: memory -/

/-- A line of the core's L1 that holds the page's first bytes under a lease. -/
def line0 : Line :=
  { bytes := [(8, 0x80), (9, 0xFF), (15, 0x81)], valid := BitVec.allOnes 128, dirty := 0x100, expiry := some 500, since := 300 }

/-- A gang of one group whose s1 is the page's base, and its state with the line in the L1. -/
def cached : State := { on solo with cores := [(5, { core5 with l1 := [(0x40000 / 128, line0)] })] }

/-- Seven log entries: one place is left. -/
def entry (n : Nat) : LogEntry :=
  { seq := 8, num := n, pos := 36, slot := .c0, opcode := 1, width := 8, access := .load true, elems := [⟨0, 0x10000, 0, 0, false, false⟩]
    byGroup := true, long := none, mark := none, pubs := [] }
def logging (n : Nat) : Gang := { solo with log := (List.range n).map entry }

theorem witness_LoadsAndStores :
    (on (logging 7)).Issues cur (logging 7) ∧ (logging 7).effGroups always = [0] ∧
    CanLog (on (logging 7)) cur (logging 7) [0] [.sca (r 1), .sca (r 2)] ⟨1, 8, .load true, true⟩ (some (.s 3)) [element 0 0x10008 0 0] ∧
    CanLog (on (logging 7)) cur (logging 7) [0] [.sca (r 1), .sca (r 2), .sca (r 3)] ⟨3, 8, .store, true⟩ none [element 0 0x10008 0 0] ∧
    CanLog (on (logging 7)) cur (logging 7) [0] [.sca (r 1), .vec (r 1)] ⟨4, 8, .load true, false⟩ (some (.pair 4)) [element 0 0x10008 0 0] ∧
    CanLog (on (logging 7)) cur (logging 7) [0] [.sca (r 1), .vec (r 1), .pair (r 2)] ⟨6, 8, .store, false⟩ none [element 0 0x10008 0 0] := by
  unfold CanLog Gang.Full State.CanOwn
  refine ⟨on_issues _, by decide +kernel, ?_, ?_, ?_, ?_⟩ <;>
    refine ⟨?_, ?_, ?_, ?_, fun d h g hg => ?_⟩ <;> first | decide +kernel | (cases h <;> cases hg <;> decide +kernel)

theorem witness_Atomics : (on (logging 7)).Issues cur (logging 7) ∧ (logging 7).effLanes always ≠ [] ∧
    CanLog (on (logging 7)) cur (logging 7) [0] [.sca (r 1), .vec (r 1), .vec (r 2)] ⟨0x10, 4, .atomic 0x10 .system, false⟩ (some (.v 4))
      [element 0 0x1000C 3 0] ∧
    CanLog (on (logging 7)) cur (logging 7) [0] [.sca (r 1), .vec (r 1), .vec (r 2), .vreg 4 false] ⟨0x19, 4, .atomic 0x19 .team, false⟩
      (some (.v 4)) [element 0 0x1000C 3 4] := by
  unfold CanLog Gang.Full State.CanOwn
  refine ⟨on_issues _, by decide +kernel, ?_, ?_⟩ <;>
    refine ⟨?_, ?_, ?_, ?_, fun d h g hg => ?_⟩ <;> first | decide +kernel | (cases h <;> cases hg <;> decide +kernel)

/-- A state with a sealed template segment over the page. -/
def sealedState : State := { on solo with launches := [(1, { launch with segBase := 0x10000, segSize := 0x100, segSealed := true })] }

theorem witness_AccessTraps : (on solo).Issues cur solo ∧ cur.mode = .whole ∧
    solo.Full [0] [.sca (r 1), .sca (r 2), .sca (r 3)] ∧ solo.effGroups always = [0] ∧ solo.log.length + logBefore cur solo = 0 ∧
    addrG (on solo) cur solo (r 1) (r 3) 0 % 8 = 0 ∧ addrG (on solo) cur solo (r 1) (im 0) 0 % 8 ≠ 0 ∧
    (sealedState.Issues cur solo ∧ sealedState.inSealed solo.context 0x10008 8 = true) ∧
    ((on (logging 8)).Issues cur (logging 8) ∧ (logging 8).log.length + logBefore cur (logging 8) = 8) ∧
    solo.effLanes always ≠ [] ∧ solo.groupsOf (solo.effLanes always) = [0] ∧
    solo.Full [0] [.sca (r 1), .vec (r 1), .pair (r 2), .vec (r 2), .vreg 4 false] ∧
    (∃ p ∈ solo.effLanes always, addrL (on solo) cur solo (im 0) (r 1) 4 p % 2 ^ 64 % 4 ≠ 0 ∧ addrB (on solo) cur solo (im 0) p % 2 ^ 64 % 4 ≠ 0) ∧
    (∃ p ∈ solo.effLanes always, sealedState.inSealed solo.context (addrL sealedState cur solo (r 1) (r 1) 4 p % 2 ^ 64) 4 = true ∧
      sealedState.inSealed solo.context (addrB sealedState cur solo (r 1) p % 2 ^ 64) 4 = true) ∧
    ∀ p ∈ solo.effLanes always, addrL sealedState cur solo (r 1) (r 1) 4 p % 2 ^ 64 % 4 = 0 := by
  unfold Gang.Full
  refine ⟨on_issues _, ?_, ?_, ?_, ?_, ?_, ?_, ⟨⟨rfl, ?_, rfl, rfl⟩, ?_⟩, ⟨on_issues _, ?_⟩, ?_, ?_, ?_, ?_, ?_, ?_⟩ <;> decide +kernel

theorem witness_LoadHits : cached.Issues cur solo ∧ cached.gang cur.gid = some solo ∧ solo.park ≠ .stopped ∧ solo.park ≠ .killed ∧
    solo.log = [] ∧ solo.orderPubs = [] ∧ logBefore cur solo = 0 ∧ solo.effGroups always = [0] ∧ solo.Full [0] [.sca (r 1), .sca (r 2)] ∧ solo.orderMark = none ∧
    addrG cached cur solo (r 1) (r 2) 0 % 2 ^ 64 = 0x10008 ∧ HasPage cached solo 0x10008 .read page ∧ page.sys = false ∧
    page.key 0x10008 = 0x40008 ∧ (cached.core solo.core).l1.find (0x40008 / 128) = some line0 ∧ line0.hits cached.time 8 8 = true ∧
    (cached.core solo.core).writeWaits (0x40008 / 128) 8 8 = false := by
  unfold Gang.Full HasPage; exact ⟨⟨rfl, by decide, rfl, rfl⟩, by decide +kernel⟩

theorem witness_StoreHits : cached.Issues cur solo ∧ solo.park ≠ .killed ∧ solo.orderPubs = [] ∧ solo.Full [0] [.sca (r 1), .sca (r 2), .sca (r 3)] ∧
    cached.inSealed solo.context 0x10008 8 = false ∧ HasPage cached solo 0x10008 .write page ∧
    (cached.core solo.core).l1.find (page.key 0x10008 / 128) = some line0 := by
  unfold Gang.Full HasPage; exact ⟨⟨rfl, by decide, rfl, rfl⟩, by decide +kernel⟩

/-- What is on its way to the homes, and where it finds its bytes. -/
def writeBack (w : WbCause) : WriteBack := { core := 5, line := 0x40000 / 128, bytes := [(0, 9), (127, 255)], cause := w, due := 401 }
def homeAtomic : HomeAtomic := { core := 5, gid := 1, long := 13, op := 0x19, elems := [(3, 0x40010, 0xFFFFFFF0, 7)], due := 401 }
def homes : State :=
  { world awaiting with writebacks := [(4, writeBack (.gang 1)), (6, writeBack .core)], atomics := [(5, homeAtomic)]
                        mem := [(0x40003, 1), (0x40010, 0xF0), (0x40011, 0xFF)] }

theorem witness_WritebackReachesHome : homes.writebacks.find 4 = some (writeBack (.gang 1)) ∧
    homes.writebacks.find 6 = some (writeBack .core) ∧ Memory.wf homes.mem = true ∧
    ((writeBack .core).bytes.map Prod.fst).Nodup ∧ homes.gang 1 = some awaiting := by decide +kernel

theorem witness_AtomicAtHome : homes.atomics.find 5 = some homeAtomic ∧ 0xFFFFFFF0 < 2 ^ 32 ∧ Memory.wf homes.mem = true ∧
    homes.gang 1 = some awaiting ∧ (awaiting.longs.find 13).map Long.want = some 1 ∧
    ∀ op ∈ List.range' 0x10 11, ({ homeAtomic with op := op } : HomeAtomic).elems = [(3, 0x40010, 0xFFFFFFF0, 7)] := by
  decide +kernel

/-- A line on its way, with and without a load that waits for its last four bytes. -/
def fetchOf (ws : List Waiter) : LineFetch :=
  { line := 0x40000 / 128, due := 401, bypass := false, lease := 1000, sealedLine := false, waiters := ws }
def waiter : Waiter :=
  { gid := 1, long := 13, at_ := 3, offset := 124, width := 4, signed := false, atomic := none, store := none, have_ := [] }
def filling : State :=
  { world awaiting with cores := [(5, { core5 with l1 := [(0x40000 / 128, line0)], fetches := [(8, fetchOf []), (9, fetchOf [waiter])] })] }

theorem witness_LineFills : (filling.core 5).fetches.find 8 = some (fetchOf []) ∧
    (filling.core 5).fetches.find 9 = some (fetchOf [waiter]) ∧ (filling.core 5).l1.find (fetchOf []).line = some line0 ∧
    line0.bytes.wf = true ∧ waiter.offset + waiter.width = 128 ∧ filling.gang 1 = some awaiting ∧
    (awaiting.longs.find 13).map Long.want = some 1 := by decide +kernel

/-- Lines that have expired in this cycle, dirty and clean, and one that is dirty for the whole of its time. -/
def aging (l : Line) : State := { world gang with time := 2348, cores := [(5, { core5 with l1 := [(7, l)] })] }

theorem witness_LinesAge :
    ((aging { line0 with expiry := some 2348 }).core 5).l1.find 7 = some { line0 with expiry := some 2348 } ∧
    ({ line0 with dirty := 0 } : Line).dirty = 0 ∧ line0.dirty ≠ 0 ∧ Tbl.wf ((aging line0).core 5).l1 = true ∧
    line0.since + 2048 = (aging line0).time := by decide +kernel

/-! ## Witnesses: the pad, fences -/

def padded : Gang := { solo with v := [(64, 252), (128, 253), (192, 9)] }

/-- The effective lane is the first. -/
def lane0 : Guard := ⟨false, 1⟩
def oneLane : Gang := { padded with p := [(1, 1)] }
def guarded : State := { on oneLane with launches := [(1, { launch with guardMode := true })] }

theorem witness_PadAccesses : (on oneLane).Issues cur oneLane ∧ (on oneLane).padGuarded oneLane = false ∧
    oneLane.effLanes lane0 = [0] ∧ vun (on oneLane) cur oneLane (r 1) 0 + 4 = (on oneLane).padBytes oneLane ∧
    (on oneLane).gang cur.gid = some oneLane ∧ oneLane.ReadyV lane0 [.vec (r 1), .vec (r 3)] ∧ (on oneLane).CanOwn cur.gid [9] ∧
    (on oneLane).padBytes oneLane < vun (on oneLane) cur oneLane (r 2) 0 + 4 ∧ oneLane.ReadyV lane0 [.vec (r 2), .vec (r 3)] ∧
    (guarded.Issues cur oneLane ∧ guarded.padGuarded oneLane = true ∧ guarded.gang cur.gid = some oneLane ∧
      (∃ i < 4, padOffset true (guarded.padBytes oneLane) (vun guarded cur oneLane (r 2) 0 + i) = none) ∧
      ∀ i < 4, padOffset true (guarded.padBytes oneLane) (2 ^ 8 + 4 + i) = none) ∧
    ({ on gang with padWrites := [(3, ⟨1, 2, [(4, 7)]⟩)] } : State).padWrites.find 3 = some ⟨1, 2, [(4, 7)]⟩ := by
  unfold Gang.ReadyV Gang.Full State.CanOwn
  refine ⟨on_issues _, ?_, ?_, ?_, ?_, ?_, fun g h => ?_, ?_, ?_, ⟨⟨rfl, ?_, rfl, rfl⟩, ?_, ?_, ?_, ?_⟩, ?_⟩
  all_goals try cases h
  all_goals decide +kernel

/-- A release in its stages. -/
def syncing (stage : Nat) (rel drop : Bool) : Gang :=
  { gang with sync := some { releases := rel, drops := drop, logMark := 24, stage := stage, waitFor := [], pubs := [], dropAt := 0,
                             after := [] }, horizon := 397 }

theorem witness_FencesAndReleases : (on gang).Issues cur gang ∧ (on gang).gang cur.gid = some gang ∧
    gang.effGroups ⟨false, 7⟩ = [] ∧ gang.effGroups always ≠ [] ∧ ((on gang).team gang.team).map (fun t => t.cores.length) = some 1 ∧
    gang.sync = none ∧
    (∀ q ∈ ([(0, true, true), (1, true, true), (1, true, false), (0, false, true)] : List (Nat × Bool × Bool)),
      let g := syncing q.1 q.2.1 q.2.2
      (world g).gang 1 = some g ∧ g.sync.isSome = true ∧ (world g).syncBarOver g = false ∧
        ((world g).team g.team).map Team.phase = some .placed ∧ (world g).syncReady 1 = true ∧ g.sync.map SyncOp.after = some [] ∧
        g.sync.map SyncOp.pubs = some []) ∧
    (syncing 1 true true).horizon + 4 = (world gang).time :=
  ⟨on_issues _, by decide +kernel⟩

/-! ## Witnesses: tiles, the matrix unit, handles -/

/-- A handle of a record. -/
def han (st : HState) (id : Nat) : HEntry := { state := st, ref := .record id, gen := 7, released := [] }

/-- A gang with handles to a tile of A-space, one of B-space, an alias, a tile whose publication is awaited and a free
entry. -/
def tiled : Gang :=
  { gang with handles := [(0, han .live 20), (1, han .live 21), (2, han .aliasRO 20), (4, han .shadowPending 22), (6, han .live 23)]
              inbox := [(3, ⟨.record 20, .aliasRO⟩)] }
def record (b : Bool) (n : Nat) : TileRecord := { bspace := b, gen := 7, slots := [(5, n)], shadows := [], publishing := [] }
def publish : Publish := { id := 50, gid := 1, released := true, waits := [], pubs := [], since := 0, due := some 401 }
def records : Tbl TileRecord :=
  [(20, record false 3), (21, record true 4), (22, { record false 7 with shadows := [(5, 9)], publishing := [publish] }), (23, record false 5)]
def tileTeam : Team := { team with records := records, freeA := 1, freeB := 0 }

/-- A copy into a shadow. -/
def copy (k : CopyKind) (stage due : Nat) : Copy :=
  { core := 5, gid := 1, group := 0, context := 1, team := 2, seq := 20, pos := 36, slot := .c0, kind := k, src := 0x10000, dst := 0x10000
    bytes := 64, stride := 64, rows := 2, rowBytes := 32, srcRow := 0, srcOfs := 0, dstRow := 1, dstOfs := 224
    srcTile := some (false, 3, some 20), record := some 22, bspace := false, shadows := [(5, 9)], fresh := false, cow := false
    publish := true, bind := some 3, after := none, stage := stage, due := due, gct := 0
    data := if stage = 0 then [] else (List.range 64).map (BitVec.ofNat 8), landed := false, hsn := none, batchNo := 1
    pages := [page], checked := 1, opcode := 0x40 }

/-- An operation of the matrix unit. -/
def matrixOp (k : MatKind) : MatOp :=
  { gid := 1, team := 2, kind := k, phys := 0, other := 1, odd := false, src := some (false, 3, some 20), srcB := some (4, some 21)
    dst := some (false, 5, some 23), cowFrom := none, dur := 4, notBefore := 401, seq := 8 }
def tileCore : Core :=
  { core5 with slots := [(3, .record 2 20), (5, .record 2 23), (7, .record 2 22), (9, .record 2 22), (516, .record 2 21)] }
def tileWorld (g : Gang) (k : Core) : State :=
  { on g with
    gangs := [(1, g), (6, { Gang.atDispatch 1 1 5 1 16 40 0 0 [(0, grp 3 [] 0)] with team := 2 })], teams := [(2, tileTeam)]
    launches := [(1, { launch with groups := 4 })], cores := [(5, k)], copies := [(30, copy .tileTile 5 401)]
    messages := [(40, ⟨1, 2, ⟨.record 20, .aliasRO⟩⟩)], bridges := [(11, ⟨2, 20, 5, false, 3, some [(0, 5), (16383, 6)], (0, 0), 400⟩), (12, ⟨2, 21, 4, true, 511, none, (5, 511), 400⟩)]
    clears := [(14, ⟨2, 23, 5⟩)], tiles := [(tileKey 5 false 3 0, 7)] }

/-- The state with nothing to clear, so that no tile is busy. -/
def calm : State := { tileWorld tiled tileCore with clears := [], bridges := [], messages := [] }

theorem calm_issues : calm.Issues cur tiled := ⟨rfl, by decide, rfl, rfl⟩

theorem witness_TileViews : calm.Issues cur tiled ∧ tiled.effLanes always ≠ [] ∧ (tiled.handle 0).state = .live ∧
    calm.spaceOf tiled (tiled.handle 0) = false ∧ calm.tileOf tiled (tiled.handle 0) = some ⟨false, 3, some 20⟩ ∧
    calm.busyW 5 ⟨false, 3, some 20⟩ = 0 ∧ calm.busyR 5 ⟨false, 3, some 20⟩ = 0 ∧
    tiled.Full (tiled.groupsOf (tiled.effLanes always)) [.sca (r 1), .vec (r 2)] ∧ calm.CanOwn cur.gid [4] ∧
    calm.gang cur.gid = some tiled ∧ (calm.record 2 20).map TileRecord.slots = some [(5, 3)] ∧ cur.mode = .whole ∧
    (tiled.handle 3).state = .free ∧ calm.spaceOf tiled (tiled.handle 1) = true ∧ (tiled.handle 2).state = .aliasRO := by
  unfold Gang.Full State.CanOwn
  refine ⟨calm_issues, ?_, ?_, ?_, ?_, ?_, ?_, ?_, fun g h => ?_, ?_⟩
  all_goals try cases h
  all_goals decide +kernel

theorem witness_RegisterTransfers : (on gang).Issues cur gang ∧ gang.effGroups always ≠ [] ∧
    gang.Full (gang.effGroups always) [.sca (r 1)] ∧ (on gang).CanOwn cur.gid [4] ∧
    gang.Full (gang.effGroups always) [.vec (r 1), .sca (r 2)] := by
  unfold Gang.Full State.CanOwn
  exact ⟨on_issues _, by decide +kernel, by decide +kernel, fun g h => by cases h; decide +kernel, by decide +kernel⟩

/-- A gang with a tile store, and one with a tile load, in their beat. -/
def storing : Gang := { gang with flights := [{ flight (.tile [(0, 0x1000)]) 8 with vals := [(0, 5)] }] }
def loadingTile : Gang := { gang with flights := [flight (.tileLoad 4 [(0, 0x1000)]) 8] }

theorem witness_TileEvents : (world storing).tileWrites 5 = [(1, 0, 0x1000, 5)] ∧ (world loadingTile).gang 1 = some loadingTile ∧
    (world loadingTile).tileWrites 5 = [] ∧
    (loadingTile.flights.filter fun x => decide (x.land ≤ (world loadingTile).beat)) = [flight (.tileLoad 4 [(0, 0x1000)]) 8] ∧
    loadingTile.vAwait.find 4 = none ∧
    (tileWorld tiled tileCore).bridges.find 11 = some ⟨2, 20, 5, false, 3, some [(0, 5), (16383, 6)], (0, 0), 400⟩ ∧
    (tileWorld tiled tileCore).bridges.find 12 = some ⟨2, 21, 4, true, 511, none, (5, 511), 400⟩ ∧
    (tileWorld tiled tileCore).tiles.wf = true ∧ (tileWorld tiled tileCore).clears.find 14 = some ⟨2, 23, 5⟩ := by decide +kernel

/-- Three operations that wait for the array. -/
def queued (n : Nat) : State := { calm with cores := [(5, { tileCore with matQueue := List.replicate n (matrixOp .zero) })] }

theorem witness_MatrixOperationsQueue : (queued 3).Issues cur tiled ∧ MatrixReady (queued 3) tiled always ∧
    1 < tiled.banks.length ∧ (queued 3).tileOf tiled (tiled.handle 0) = some ⟨false, 3, some 20⟩ ∧
    (queued 3).spaceOf tiled (tiled.handle 0) = false ∧ (queued 3).spaceOf tiled (tiled.handle 1) = true ∧
    (queued 3).tileOf tiled (tiled.handle 1) = some ⟨true, 4, some 21⟩ ∧ (tiled.handle 4).state = .shadowPending ∧
    (queued 3).tileOf tiled (tiled.handle 4) = some ⟨false, 7, some 22⟩ ∧
    pairing .fp64 (elemFormat ((queued 3).formatSlot tiled 4)) = some (1, .f64) ∧
    badFormats ((queued 3).formatSlot tiled 4) ((queued 3).formatSlot tiled 4) false = false ∧
    (cur.imm 0).toNat ≤ 2048 / ElemFormat.fp64.bits ∧ pairing .int8 .int8 = some (8, .i32) ∧
    badFormats ((queued 3).formatSlot tiled 3) ((queued 3).formatSlot tiled 3) true = false := by
  unfold MatrixReady
  exact ⟨⟨rfl, by decide, rfl, rfl⟩, by decide +kernel⟩

theorem witness_MatrixTraps : (queued 4).Issues cur tiled ∧ cur.mode = .whole ∧ guardPending tiled always = false ∧
    tiled.effConds always ≠ [] ∧ ((queued 4).core 5).matQueue.length = 4 ∧ (calm.core 5).matQueue.length < 4 ∧
    tiled.banks.length = 2 ∧ (tiled.handle 3).state = .free ∧ calm.spaceOf tiled (tiled.handle 1) = true ∧
    badFormats (calm.formatSlot tiled 0) (calm.formatSlot tiled 3) false = true ∧
    badFormats (calm.formatSlot tiled 4) (calm.formatSlot tiled 4) false = false ∧
    2048 / (elemFormat (calm.formatSlot tiled 4)).bits < 33 := by
  exact ⟨⟨rfl, by decide, rfl, rfl⟩, by decide +kernel⟩

def arrayOf (k : Option MatKind) (q : List MatOp) : State :=
  { calm with cores := [(5, { tileCore with matQueue := q, matRun := k.map fun k => (matrixOp k, 401) })] }

theorem witness_MatrixArrayEvents : ((arrayOf none [matrixOp .zero]).core 5).matRun = none ∧
    ((arrayOf none [matrixOp .zero]).core 5).matQueue = [matrixOp .zero] ∧ (matrixOp .zero).notBefore = calm.time ∧
    (∀ k ∈ ([.zero, .mma false true 64 .int8 .int8 0 0, .drain true] : List MatKind),
      ((arrayOf (some k) [matrixOp .fill]).core 5).matRun = some (matrixOp k, 401)) ∧
    calm.team 2 = some tileTeam ∧ tileTeam.phase ≠ .done ∧ ({ matrixOp .zero with notBefore := 402 } : MatOp).notBefore > calm.time := by
  decide +kernel

/-- The operations whose effects are stated, over banks that hold something: products of both kinds of accumulator, a fill, and
a drain of a pair that the higher bank names. -/
theorem witness_MatrixEffects :
    (∀ k ∈ ([.mma false true 64 .fp16 .ds8 1 2, .mma true false 7 .fp64 .fp64 0 0, .fill, .drain true] : List MatKind),
      let s := { arrayOf (some k) [] with acc := [(accKey 5 1 63 63, 0x40000000)] }; let o := matrixOp k
      (s.core 5).matRun = some (o, 401) ∧ s.team o.team = some tileTeam ∧ tileTeam.phase ≠ .done ∧ s.tiles.wf = true ∧ s.acc.wf = true ∧
        o.phys < 16 ∧ o.other < 16 ∧ o.phys ≠ o.other ∧ o.src = some (false, 3, some 20) ∧ o.srcB = some (4, some 21) ∧
        o.dst = some (false, 5, some 23) ∧ o.cowFrom = none) ∧
    pairing .fp16 .ds8 = some (8, .f32) ∧ pairing .fp64 .fp64 = some (1, .f64) ∧ (calm.core 5).kind 0 ≠ 2 ∧
    (({ core5 with kinds := [(0, 2), (1, 2)] } : Core).kind 0 = 2 ∧ ({ matrixOp .fill with odd := true } : MatOp).odd = true) := by
  decide +kernel

theorem witness_ChunksAreExact : (-149 : Int) ≤ 0 ∧
    (∀ p ∈ [((false, 3, (-149 : Int)), (true, 5, (0 : Int))), ((true, 0, (7 : Int)), (true, 1, (-9 : Int)))],
      (-149 : Int) ≤ p.1.2.2 + p.2.2.2) ∧ fp32 ∈ [fp64, fp32] ∧ fp32.value 0x80000000 = .fin true 0 (-149) := by decide +kernel

theorem witness_HandleTables : calm.Issues cur tiled ∧ HandleReady tiled always ∧ calm.gang cur.gid = some tiled ∧
    calm.team tiled.team = some tileTeam ∧ (needsBefore calm cur tiled).a + 1 = tileTeam.freeA ∧
    (calm.core tiled.core).freeSlots false ≠ [] ∧ (tiled.handle 0).state ≠ .free ∧
    tiled.inbox.find 3 = some ⟨.record 20, .aliasRO⟩ ∧ tiled.inbox.find 2 = none ∧ cur.mode = .whole ∧
    (tiled.handle 2).state ≠ .shadowPending ∧ (tiled.handle 3).state = .free := by
  unfold HandleReady; exact ⟨calm_issues, by decide +kernel⟩

theorem witness_HandlePassing : calm.Issues cur tiled ∧ guardPending tiled always = false ∧ tiled.effConds always = [0, 1] ∧
    tiled.Full [0] [.sca (im 0)] ∧ un calm { cur with imms := [3] } tiled (im 0) 0 = 3 ∧
    (calm.gangOfGroup tiled.team 3).map Prod.fst = some 6 ∧ 3 < calm.groupCount tiled ∧ calm.inboxFull 6 2 = false ∧
    checkQuota calm { cur with imms := [3] } tiled (.hgive always 0 (im 0) 2) 0 [0, 1] = .go ∧
    checkQuota calm { cur with imms := [3] } tiled (.hshare always 0 (im 0) 2) 0 [0, 1] = .go := by
  unfold Gang.Full; exact ⟨calm_issues, by decide +kernel⟩

/-- The team stands on both cores of a pair. -/
def paired : State := { calm with teams := [(2, { tileTeam with cores := [5, 4] })] }

/-- A tile that an operation of the array reads. -/
def busy : State := { calm with cores := [(5, { tileCore with matQueue := [matrixOp .fill] })] }

theorem witness_HandleQueries : calm.Issues cur tiled ∧ HandleReady tiled always ∧ calm.gang cur.gid = some tiled ∧
    calm.tileOf tiled (tiled.handle 0) = some ⟨false, 3, some 20⟩ ∧ (tiled.handle 0).state = .live ∧
    (tiled.handle 4).state = .shadowPending ∧ calm.record 2 22 = records.find 22 ∧ cur.mode = .whole ∧
    (busy.Issues cur tiled ∧ 0 < busy.busyR tiled.core ⟨false, 3, some 20⟩) ∧ calm.busyR tiled.core ⟨false, 3, some 20⟩ = 0 ∧
    calm.busyW tiled.core ⟨false, 3, some 20⟩ = 0 ∧ calm.record 2 20 = some (record false 3) ∧
    (∀ x ∈ calm.copies.vals, x.record = some 20 → x.gid = cur.gid → 4 ≤ x.stage) ∧ (tiled.handle 3).state = .free ∧
    (tiled.handle 3).released = [] ∧ calm.onPair tiled = false ∧ tiled.pubs = [] ∧
    (∀ x ∈ calm.copies.vals, x.record = some 22 → 4 ≤ x.stage) ∧
    (paired.Issues cur tiled ∧ paired.gang cur.gid = some tiled ∧ paired.onPair tiled = true ∧ paired.record 2 22 = records.find 22) := by
  unfold HandleReady
  refine ⟨calm_issues, ?_, ?_, ?_, ?_, ?_, ?_, ?_, ⟨⟨rfl, ?_, rfl, rfl⟩, ?_⟩, ?_, ?_, ?_, ?_, ?_, ?_, ?_, ?_, ?_, ⟨rfl, ?_, rfl, rfl⟩, ?_⟩ <;>
    decide +kernel

theorem witness_HandleEvents :
    let s := tileWorld tiled tileCore
    s.messages.find 40 = some ⟨1, 2, ⟨.record 20, .aliasRO⟩⟩ ∧ s.gang 1 = some tiled ∧ s.team 2 = some tileTeam ∧
      tileTeam.records.find 22 = records.find 22 ∧ (1, tiled) ∈ s.gangs ∧ tiled.team = 2 ∧ tiled.handler = false ∧
      tiled.handles.find 4 = some (han .shadowPending 22) ∧ (records.find 22).map TileRecord.shadows = some [(5, 9)] ∧
      (records.find 22).map TileRecord.publishing = some [publish] ∧ s.swapDue publish = true ∧
      s.copies.find 30 = some (copy .tileTile 5 401) := by decide +kernel

/-! ## Witnesses: copies, batches, barriers, queues -/

/-- Registers of two groups: an address, a shape, a stride, a place, a size. -/
def copying : Gang :=
  { gang with
    handles := [(0, han .live 20), (1, han .live 21), (2, han .live 24)]
    groups := [(0, { grp 0 [(1, 0x10000), (2, 0x02010203), (3, 0x40), (4, 0x03000500), (5, 130)] 0 with
                      openBatch := [30], lastCopy := some 30, batch := 0xFFFF
                      sealed := [{ number := 0xFFFF, copies := [31], retireAt := some 400, releasing := false }] }),
               (1, grp 1 [(1, 0x10100), (2, 0x02010203), (3, 0x10), (4, 0x03000500)] 0), (2, grp 2 [] 0)] }
def copyTeam : Team := { team with records := [(20, record false 3), (21, record true 4), (24, { record false 11 with shadows := [(5, 12)] })], freeA := 3, freeB := 1 }
def copyWorld (g : Gang) : State :=
  { on g with gangs := [(1, g)], teams := [(2, copyTeam)], cores := [(5, tileCore)]
              copies := [(30, { copy .tileTile 5 401 with gct := 0 }), (31, copy .tileTile 4 0)] }

theorem witness_CopiesIssue : let s := copyWorld copying
    s.Issues cur copying ∧ s.gang cur.gid = some copying ∧ (∀ k ∈ copying.effGroups always, (copying.group k).isSome) ∧
    CopyReady s cur copying always [.sca (r 1), .sca (r 2), .sca (r 3)] ∧
    CopyReady s cur copying always [.sreg 1, .sca (r 2), .sca (r 5)] ∧
    (∀ k ∈ copying.effGroups always, let x := un s cur copying (r 2) k; Fits x (x / 2 ^ 8 % 256) (16 * (x / 2 ^ 24)) ∧
      un s cur copying (r 1) k % 16 = 0 ∧ un s cur copying (r 3) k % 16 = 0 ∧
      let y := un s cur copying (r 4) k; y % 256 = 0 ∧ y / 2 ^ 16 % 256 = 0 ∧ Fits x (y / 2 ^ 8 % 256) (16 * (y / 2 ^ 24)) ∧
      ∀ i ≤ x % 256, s.inSealed copying.context (copying.sreg k 1 + ssrc s cur copying (r 3) k * BitVec.ofNat 64 i).toNat
        (16 * (x / 2 ^ 16 % 256 + 1)) = false ∧ un s cur copying (r 5) k < 2 ^ 40) ∧
    (∃ q, q.bspace = false ∧ CopyInto s cur copying (.cpy always true 0 (r 1) (r 2) (r 3)) always 0 20 q) ∧
    (∃ q, q.bspace = true ∧ CopyInto s cur copying (.cpyb always true 1 (r 1) (r 2) (r 3)) always 1 21 q) ∧
    (∃ q, q.bspace = false ∧ CopyInto s cur copying (.cpym always true 2 (r 1) (r 2) (r 3)) always 2 24 q) ∧
    (∃ q, CopyInto s cur copying (.cpyl always 2 0 (r 2) (r 4)) always 2 24 q) ∧
    s.tileOf copying (copying.handle 0) = some ⟨false, 3, some 20⟩ ∧ (copying.effGroups always).Nodup := by
  unfold CopyReady Fits CopyInto Gang.Full
  refine ⟨⟨rfl, ?_, rfl, rfl⟩, rfl, ?_, ?_, ?_, ?_, ⟨record false 3, ?_⟩, ⟨record true 4, ?_⟩,
    ⟨{ record false 11 with shadows := [(5, 12)] }, ?_⟩, ⟨{ record false 11 with shadows := [(5, 12)] }, ?_⟩, ?_⟩ <;> decide +kernel

/-- The gang with templates among its handles: handles 3 and 5 name tiles that another handle names too, handle 6 one that
nothing else names. Group 0 has a CCHAIN and a CBIND in force. -/
def templated : Gang :=
  { copying with handles := copying.handles ++ [(3, han .template 20), (5, han .template 21), (6, han .template 23)]
                 groups := copying.groups.map fun p => (p.1, { p.2 with chain := p.1 == 0, bind := some 3 }) }
def templates : State :=
  { copyWorld templated with
    teams := [(2, { copyTeam with freeB := 2, records := [(20, record false 3), (21, record true 4), (23, record false 5)] })]
    tiles := [(tileKey 5 false 3 16383, 7)] }

theorem witness_CopiesOfTemplates : let s := templates; let g := templated
    s.Issues cur g ∧ s.gang cur.gid = some g ∧ (∀ k ∈ g.effGroups always, (g.group k).isSome) ∧ (g.effGroups always).Nodup ∧
    g.effGroups always ≠ [] ∧ CopyReady s cur g always [.sca (r 1), .sca (r 2), .sca (r 3)] ∧
    CopyReady s cur g always [.sca (r 2), .sca (r 4)] ∧
    (∀ h ∈ [(3, false, 3, 20), (5, true, 4, 21)], (g.handle h.1).state = .template ∧
      s.tileOf g (g.handle h.1) = some ⟨h.2.1, h.2.2.1, some h.2.2.2⟩ ∧ s.spaceOf g (g.handle h.1) = h.2.1 ∧
      s.soleRef g (g.handle h.1) = false ∧ s.publishPending g h.1 = false ∧ 1 < ((s.core g.core).freeSlots h.2.1).length ∧
      (s.core g.core).slots.find (slotKey h.2.1 h.2.2.1) ≠ none) ∧
    s.tiles.wf = true ∧ (s.team g.team).isSome = true ∧
    checkQuota s cur g (.cpy always true 3 (r 1) (r 2) (r 3)) 3 (g.effGroups always) = .go ∧
    checkQuota s cur g (.cpyb always true 5 (r 1) (r 2) (r 3)) 5 (g.effGroups always) = .go ∧
    checkQuota s cur g (.cpyl always 3 0 (r 2) (r 4)) 3 (g.effGroups always) = .go ∧
    CopyInto s cur g (.cpy always true 6 (r 1) (r 2) (r 3)) always 6 23 (record false 5) ∧
    ((g.handle 6).state = .template ∧ s.soleRef g (g.handle 6) = true) ∧ (g.group 0).map (fun x => (x.chain, x.lastCopy)) = some (true, some 30) := by
  unfold CopyReady CopyInto Gang.Full
  exact ⟨⟨rfl, by decide, rfl, rfl⟩, by decide +kernel⟩

/-- A batch that retires, with and without a release to perform. -/
def retiring (b : Bool) : State := { copyWorld copying with copies := [(31, { copy .tileTile 4 0 with publish := b })] }

/-- The gang, with a publication that it has asked for. -/
def asking : Gang := { copying with pubs := [50] }

/-- A group with sixteen sealed batches. -/
def sealedFull : Gang :=
  { copying with groups := [(0, { grp 0 [] 0 with sealed := (List.range 16).map fun n => { number := n, copies := [], retireAt := none, releasing := false } })] }

theorem witness_Batches : (on gang).Issues cur gang ∧ (gang.effGroups always).Nodup ∧ gang.effGroups always = [0, 1] ∧
    (∀ k ∈ gang.effGroups always, ∀ x, gang.group k = some x → x.sealed.length + sealsBefore cur gang k < 16) ∧
    gang.handler = false ∧ cur.mode = .whole ∧
    (∀ k ∈ gang.effGroups always, ∀ x, gang.group k = some x → (on gang).batchesOut cur.gid k x ≤ (cur.imm 0).toNat) ∧
    (∃ k ∈ sealedFull.effGroups always, ∃ x, sealedFull.group k = some x ∧ 16 ≤ x.sealed.length) ∧
    (∃ k ∈ copying.effGroups always, ∃ x, copying.group k = some x ∧
      (({ cur with imms := [0] } : Cur).imm 0).toNat < (copyWorld copying).batchesOut cur.gid k x) ∧
    ∃ b, (retiring false).gang 1 = some copying ∧ (copying.group 0).map Group.sealed = some [b] ∧ b.retireAt = some 400 ∧
      (retiring false).acts copying ((retiring false).batchScope b) = false ∧ (retiring false).copies.wf = true ∧
      (∀ id ∈ b.copies, ∀ y, (retiring false).copies.find id = some y → y.publish = false) ∧
      ({ retiring true with teams := [(2, { copyTeam with cores := [5, 4] })] } : State).acts copying
        (({ retiring true with teams := [(2, { copyTeam with cores := [5, 4] })] } : State).batchScope b) = true ∧
      copying.sync = none ∧ (retiring false).pubsToRetire 1 copying b = [] ∧
      ({ retiring false with gangs := [(1, asking)] } : State).pubsToRetire 1 asking b ≠ [] ∧
      ({ retiring false with gangs := [(1, asking)] } : State).acts asking (({ retiring false with gangs := [(1, asking)] } : State).batchScope b) = false := by
  refine ⟨on_issues _, ?_, ?_, groups_all (g := gang) ?_, ?_, ?_, groups_all (g := gang) ?_, ⟨0, ?_, _, rfl, ?_⟩, ⟨0, ?_, _, rfl, ?_⟩, _,
    rfl, rfl, ?_, ?_, ?_, fun id h y hy => ?_, ?_⟩
  case refine_14 =>
    simp only [List.mem_singleton] at h
    subst h; cases hy; rfl
  all_goals decide +kernel

/-- One copy on its own. -/
def oneCopy (x : Copy) : State := { copyWorld copying with copies := [(30, x)] }

/-- What a translation has come to where every page was found. -/
theorem copy_translated {x : (Copy × Option Nat × Bool) × State} (h : x.1.2 = (none, true)) :
    ∃ y u, x = ((y, none, true), u) := by
  obtain ⟨⟨y, q⟩, u⟩ := x
  exact ⟨y, u, by cases h; rfl⟩

/-- A copy of each kind, of which nothing is translated yet. -/
def untouched (k : CopyKind) : Copy := { copy k 0 401 with pages := [], checked := 0 }

theorem witness_CopyStarts : ∀ k ∈ ([.toTile, .fromTile, .global, .tileTile] : List CopyKind),
    (oneCopy (untouched k)).copies.find 30 = some (untouched k) ∧ (oneCopy (untouched k)).copyCanStart 30 (untouched k) = true ∧
    ∃ y u, (oneCopy (untouched k)).translateCopy 30 (untouched k) ((untouched k).touches.drop (untouched k).checked) = ((y, none, true), u) := by
  intro k hk
  have h : (oneCopy (untouched k)).copies.find 30 = some (untouched k) ∧ (oneCopy (untouched k)).copyCanStart 30 (untouched k) = true ∧
      ((oneCopy (untouched k)).translateCopy 30 (untouched k) ((untouched k).touches.drop (untouched k).checked)).1.2 = (none, true) := by
    revert k; decide +kernel
  exact ⟨h.1, h.2.1, copy_translated h.2.2⟩

theorem witness_CopyTranslates : (untouched .tileTile).kind = .tileTile ∧
    ∀ k ∈ ([.toTile, .fromTile, .global] : List CopyKind), let x := untouched k; let s := oneCopy x
      x.touches.drop x.checked ≠ [] ∧ ∀ p ∈ x.touches.drop x.checked, p.1 < 2 ^ 48 ∧
        (s.core x.core).tlbFind x.context p.1 = some page ∧ s.allows page p.1 p.2.2 = true ∧
          s.firstBad page p.1 p.2.1 p.2.2 = none := by
  decide +kernel

/-- A copy into a tile that an older TST of its gang is still to write. -/
def behindStore : State :=
  { oneCopy { copy .toTile 1 401 with seq := 40 } with
    gangs := [(1, { copying with flights := [{ flight (.tile [(0, tileKey 5 false 7 0)]) 8 with land := 101 }] })]
    teams := [(2, { copyTeam with records := [(22, { record false 7 with shadows := [(5, 9)] })] })] }

theorem witness_CopyLands :
    (∀ k ∈ ([.toTile, .tileTile, .fromTile, .global] : List CopyKind), let x := copy k 1 401; let s := oneCopy x
      s.copies.find 30 = some x ∧ s.canonical ∧ s.copyCanStart 30 x = false ∧ x.stage = 1 ∧ x.due ≤ s.time ∧
        s.destLanding x ≤ s.time ∧ x.bind = some 3 ∧ (s.team x.team).isSome ∧ x.shadows = [(5, 9)] ∧ x.data[1 * 32 + 31]? = some 63 ∧
        x.dstOfs + x.rowBytes = 256 ∧ x.dstRow + x.rows ≤ 64 ∧ x.data.length = x.rows * x.rowBytes ∧
        (∀ p ∈ x.cells, s.coveredTile x 5 9 (x.tileOfs p.1 p.2.1) = false) ∧ x.cells.length = 64 ∧ s.shadowAwaits x = [] ∧
        (s.gang x.gid = some copying ∧ (copying.group x.group).any fun z => z.openBatch.contains 30) = true) ∧
    ({ oneCopy (copy .toTile 1 401) with bridges := [(11, ⟨2, 22, 5, false, 9, none, (5, 7), 402⟩)] } : State).shadowAwaits
      (copy .toTile 1 401) ≠ [] ∧
    (∀ k ∈ ([.fromTile, .global] : List CopyKind), let x := copy k 1 401; let s := oneCopy x
      let va := fun (p : Nat × Nat × Byte) => (x.rowAt x.dst p.1 + p.2.1) % 2 ^ 64
      ∀ p ∈ x.cells, s.coveredGlobal x (va p) = false ∧ ∀ q ∈ x.cells, x.key (va q) = x.key (va p) → q = p) ∧
    behindStore.time < behindStore.destLanding { copy .toTile 1 401 with seq := 40 } ∧
    ((oneCopy (copy .global 3 401)).copies.find 30 = some (copy .global 3 401) ∧ (oneCopy (copy .global 3 401)).canonical) := by
  unfold State.canonical; decide +kernel

/-- Barriers before, in and after a phase, with an overrun and with an arrival of group 0. -/
def bar (expectG expectN leftG leftN : Nat) (o : Bool) (arrived : Word64) : Barrier :=
  { expectG := expectG, expectN := expectN, leftG := leftG, leftN := leftN, phase := 7, overrun := o, arrived := arrived, flipAt := 0, phaseWas := 0 }
def arrival (b k : Nat) : Arrival :=
  { team := 2, bar := b, group := k, due := some 401, gid := 1, core := 5, stls := [], pubs := [], released := true, stuck := false }
def barGang (phase : Nat) : Gang :=
  { gang with groups := [(0, { grp 0 [(1, 3), (2, 0)] 0 with tokens := [(0, phase), (1, phase)] }),
                         (1, { grp 1 [(1, 3), (2, 0)] 0 with tokens := [(0, phase), (1, phase)] }), (2, grp 2 [] 0)] }
def barTeam : Team := { team with bars := [(0, bar 3 0 3 0 false 0), (1, bar 3 0 2 0 false 1), (2, bar 3 3 1 0 true 0)] }
def barWorld (g : Gang) : State :=
  { on g with teams := [(2, barTeam)], arrivals := [(40, arrival 1 0), (41, arrival 2 0), (42, arrival 0 2)] }

theorem witness_Barriers : let s := barWorld (barGang 6); let g := barGang 6
    s.Issues cur g ∧ s.gang cur.gid = some g ∧ g.effGroups always = [0, 1] ∧ g.handler = false ∧
    (∀ k ∈ g.effGroups always, ∀ x, g.group k = some x → x.guardPend = false) ∧ g.Full (g.effGroups always) [.sca (r 1), .sca (r 2)] ∧
    (∀ j ∈ g.effGroups always, un s cur g (r 1) j ≤ s.groupCount g ∧ un s cur g (r 2) j < 2 ^ 32 ∧
      ¬(un s cur g (r 1) j = 0 ∧ un s cur g (r 2) j = 0)) ∧ (g.effGroups always).getLast? = some 1 ∧ s.team g.team = some barTeam ∧
    un s cur g (r 2) 0 = 0 ∧ cur.mode = .whole ∧
    (∀ k ∈ g.effGroups always, s.hasArrived g.team 0 (g.groupNumber k) = false ∧ (g.group k).isSome) ∧
    (∃ k ∈ g.effGroups always, s.hasArrived g.team 1 (g.groupNumber k) = true) ∧ (s.bar g.team 1).overrun = false ∧
    (s.bar g.team 0).overrun = false ∧ s.waitOver g 0 (g.effGroups always) = true ∧ g.sync = none ∧ s.onPair g = false ∧
    (s.bar g.team 2).overrun = true ∧ (barWorld (barGang 7)).waitOver (barGang 7) 0 [0, 1] = false ∧
    s.arrivals.find 40 = some (arrival 1 0) ∧ (s.bar 2 1).arrived.getLsbD 0 = true ∧
    s.arrivals.find 41 = some (arrival 2 0) ∧ (s.bar 2 2).arrived.getLsbD 0 = false ∧ (s.bar 2 2).leftG - 1 = 0 ∧
    (s.bar 2 2).leftN = 0 ∧ s.arrivals.find 42 = some (arrival 0 2) ∧ ¬(s.bar 2 0).leftG - 1 = 0 ∧
    (({ barWorld (barGang 6) with teams := [(2, { barTeam with cores := [5, 4] })] } : State).onPair (barGang 6) = true) := by
  unfold Gang.Full
  exact ⟨⟨rfl, by decide, rfl, rfl⟩, rfl, by decide +kernel, by decide +kernel, groups_all (by decide +kernel), by decide +kernel⟩

theorem witness_BarriersHandler : let g := { barGang 6 with handler := true }
    (barWorld g).Issues cur g ∧ g.effGroups always ≠ [] ∧ g.handler = true ∧ cur.mode = .whole ∧
    g.Full (g.effGroups always) [.sca (r 1), .sca (r 2)] := by
  unfold Gang.Full; exact ⟨⟨rfl, by decide, rfl, rfl⟩, by decide +kernel⟩

/-- A queue with records unreserved, of which one is the head; queue 4 belongs to another partition. -/
def qrec (n : Nat) (x : RecStatus) : QRec :=
  { seq := n, arrival := 100, words := (List.range 8).map (BitVec.ofNat 32), place := .chip, status := x }
def qcfg : QueueCfg :=
  { context := 1, ring := 0x20000, consumer := 0x10000, statusBlock := 0, age := 0, threshold := 4, batchMax := 4, hw := 50
    lw := 10, ringLog := 6, firings := 2, cls := 0, strict := false }
def queue3 : HiveQueue :=
  { HiveQueue.empty with cfg := some qcfg, recs := [qrec 1 .gone, qrec 3 .unreserved, qrec 4 .unreserved], nextSeq := 5 }

/-- A gang of one active group with queue numbers, a batch, a mark and the addresses of launch records. -/
def queueing : Gang :=
  { gang with groups := [(0, grp 0 [(1, 3), (2, 4096), (3, 100), (4, 0x10080), (5, 0x10081), (6, 0x8000000000000000), (7, 20)] 0)], active := 1 }
def queueWorld (fires : Bool) : State :=
  { on queueing with queues := [(3, queue3)], teams := [(2, { team with qbatch := 4, firing := fires, taken := [qrec 1 .gone] })] }

theorem witness_QueueInstructions : let s := queueWorld true; let g := queueing
    s.Issues cur g ∧ s.gang cur.gid = some g ∧ g.effGroups always = [0] ∧ OwnQueues s cur g always (r 1) ∧
    g.Full (g.effGroups always) [.sca (r 1), .vec (r 1)] ∧ s.CanOwn cur.gid [9] ∧ s.reservationTeam g 3 = none ∧
    (s.queue 3).waiting = [] ∧ (s.queue 3).recs.find? (fun r => r.status == .unreserved) = some (qrec 3 .unreserved) ∧
    g.Full (g.effGroups always) [.sca (r 1), .sca (r 2), .sca (r 3)] ∧ un s cur g (r 2) 0 = 4096 ∧
    (s.queue 3).cfg = some qcfg ∧ qcfg.context = g.context ∧ cur.mode = .whole ∧ ¬OwnQueues s cur g always (r 7) ∧
    (∃ tm, s.team g.team = some tm ∧ tm.firing = true) ∧ (∃ tm, (queueWorld false).team g.team = some tm ∧ tm.firing = false) ∧
    un s cur g (r 4) 0 % 128 = 0 ∧ un s cur g (r 5) 0 % 128 ≠ 0 ∧ (qrec 3 .unreserved).place = .chip ∧
    (({ s with cur := some { cur with mode := .commit, snap := some g } } : State).Issues { cur with mode := .commit, snap := some g } g ∧
      ({ s with cur := some { cur with mode := .commit, snap := some g } } : State).gang cur.gid = some g) := by
  unfold OwnQueues Gang.Full State.CanOwn
  refine ⟨⟨rfl, ?_, rfl, rfl⟩, rfl, ?_, ?_, ?_, fun g h => ?_, ?_, ?_, ?_, ?_, ?_, ?_, ?_, ?_, ?_, ⟨_, rfl, rfl⟩, ⟨_, rfl, rfl⟩, ?_, ?_, ?_,
    ⟨⟨rfl, ?_, rfl, rfl⟩, rfl⟩⟩
  all_goals try cases h
  all_goals decide +kernel

theorem witness_LatchBinding : let s := queueWorld false; let g := queueing
    s.Issues cur g ∧ s.gang cur.gid = some g ∧ g.Full (g.effGroups always) [.sca (r 1)] ∧ g.effGroups always = [0] ∧
    (∀ k ∈ g.effGroups always, (g.group k).isSome ∧ (ssrc s cur g (r 1) k).getLsbD 63 = false ∧ (ssrc s cur g (r 6) k).getLsbD 63 = true ∧
      s.ownsQueue g.context (un s cur g (r 1) k % 2 ^ 32) = true) ∧
    (∀ x, g.group 0 = some x → (x.latch 1).queue = none) ∧ s.reservationTeam g 3 = none ∧ (s.queue 3).waiting = [] ∧
    (s.queue 3).recs.filter (fun r => r.status == .unreserved) = [qrec 3 .unreserved, qrec 4 .unreserved] ∧
    ((s.queue 3).recs.map QRec.seq).Nodup ∧ (qrec 3 .unreserved).place = .chip ∧ (qrec 4 .unreserved).place = .chip := by
  unfold Gang.Full
  refine ⟨⟨rfl, ?_, rfl, rfl⟩, rfl, ?_, ?_, ?_, fun x h => ?_, ?_⟩
  case refine_5 => cases h; rfl
  all_goals decide +kernel

/-! ## Witnesses: the handler run and the Hive -/

/-- A handler run, and the gang that it serves, which has trapped on an accumulator bank. -/
def handling (n : BitVec 4) : Gang :=
  { gang with handler := true, groups := [(0, grp 0 [(1, 3), (2, 0), (3, 0x40), (4, 0x43), (5, 0xFF), (6, 0x41), (7, 0x42), (8, 0x47), (9, 0x99), (10, 2),
                                                         (11, 0x44), (12, 0x45), (13, 0x46)] 0)]
              active := n, seat := 16 }
def trapped (code : Nat) : Gang :=
  { solo with seat := 3, park := .trapped, inherited := 8, reserve := 1, handles := [(1, han .live 20)], log := [entry 0]
              trap := some { code := code, slot := 3, reason := 5, detail1 := 1 }, trapPos := 44, trapNext := 48 }
def handlerRun : HandlerRun := { gid := 1, served := some 8, moved := false }
def handlerWorld (code level : Nat) : State :=
  { on (handling 1) with
    gangs := [(1, handling 1), (8, trapped code)], debugLvl := level, teams := [(2, { team with records := records })]
    cores := [(5, { core5 with run := some handlerRun, trapped := [8] })] }

theorem witness_HandlerInstructions : let s := handlerWorld 0x0B 0; let g := handling 1
    s.Issues cur g ∧ (handlerWorld 0x0B 1).Issues cur g ∧ s.gang cur.gid = some g ∧ g.effGroups always = [0] ∧
    s.served g.core = some (8, trapped 0x0B) ∧ g.Full [0] [.sca (r 1), .sca (r 2)] ∧ s.CanOwn cur.gid [9] ∧
    g.Full [0] [.sca (r 1), .vec (r 1), .sca (r 2)] ∧ 8 ≠ cur.gid ∧
    (un s cur g (r 1) 0 < 64 ∧ (trapped 0x0B).inherited.getLsbD 3 = true ∧ 0 < (trapped 0x0B).reserve ∧ (trapped 0x0B).v.wf = true) ∧
    un s cur g (r 3) 0 = 0x40 ∧ un s cur g (r 2) 0 < 4 ∧ ((trapped 0x0B).group 0).isSome ∧
    ((trapped 0x0B).group 0).all (fun z => z.s.wf) = true ∧
    un s cur g (r 6) 0 = 0x41 ∧ un s cur g (r 7) 0 = 0x42 ∧ un s cur g (r 4) 0 = 0x43 ∧ (trapped 0x0B).trap.isSome ∧
    un s cur g (r 8) 0 = 0x47 ∧ 0x47 < un s cur g (r 9) 0 ∧ un s cur g (r 5) 0 = 0xFF ∧ s.debugLvl = 0 ∧
    (handlerWorld 0x0B 1).debugLvl ≠ 0 ∧ (handlerWorld 0x0B 1).lifecycle ≠ 2 ∧
    (un s cur g (r 11) 0 = 0x44 ∧ un s cur g (r 12) 0 = 0x45 ∧ un s cur g (r 13) 0 = 0x46) ∧ un s cur g (r 2) 0 = 0 ∧
    (trapped 0x0B).log.find? (fun n => n.num == 0) = some (entry 0) ∧ ((entry 0).elems.filter fun z => !z.performed) ≠ [] ∧
    (64 ≤ un s cur g (r 3) 0 ∧ (∀ n ∈ (trapped 0x0B).log, n.num ≠ 0x40) ∧ (trapped 0x0B).group (un s cur g (r 1) 0) = none) ∧
    (let u : State := { s with cores := [(5, { core5 with run := some { handlerRun with served := none }, trapped := [8] })], lifecycle := 2 };
      u.served g.core = none ∧ u.lifecycle = 2 ∧ u.gang cur.gid = some g) := by
  unfold Gang.Full State.CanOwn
  exact ⟨⟨rfl, by decide, rfl, rfl⟩, ⟨rfl, by decide, rfl, rfl⟩, rfl, by decide +kernel, rfl, by decide +kernel,
    fun g h => by cases h; decide +kernel, by decide +kernel⟩

theorem witness_ResumeActions : ∀ code ∈ [0x0B, 0x11, 0x0C, 0x02], ((handlerWorld code 0).core 5).run = some handlerRun ∧
    handlerRun.served = some 8 ∧ (handlerWorld code 0).gang 8 = some (trapped code) ∧ (trapped code).active ≠ 0 ∧
    ∃ tr, (trapped code).trap = some tr ∧ tr.code = code ∧ (tr.code ≠ 0x11 → tr.code ≠ 0x02 ∨ tr.detail1 = 1 ∨ handlerRun.moved = true) ∧
      ∃ tm, (handlerWorld code 0).team (trapped code).team = some tm := by
  intro code h
  refine ⟨rfl, rfl, rfl, by show solo.active ≠ 0; decide, _, rfl, rfl, fun _ => .inr (.inl rfl), _, rfl⟩

/-- A page table that maps 16 MiB at their own addresses. -/
def pageTable : Memory := [(0x8000, 1), (0x8001, 0x88), (0x8800, 1), (0x8801, 0x90), (0x9000, 0xF)]

/-- Queues: with room on chip, spilt, full, refusing with a held push, in a burst, and one to fire. -/
def ringRec (p : RecPlace) : QRec := { seq := 2, arrival := 100, words := [], place := p, status := .unreserved }
def push (q : Nat) (holds : Bool) : Push :=
  { queue := q, words := List.replicate 8 5, gid := some 1, group := 0, long := if holds then none else some 9, holds := holds
    core := some 5, arrival := 401, left := 361, hsn := none, refused := false }
def qclaim (stat : Bool) (pop : Option Nat) : Claim :=
  { gid := 1, group := 1, core := 5, queue := 3, team := none, stat := stat, pop := pop, latch := 2, seq := some 3, due := some 400 }
def pushing : Gang :=
  { gang with longs := [(9, { seq := 24, dest := .c 4, vals := [(2, 1)], want := 2, due := 0, groups := 3, acquire := false })]
              heldPushes := 2 }
def hive : State :=
  { world pushing with
    mem := pageTable
    pushes := [(40, push 3 true), (41, push 1 true), (42, push 2 true), (43, push 2 false), (44, push 4 true)]
    claims := [(60, qclaim true (some 9)), (61, qclaim false (some 9)), (62, qclaim false none)]
    qarms := [(70, { queue := 3, threshold := 70, age := 55 })]
    queues := [(1, { queue3 with recs := [ringRec (.ring 7)] }), (2, { queue3 with fcode := 2 }), (3, queue3),
               (4, { queue3 with recs := [], held := [44] }),
               (5, { queue3 with launch := some 1, cfg := some { qcfg with threshold := 1, age := 200 } }),
               (6, { queue3 with recs := [ringRec (.burst 7)], burst := some 401 })] }

theorem witness_PushesArrive :
    hive.pushes.find 40 = some (push 3 true) ∧ (push 3 true).arrival ≤ hive.time ∧ Takes (hive.queue 3) ∧ (hive.queue 3).chip < 32 ∧
    (hive.queue 3).ring = 0 ∧
    hive.pushes.find 41 = some (push 1 true) ∧ Takes (hive.queue 1) ∧ ¬((hive.queue 1).chip < 32 ∧ (hive.queue 1).ring = 0) ∧
    (hive.queue 1).cfg = some qcfg ∧ (hive.ringKey qcfg (hive.queue 1).nextPlace).toOption.isSome ∧
    hive.pushes.find 42 = some (push 2 true) ∧ ¬Takes (hive.queue 2) ∧ hive.pushes.find 43 = some (push 2 false) ∧
    hive.gang 1 = some pushing ∧ (pushing.longs.find 9).isSome ∧ (push 2 true).refused = false ∧
    (hive.queue 4).held = [44] ∧ hive.pushes.find 44 = some (push 4 true) ∧ (hive.queue 4).refuses = false ∧
    (hive.queue 4).chip < 32 ∧ (hive.queue 4).ring = 0 ∧ (∀ q ∈ [3, 4], (hive.queue q).landedAt ≠ some hive.time) ∧
    (hive.isHeld 40 = false ∧ hive.isHeld 44 = true) := by
  unfold Takes; decide +kernel

theorem witness_QueueEvents :
    (∀ p ∈ ([(60, qclaim true (some 9)), (61, qclaim false (some 9)), (62, qclaim false none)] : Tbl Claim),
      hive.claims.find p.1 = some p.2 ∧ p.2.due = some 400 ∧ 400 ≤ hive.time ∧ hive.gang p.2.gid = some pushing ∧
      (p.2.seq.bind (hive.queue p.2.queue).rec?).isSome ∧ (pushing.group p.2.group).isSome) ∧ (pushing.longs.find 9).isSome ∧
    hive.qarms.find 70 = some { queue := 3, threshold := 70, age := 55 } ∧ (hive.queue 3).cfg = some qcfg ∧
    (hive.queue 1).burst = none ∧ (hive.queue 1).burstFaulted = false ∧ (hive.queue 1).burstFrom ≤ hive.time ∧
    (hive.queue 1).recs = [ringRec (.ring 7)] ∧ (hive.ringKey qcfg 7).toOption.isSome ∧
    (hive.queue 6).cfg = some qcfg ∧ (hive.queue 6).burst = some 401 ∧ (hive.queue 6).recovering = false ∧
    (hive.queue 5).cfg = some { qcfg with threshold := 1, age := 200 } ∧
    hive.nextFiring (queueDie 5) = some 5 ∧ (hive.queue 5).launch.isSome = true ∧
    (hive.queue 5).old { qcfg with threshold := 1, age := 200 } hive.time = true := by decide +kernel

/-! ## Witnesses: fetch, translation, gangs, teams, pre-emption -/

/-- The stream at position 40: an index, a two-byte index, STOP, an invalid escape. -/
def streamLine (bs : List Byte) : StreamLine :=
  { context := 1, line := 0x400, bytes := List.replicate 40 0 ++ bs ++ List.replicate (88 - bs.length) 0 }
def usable : Entry := { widths := [1, 2], pop := 0, sync := false, nofold := false, ops := [(.s, .cxor always 1 (r 1) (r 1))] }
def decoded : List DecodeEntry := [{ launch := 1, dict := 0x10000, index := 3, entry := .usable usable }]
def refill : Refill :=
  { launch := 1, context := 1, dict := 0x10000, index := 9, handler := false, running := true, due := some 400, stalled := false
    prewarm := false, teams := [], decoded := some (.usable usable) }
def fetching (c : List StreamLine) : State :=
  { world gang with
    cores := [(5, { core5 with tlb := [{ page with base := 0x20000, frame := 0x20000, exec := true }], streamCache := c, decode := decoded
                               refills := [(81, refill)], streamFills := [(82, ⟨1, 9, 0x8780, 400⟩)] })] }

/-- A gang that has branched to a position past the end of the address space. -/
def beyond : Gang := { gang with pos := 2 ^ 48 }

theorem witness_FetchEvents : ((fetching []).gang 1 = some gang ∧ gang.fetch = .idle ∧ gang.park = .none ∧ gang.active ≠ 0 ∧
      (fetching []).streamBase gang + gang.pos < 2 ^ 48 ∧ gang.resolving = false) ∧
    (2 ^ 48 ≤ ((world beyond).streamBase beyond + beyond.pos) % 2 ^ 64 ∧ (world beyond).gang 1 = some beyond ∧ beyond.fetch = .idle) ∧
    (∀ bs ∈ ([[3, 0xFF], [4, 0xFF], [0x84, 7], [0xFF, 1], [0xFF, 7]] : List (List Byte)),
      ∀ i < 2, ((fetching [streamLine bs]).core 5).streamByte 1 (0x20028 + i) = bs[i]?) ∧
    ((readRef [0xFF, 1]).toOption = some .stop ∧ (readRef [0xFF, 7]).toOption = none ∧ (readRef [4, 0]).toOption = some (.index 4 1)) ∧
    (∀ e ∈ ((fetching []).core 5).table false, e.is 1 ((fetching []).dictBase gang) 4 = false) ∧
    (((fetching []).core 5).table false).find? (fun e => e.is 1 ((fetching []).dictBase gang) 3) =
      some { launch := 1, dict := 0x10000, index := 3, entry := .usable usable } ∧
    (((fetching [streamLine [3, 0xFF, 0x34, 0x82]]).core 5).streamRun 1 (0x20028 + 1) 3).toOption = some [0xFF, 0x34, 0x82] ∧
    readImms [1, 2] [0xFF, 0x34, 0x82] = some [0xFFFFFFFFFFFFFFFF, 0xFFFFFFFFFFFF8234] ∧ gang.nullifies usable = false ∧
    ((fetching []).core 5).streamByte 1 0x20028 = none ∧
    (∀ f ∈ ((fetching []).core 5).streamFills.vals, f.context = 1 → f.line ≠ 0x20028 / 128) ∧
    ((fetching []).core 5).streamFills.find 82 = some ⟨1, 9, 0x8780, 400⟩ ∧
    (((fetching []).core 5).refills.find 81 = some refill ∧ refill.due = some 400 ∧ 400 ≤ (fetching []).time ∧
      refill.decoded = some (.usable usable) ∧
      ((((fetching []).core 5).table false).countP fun e => refill.handler || e.launch == 1) < ((fetching []).core 5).places false 1) := by
  decide +kernel

theorem witness_FetchTranslates : ∃ e u, (fetching []).translate 5 1 0x20028 .fetch (.fetch 1) = (.ok e, u) ∧
    u.gang 1 = some gang ∧ u.mem = (fetching []).mem :=
  ⟨{ page with base := 0x20000, frame := 0x20000, exec := true }, _, Prod.ext (by decide +kernel) rfl, by decide +kernel⟩

/-- A gang whose fetch waits for a walk, and one with an access fault at position 36. -/
def walking : Gang := { gang with fetch := .walk 0 }
def paging : Gang := { gang with page := [(36, { code := 0x0C, slot := 3 })] }
def walk (a : Nat) (cl : List Client) : Walk := { core := 5, context := 1, addr := a, due := some 400, clients := cl }
def faultOf (a : Nat) (cl : List Client) : FaultRec := { core := 5, context := 1, addr := a, clients := cl }
def walks : State :=
  { world walking with
    mem := pageTable, queues := [(3, { queue3 with fcode := 1 })], copies := [(30, copy .toTile 0 0)]
    walks := [(90, walk 0x2345 []), (91, walk 0x1000005 [.fetch 1]), (92, walk 0x2345 [.fetch 1]), (93, walk 0x12345 [.copy 30])]
    faults := [(95, faultOf 0x1000000 [.copy 30]), (96, faultOf 0x20000 [.queue 3]), (97, faultOf 0x1000000 [.fetch 1])] }

/-- The page table with an entry for the second 16 MiB that no table may hold. -/
def badTable : State :=
  { walks with mem := [(0x8000, 1), (0x8001, 0x88), (0x8800, 1), (0x8801, 0x90), (0x9000, 0xF), (0x9008, 0x23)] }

/-- The page table with a page that may not be executed. -/
def dataTable : State := { walks with mem := [(0x8000, 1), (0x8001, 0x88), (0x8800, 1), (0x8801, 0x90), (0x9000, 7)] }

/-- A client that the page found allows. -/
def clientOf (s : State) (w : Walk) (allowed : Bool) : Prop :=
  (match s.walkHost w.context w.addr with | .page e _ => w.clients.any (s.clientAllowed e w.addr) == allowed | _ => false) = true

theorem witness_TranslationWalks :
    (∀ n ∈ [92, 93], ∀ w ∈ walks.walks.find n, w.due = some 400 ∧ clientOf walks w true) ∧
    (walks.walks.find 92 = some (walk 0x2345 [.fetch 1]) ∧ walks.walks.find 93 = some (walk 0x12345 [.copy 30])) ∧
    dataTable.walks.find 92 = some (walk 0x2345 [.fetch 1]) ∧ clientOf dataTable (walk 0x2345 [.fetch 1]) false ∧
    (walks.queue 3).faultsPlace 0x20000 = true := by
  unfold clientOf; decide +kernel

/-- A gang whose one log entry has elements left in a page that a fault has taken, and one elsewhere. -/
def faulting : Gang :=
  { gang with log := [{ entry 3 with long := some 77, elems := [⟨0, 0x2000000, 0, 0, true, false⟩, ⟨1, 0x1000008, 0, 0, false, true⟩,
                                                               ⟨2, 0x2000010, 0, 0, false, false⟩] }]
              longs := [(77, { long (.v 4) 600 with want := 2, vals := [(0, 9)] })] }

theorem witness_LogFaults : let f := faultOf 0x1000000 [.log 1 8]
    ({ walks with gangs := [(1, faulting)], faults := [(98, f)] } : State).faults.find 98 = some f ∧
    (∃ le, faulting.log = [le] ∧ le.seq = 8 ∧ ((le.elems.filter fun e => !e.performed).filter fun e =>
      decide (f.span.1 ≤ e.addr ∧ e.addr < f.span.1 + f.span.2)) ≠ [] ∧ le.long = some 77 ∧
      (faulting.longs.find 77).map Long.want = some (le.elems.filter fun e => !e.performed).length) := by
  exact ⟨rfl, _, rfl, by decide +kernel⟩

theorem witness_TranslationEvents :
    walks.walks.find 90 = some (walk 0x2345 []) ∧ (walk 0x2345 []).due = some 400 ∧ 400 ≤ walks.time ∧
    (match walks.walkHost 1 0x2345 with | .page _ _ => true | _ => false) = true ∧
    walks.walks.find 91 = some (walk 0x1000005 [.fetch 1]) ∧
    (match walks.walkHost 1 0x1000005 with | .absent _ => true | _ => false) = true ∧
    (match badTable.walkHost 1 0x1000005 with | .bad _ => true | _ => false) = true ∧ badTable.gang 1 = some walking ∧
    walking.fetch = .walk 0 ∧ walks.faults.find 95 = some (faultOf 0x1000000 [.copy 30]) ∧
    walks.faults.find 96 = some (faultOf 0x20000 [.queue 3]) ∧ walks.faultsStatus 3 0x20000 = false ∧ (walks.queue 3).fcode = 1 ∧
    walks.faults.find 97 = some (faultOf 0x1000000 [.fetch 1]) ∧ walks.gang 1 = some walking ∧
    (world paging).gang 1 = some paging ∧ paging.page = [(36, { code := 0x0C, slot := 3 })] ∧ paging.seated = true ∧ paging.park = .none := by
  decide +kernel

/-- A gang in each of the states that a gang passes through. -/
def life (p : Park) (prologue : Bool) : Gang := { gang with park := p, prologue := prologue, wake := 300, agedFrom := 100 }
def template : BankTemplate :=
  { key := ⟨1, none⟩, v := [], s := [], p := [], c := 0, fpmode := 0, handles := [], tiles := [], used := 0, due := some 400 }
def lifeOf (g : Gang) : State :=
  { world g with mem := pageTable, contexts := [(1, { context with templateBase := 0x40000, templateSize := 0x20000, spans := [(0x40000, 0x10000)] })]
                 launches := [(1, { launch with span := some (0x40000, 0x10000), segBase := 0x40000, segSize := 0x10000 })]
                 cores := [(5, { core5 with templates := [(70, template)] })] }

/-- A core with a parked copy whose gangs all wait. -/
def deadlock : State :=
  { lifeOf { gang with wait := some (.registers 3) } with
    cores := [(5, { core5 with parked := [{ gid := 1, owner := 1, regs := 3 }] })] }

theorem witness_GangEvents :
    (let g := life .none false; (lifeOf g).gang 1 = some g ∧ g.seated = true ∧ g.handler = false ∧ g.aged = false ∧
      g.ageFrom + 256 ≤ (lifeOf g).time ∧ g.park = .none ∧ g.wake ≤ (lifeOf g).time) ∧
    (let g := { life .none false with yieldUntil := some 400 }; (lifeOf g).gang 1 = some g ∧ 400 ≤ (lifeOf g).time) ∧
    (let g := life .ending false; (lifeOf g).gang 1 = some g ∧ g.park = .ending ∧ g.seated = true ∧ g.flights = [] ∧ g.log = [] ∧
      g.page = [] ∧ g.handler = false ∧ g.teamPrologue = false ∧ ∀ x ∈ g.groups.vals, x.openBatch = [] ∧ x.sealed = []) ∧
    (let g := life .freezing true; (lifeOf g).gang 1 = some g ∧ g.park = .freezing ∧ (lifeOf g).freezePublishes g = [] ∧
      (lifeOf g).freezeQuiet 1 g = true ∧ g.prologue = true ∧ ((lifeOf g).launch g.launch).isSome) ∧
    (let g := life .frozen true; (lifeOf g).gang 1 = some g ∧ g.park = .frozen ∧ g.wake ≤ (lifeOf g).time ∧ g.prologue = true ∧
      ((lifeOf g).launch g.launch).isSome ∧ (∀ k < 4, g.active.getLsbD k = true → k ∈ g.groups.keys) ∧ g.reconv = []) ∧
    ((lifeOf gang).core 5).templates.find 70 = some template ∧ template.due = some 400 ∧ 400 ≤ (lifeOf gang).time ∧
    ((lifeOf gang).launch 1).isSome = true ∧
    deadlock.copyDeadlocked 5 = true ∧ deadlock.latestTeam 5 = some 2 ∧ deadlock.team 2 = some team ∧ team.phase = .placed ∧
    deadlock.mayRestart { team with deadlocked := true } = false := by
  decide +kernel

/-- Launches and teams: a launch just accepted, a team that may be placed, a team whose gangs have ended, a trapped gang. -/
def launchAt (stage : Nat) (completion : Nat) : Launch :=
  { launch with stage := stage, count := 9, cursor := 3, done := 1, completion := completion, quotaA := 2, quotaB := 1
                span := some (0x40000, 0x10000), handler := some (0x20000, 0x10000, 12), reserve := 3 }
def ended : Gang := { gang with park := .ended, seated := false }
def endedTeam : Team := { team with number := 4, qbatch := 0x700010003, die := 0 }
def atDispatch : State :=
  { world ended with
    nextId := 200, mem := pageTable
    contexts := [(1, { context with templateBase := 0x40000, templateSize := 0x20000, spans := [(0x40000, 0x10000)] })]
    launches := [(1, launchAt 3 5), (2, launchAt 0 5), (3, launchAt 1 5)]
    teams := [(2, endedTeam), (9, Team.make 3 7 0 0 1 0 true false)], cores := [] }
def dead : Gang := { gang with park := .trapped, trap := some { code := 0x0B, slot := 2 }, seat := 3 }
def trapWorld : State :=
  { world dead with launches := [(1, launchAt 3 5)], cores := [(5, { core5 with seats := [(3, 1)], trapped := [1] })] }

theorem witness_TeamEvents :
    atDispatch.launch 2 = some (launchAt 0 5) ∧ (launchAt 0 5).stage = 0 ∧
    (∃ tm cores, atDispatch.team 9 = some tm ∧ 9 < atDispatch.nextId ∧ atDispatch.launch tm.launch = some (launchAt 1 5) ∧
      atDispatch.placeOf 9 tm = some cores) ∧
    atDispatch.team 2 = some endedTeam ∧ atDispatch.launch endedTeam.launch = some (launchAt 3 5) ∧
    atDispatch.teamMayComplete endedTeam = true ∧ endedTeam.again = false ∧ endedTeam.prologue = false ∧ (launchAt 3 5).done + 1 < (launchAt 3 5).count ∧
    (launchAt 3 5).completion ≠ 0xFFFFFFFF ∧ endedTeam.gangs = [1] ∧ atDispatch.gang 1 = some ended ∧
    trapWorld.trapWork 5 = some (.start 1) ∧ trapWorld.gang 1 = some dead ∧ trapWorld.launch dead.launch = some (launchAt 3 5) ∧
    (launchAt 3 5).handler = some (0x20000, 0x10000, 12) ∧ trapWorld.context dead.context = some context ∧
    (({ trapWorld with debugLvl := 1 } : State).debugOpen = true ∧ (trapWorld.core 5).dbg.outFull = false ∧ dead.trap.isSome) := by
  refine ⟨rfl, rfl, ⟨Team.make 3 7 0 0 1 0 true false, [4], by decide +kernel⟩, by decide +kernel⟩

/-- A team to be pre-empted, one being saved, one saved, one restored. -/
def saved (formed loaded : Bool) (due : Nat) : Saved :=
  { Saved.start [(1, .none)] [] [] with formed := formed, loaded := loaded, due := due, privates := [0], offset := 0x100, size := 0x18000 }
def preTeam (p : TeamPhase) (v : Option Saved) : Team :=
  { team with phase := p, deadline := if p = .placed then some 400 else none, saved := v, stopAt := 100 }
def preWorld (p : TeamPhase) (v : Option Saved) (seated : Bool) : State :=
  { world { gang with park := if p = .placed then .none else .stopped, seated := seated } with
    mem := pageTable, time := 200401, nextId := 200, contexts := [(1, { context with saveArea := 0x80000 })], teams := [(2, preTeam p v)]
    cores := if seated then [(5, { core5 with seats := [(0, 1)] })] else [] }

theorem witness_PreemptionSaves :
    (let s := preWorld .placed none true; let tm := preTeam .placed none
      s.team 2 = some tm ∧ tm.deadline = some 400 ∧ s.mayRestart tm = false) ∧
    (∀ v ∈ ([saved true false 400, saved false false 0] : List Saved), let s := preWorld .stopping (some v) true
      s.team 2 = some (preTeam .stopping (some v)) ∧ (preTeam .stopping (some v)).saved = some v ∧ s.launch team.launch = some launch) ∧
    (saved true false 400).due ≤ 200401 ∧
    (let v := saved false false 0; let tm := preTeam .stopping (some v); let s := preWorld .stopping (some v) true
      s.saveSettled 2 tm v = true ∧ s.areaWaits 2 = false ∧ s.context launch.context = some { context with saveArea := 0x80000 } ∧
        let w := (s.formSave 2 tm v { context with saveArea := 0x80000 }).1
        0 < w.size ∧ s.checkArea launch.context .write (0x80000 + w.offset) w.size = .ok) ∧
    (let s := preWorld .stopping none true; let tm := preTeam .stopping none
      s.saveLimit tm = 200000 ∧ tm.stopAt + s.saveLimit tm ≤ s.time ∧ s.launches.wf = true ∧ s.teams.wf = true) := by
  decide +kernel

theorem witness_PreemptionRestores :
    (∀ q ∈ ([(.saved, true), (.restoring, false), (.restoring, true)] : List (TeamPhase × Bool)), let v := saved true q.2 400
      let s := preWorld q.1 (some v) (q.1 == .restoring)
      s.launch team.launch = some launch ∧ s.context launch.context = some { context with saveArea := 0x80000 } ∧
        s.checkArea launch.context .read (0x80000 + v.offset) v.size = .ok) ∧
    (let v := saved true false 400; let tm := { preTeam .saved (some v) with cores := [5] }
      ({ preWorld .saved (some v) false with teams := [(2, tm)] } : State).team 2 = some tm ∧
        (({ preWorld .saved (some v) false with teams := [(2, tm)] } : State).restorePlace 2 tm).isSome = true) ∧
    (let v := saved true false 400; (preWorld .restoring (some v) true).loadDue 2 (preTeam .restoring (some v)) = true) ∧
    (let v := saved true true 400; let s := preWorld .restoring (some v) true; let tm := preTeam .restoring (some v)
      s.restoreReady 2 tm = true ∧ v.jobs = [] ∧ v.copies = [] ∧ v.claims = [] ∧ v.mbox = [] ∧
        (∀ i ∈ tm.gangs, i ∈ v.parks.map Prod.fst) ∧ (∀ p ∈ v.parks, p.2 ≠ .trapped ∧ p.2 ≠ .install ∧ (s.gang p.1).map Gang.log = some [])) := by
  decide +kernel

/-- The bytes of a gang's record, and gangs with and without registers of their template. -/
theorem witness_GangRecord : 0x5000 ≤ (List.replicate 0x5000 (0 : Byte)).length ∧ gang.inherited = 0 ∧ (trapped 0).inherited = 8 ∧
    (trapped 0).v.wf = true ∧ (gang.group 1).isSome = true :=
  ⟨by simp only [List.length_replicate, Nat.le_refl], by decide +kernel⟩

/-! ## Witnesses: the host, the platform, the step -/

/-- The ring as configured, as reset left it, halted and drained; boot stage 3; and a core's words at a debug level. -/
def ringUp : State := { world gang with doorbell := 3, consumedSeq := 2, completedSeq := 2, leading := true, queenExpiry := 900, ringState := 0, ringCfg := 0x50006, mem := pageTable }
def atStage3 : State := { world gang with bootStage := 3, carveBase := 0x100000, carveSize := 0x10000, leading := true, queenExpiry := 900 }

/-- The ring with one event that the host has not acknowledged. -/
def eventHeld : HostEvent := { type := 2, context := 1, hsn := 3, detail := [] }
def holding : State := { ringUp with events := [(3, eventHeld)], eventSeq := 3, ackSeq := 2, evCfg := 0x70006 }

/-- A boot after the lock, over a carve-out of zeros. -/
def booting (stage fail : Nat) : State := { atStage3 with carveLocked := true, carveSize := 0x100, bootStage := stage, bootFail := fail }
def words (level : Nat) (full : Bool) : State :=
  { world gang with debugLvl := level, cores := [(5, { core5 with dbg := { core5.dbg with inFull := full } })] }

theorem witness_HostRegisters :
    ringUp.ringOpen = true ∧ ringUp.ringState = 0 ∧ ringUp.doorbell = 3 ∧ 2 + 2 ^ ringUp.ringLog = 66 ∧ ringUp.events = [] ∧ ringUp.eventsLost = 0 ∧
    (({ ringUp with ringState := 2 } : State).ringOpen = true ∧ 6 ≤ (0x50006 : Word64).toNat % 32 ∧ (0x50006 : Word64).toNat % 32 ≤ 16) ∧
    (({ ringUp with ringState := 1 } : State).ringState = 1 ∧ ringUp.completedSeq = ringUp.consumedSeq) ∧
    atStage3.carveLocked = false ∧ atStage3.bootStage = 3 ∧ atStage3.carveBase + atStage3.carveSize ≤ 2 ^ 36 ∧
    atStage3.sleeping = false ∧ levelPermitted atStage3.lifecycle 0 = true ∧ levelPermitted 2 1 = false ∧
    (words 1 true).debugOpen = true ∧ (words 0 true).debugOpen = false ∧ ((words 1 true).core 5).dbg.inFull = true ∧ ((words 1 false).core 5).dbg.inFull = false ∧
    ((words 1 false).core 5).mbox = [] ∧ ((words 1 false).core 5).monitor = none := by
  decide +kernel

theorem witness_HostEventsAndBoot :
    (holding.events = [(3, eventHeld)] ∧ holding.ackSeq < 3 ∧ holding.mayWrite 3 = true ∧ holding.statusAddr = 0 ∧ holding.ringOpen = true) ∧
    (({ holding with leading := false } : State).leads = false ∧ ({ holding with leading := false } : State).ringOpen = true) ∧
    (∀ n ∈ [4, 5, 6], (booting n 0).bootStage = n ∧ (booting n 0).bootFail = 0) ∧ (booting 4 4).bootFail ≠ 0 ∧
    ((booting 4 0).bytesAt (memKey kindDevice (booting 4 0).carveBase) (booting 4 0).carveSize).take 4 ≠ [0x53, 0x56, 0x46, 0x57] ∧
    (({ booting 7 0 with sleeping := true } : State).sleeping = true ∧ ((words 1 true).core 5).dbg.pmwritten = [] ∧
      ({ words 1 true with wear := [(2, ⟨[], [1]⟩)] } : State).wear.find 2 = some ⟨[], [1]⟩ ∧ (words 1 true).wear.find 2 = none) := by
  decide +kernel

/-- A command of the ring: its 64 bytes with some fields at their offsets and lengths. -/
def command (op ctx : Nat) (fs : List (Nat × Nat × Nat)) : Command :=
  let put := fun (bs : List Byte) (o n v : Nat) => bs.take o ++ bytesLE n v ++ bs.drop (o + n)
  { opcode := op, context := ctx, started := false, complete := false, waits := []
    bytes := fs.foldl (fun bs f => put bs f.1 f.2.1 f.2.2) (put (put (put (List.replicate 64 0) 0 2 op) 4 4 ctx) 8 8 5) }

/-- One command of each kind, with its bytes in order, and one with a wrong byte. -/
def commands : List Command :=
  [command 1 1 [(0x10, 8, 0x30000)], command 2 1 [(0x10, 8, 0x30000), (0x18, 8, 0x40000), (0x20, 8, 512)],
   command 3 1 [(0x10, 4, 3), (0x18, 8, 0x28000)], command 4 1 [(0x10, 4, 3)], command 5 1 [(0x10, 8, 0x9008)], command 6 1 [],
   command 7 1 [], command 7 1 [(0x14, 4, 1)], command 8 1 [(0x10, 8, 0x10000), (0x18, 8, 0x10000)],
   command 9 7 [(0x18, 8, 0x8000), (0x20, 8, 0x1000), (0x28, 8, 0x2000), (0x38, 8, 0x30000), (0x34, 4, 2), (0x30, 4, 1)],
   command 9 1 [(0x10, 4, 1)], command 10 0 [(0x10, 8, 0x60000)], command 11 1 []]

/-- A block of queue configuration: the ring at 64 KiB times 2, 64 places, T = 4, batches of 2. -/
def configBlock : List Byte :=
  bytesLE 8 0x20000 ++ bytesLE 8 0x10000 ++ bytesLE 8 0 ++ bytesLE 4 0 ++ bytesLE 2 4 ++ bytesLE 2 2 ++ bytesLE 2 8 ++ bytesLE 2 2 ++
    bytesLE 1 6 ++ bytesLE 1 2 ++ List.replicate 26 0

def ring (c : Command) : State :=
  { world gang with
    mem := ((pageTable : Memory).setRun 0x28000 configBlock).setRun (0x60000 + 768) (List.replicate 64 0xF)
    leading := true, queenExpiry := 900, consumedSeq := 5, completedSeq := 4, commands := [(5, c)], queues := [(3, { queue3 with recs := [] })]
    contexts := if c.opcode = 10 then [] else [(1, context)] }

theorem witness_RingCommands_starts : ∀ c ∈ commands, Starts (ring c) 5 c := by unfold Starts; decide +kernel

theorem witness_RingCommands :
    (let s := ring (command 3 1 [(0x10, 4, 3), (0x18, 8, 0x28000)]);
      s.commandWaits 5 = false ∧ (s.readCtx 1 0x28000 64).toOption = some configBlock ∧ s.configOk 1 3 configBlock = true) ∧
    (let s := ring (command 5 1 [(0x10, 8, 0x9008)]); s.statusAddr = 0) ∧
    (∃ l, (ring (command 7 1 [])).launch 1 = some l ∧ l.context = 1 ∧ l.stage < 4) ∧
    (ring (command 9 1 [(0x10, 4, 1)])).contexts.wf = true ∧
    (partitionTable ((ring (command 10 0 [(0x10, 8, 0x60000)])).bytesAt (memKey kindDevice 0x60000) 832)).isSome = true ∧
    (let c := command 6 1 [(0x20, 4, 1)];
      (ring c).commands.find 5 = some c ∧ c.complete = false ∧ c.started = false ∧ (ring c).leads = true ∧ (ring c).ringOpen = true ∧
        (ring c).mayStart 5 c = true ∧ ((ring c).commandError c).isSome) := by
  refine ⟨?_, ?_, ⟨launch, ?_⟩, ?_, ?_, ?_⟩ <;> decide +kernel

/-- An access of a peer package that adds 5 to a word. -/
def peer : PeerAccess := { key := 0x50000, bytes := [], atomic := some (0x10, 5, 0) }
def peerStore : PeerAccess := { key := 0x50000, bytes := [1, 2], atomic := none }
def platform : State :=
  { world gang with lifecycle := 1, debugLvl := 2, halted := true, scarabUp := 5, cxlUp := 2, peerAccesses := [(50, peer), (51, peerStore)]
                    carveLocked := true, carveBase := 0x100000, carveSize := 0x10000, bar2base := 0x50000 }

/-- The package, with an index job held at a port on an empty register. -/
def blockedPort : State := { platform with gangs := [(1, unread)], cores := [(5, { core5 with index := [{ job with blocked := true }] })] }

theorem witness_PlatformEvents :
    2 ≤ platform.bootStage ∧ platform.sleeping = false ∧ platform.queenExpiry ≤ platform.time ∧ platform.lowerClaim 2 = false ∧
    ({ platform with queenExpiry := 900, leading := true, leader := 2 } : State).time < 900 ∧ platform.bootStage ≠ 1 ∧
    (State.reset.bootStage = 1 ∧ State.reset.bootFail = 0 ∧ State.reset.meas.wf = true) ∧
    (({ platform with bootStage := 2 } : State).bootFail = 0 ∧ ({ platform with bootStage := 1, bootFail := 1 } : State).bootFail ≠ 0) ∧
    (platform.cores.wf = true ∧ platform.portHeld 5 = false ∧ blockedPort.cores.wf = true ∧ blockedPort.portHeld 5 = true ∧
      blockedPort.debugLvl = 2) ∧ platform.lifecycle = 1 ∧ platform.mem.wf = true ∧
    natBit platform.scarabUp 2 = true ∧ platform.events.length < 4096 ∧ natBit platform.scarabUp 1 = false ∧ natBit platform.cxlUp 1 = true ∧
    platform.debugLvl = 2 ∧ platform.halted = true ∧ platform.gang 1 = some gang ∧ gang.v.wf = true ∧ (world gang).debugLvl ≠ 2 ∧
    platform.openTo (0x50000 + 8) 4 = true ∧ platform.openTo (0x50000 + 0xB0000) 4 = false ∧ 0xB0000 + 4 ≤ 2 ^ 36 ∧
    platform.peerAccesses.find 50 = some peer ∧ keyKind peer.key = kindDevice ∧ platform.openTo peer.key 4 = true ∧
    platform.peerAccesses.find 51 = some peerStore ∧ platform.openTo peerStore.key peerStore.bytes.length = true := by
  decide +kernel

/-- A package with no work, after 20 µs; one whose die's cores are all in A1; one with a parked die; one asleep. -/
def idle : State := { State.reset with time := 20401, bootStage := 7, cores := [(5, { Core.reset with idleFrom := 10401 })] }
def allA1 : State := { idle with time := 99999999, cores := (List.range 32).map fun i => (i, { Core.reset with power := .a1 }) }

/-- A die of cores in A1, one of which holds dirty bytes, or has sent them to their home. -/
def unwritten : State :=
  { allA1 with cores := (List.range 32).map fun i => (i, { Core.reset with power := .a1, l1 := if i = 3 then [(7, line0)] else [] }) }
def sent : State := { allA1 with writebacks := [(9, { writeBack .core with core := 3 })] }

theorem witness_PowerAndWear :
    (idle.core 5).power = .a0 ∧ (idle.core 5).busy = false ∧ (idle.core 5).idleFrom + 10000 ≤ idle.time ∧
    idle.time < (({ idle with cores := [(5, { Core.reset with idleFrom := 10402 })] } : State).core 5).idleFrom + 10000 ∧
    (allA1.mayPark 0 = true ∧ allA1.dirtyOn 0 = false ∧ allA1.writingFrom 0 = false) ∧ (unwritten.mayPark 0 = true ∧ unwritten.dirtyOn 0 = true) ∧
    (sent.mayPark 0 = true ∧ sent.dirtyOn 0 = false ∧ sent.writingFrom 0 = true) ∧
    ({ idle with parkedDies := [(0, 300)] } : State).parkedDies.wf = true ∧ ((({ idle with parkedDies := [(0, 300)] } : State).parkedDies.find 0).isSome = true) ∧
    idle.sleeping = false ∧ (world gang).teams.vals.any Team.holdsCores = true ∧ (world gang).sleeping = false ∧ idle.debugLvl ≠ 2 ∧
    idle.teams.vals.any Team.holdsCores = false ∧ idle.commands.vals = [] ∧ idle.dirtyAnywhere = false ∧ idle.writebacks = [] := by
  decide +kernel

/-- A run that the monitor serves, with a word in INW. -/
def word (op seq arg : Nat) : Word64 := BitVec.ofNat 64 (op * 2 ^ 56 + seq * 2 ^ 48 + arg)
def monitor (seq : Option Nat) (p : Option (Nat × Nat × Nat × Nat)) : Monitor := { seq := seq, reply := [5, 6], pending := p, out := [9], waits := false }
def monitored (m : Monitor) (v : Word64) : State :=
  { handlerWorld 0x0B 2 with
    mem := pageTable
    cores := [(5, { core5 with run := some handlerRun, trapped := [8], monitor := some m
                               dbg := { core5.dbg with inFull := true, inw := v } })] }

theorem witness_MonitorProtocol :
    (∀ p ∈ ([(1, 0x50300), (3, 0x50008), (9, 7), (4, 1), (2, 0x50300)] : List (Nat × Nat)),
      (monitored (monitor none none) (word p.1 3 p.2)).served 5 = some (8, trapped 0x0B) ∧ (trapped 0x0B).core = 5 ∧
      ((monitored (monitor none none) (word p.1 3 p.2)).core 5).run = some handlerRun ∧ (monitored (monitor none none) (word p.1 3 p.2)).debugOpen = true ∧
      ((monitored (monitor none none) (word p.1 3 p.2)).core 5).dbg.inFull = true ∧
      ((monitored (monitor none none) (word p.1 3 p.2)).core 5).monitor = some (monitor none none) ∧ (monitor none none).seq ≠ some 3) ∧
    (word 3 3 0x50008).toNat / 2 ^ 56 = 3 ∧ ((monitored (monitor none none) 0).keyOf (trapped 0x0B).context 0x50008).isSome ∧
    (monitor (some 3) none).seq = some ((word 1 3 0).toNat / 2 ^ 48 % 2 ^ 8) ∧
    ((monitored (monitor (some 2) (some (4, 3, 0, 5))) 77).served 5 = some (8, trapped 0x0B) ∧
      (monitor (some 2) (some (4, 3, 0, 5))).pending = some (4, 3, 0, 5) ∧ (trapped 0x0B).v.wf = true) := by decide +kernel

theorem witness_MonitorWrite : let g := { trapped 0x0B with inherited := 0 }
    ({ monitored (monitor (some 2) (some (4, 3, 0, 5))) 77 with gangs := [(1, handling 1), (8, g)] } : State).served 5 = some (8, g) ∧
    g.inherited = 0 ∧ g.v.wf = true ∧ g.core = 5 := by decide +kernel

/-- A monitor's write to an inherited register, with nothing in reserve or pool. -/
def starvedMonitor : State :=
  { monitored (monitor (some 2) (some (4, 3, 0, 5))) 77 with
    cores := [(5, { (monitored (monitor (some 2) (some (4, 3, 0, 5))) 77).core 5 with pool := 0 })]
    gangs := [(1, { handling 1 with reserve := 0 }), (8, { trapped 0x0B with inherited := 8, reserve := 0 })] }
theorem witness_MonitorParks : starvedMonitor.halted = false ∧ starvedMonitor.debugOpen = true ∧
    ((starvedMonitor.core 5).dbg.inFull = true ∧ (starvedMonitor.core 5).pool = 0) ∧ (starvedMonitor.core 5).run = some handlerRun ∧
    (match starvedMonitor.served 5, starvedMonitor.gang handlerRun.gid, (starvedMonitor.core 5).monitor with
     | some x, some h, some m => x.2.inherited.getLsbD 3 && x.2.reserve == 0 && h.reserve == 0 && m.pending == some (4, 3, 0, 5)
     | _, _, _ => false) = true := by decide +kernel

theorem witness_RoundTrip : ∃ w, (Instr.lds always .w8 3 (rE 1) (r 2)).wf = true ∧
    encode (.lds always .w8 3 (rE 1) (r 2)) = some w ∧ (Instr.lds always .w8 3 (rE 1) (r 2)).cls? = some .C ∧
    (Instr.lds always .w8 3 (rE 1) (r 2)).wfIn .c1 false 2 = true := ⟨_, rfl, rfl, rfl, rfl⟩

theorem witness_StreamReferences : (0x7F : Byte).toNat ≤ 0x7F ∧ 0x80 ≤ (0xFE : Byte).toNat ∧ (0xFE : Byte).toNat ≤ 0xFE ∧
    ((0xFE : Byte) &&& 0x7F).toNat * 2 ^ 8 + (0xFF : Byte).toNat = 32511 ∧ (2 : Byte) ≠ 0 ∧ (2 : Byte) ≠ 1 := by decide

/-- What an outcome that is a next state shows. -/
def nextState (o : Host.Outcome State Fault Refusal) : Option State :=
  match o with
  | .next t => some t
  | .fault _ => none
  | .refused _ => none

theorem exists_next {o : Host.Outcome State Fault Refusal} (h : (nextState o).isSome = true) : ∃ t, o = .next t := by
  cases o with
  | next t => exact ⟨t, rfl⟩
  | fault _ => cases h
  | refused _ => cases h

theorem witness_MemoryStaysCanonical :
    Memory.wf ({ State.reset with phase := 193, agenda := [], mem := [(5, 7)] } : State).mem = true ∧
    ∃ t, step { State.reset with phase := 193, agenda := [], mem := [(5, 7)] } = .next t :=
  ⟨rfl, exists_next (by decide +kernel)⟩

/-- An outcome is a next state whose bundle has not trapped. -/
theorem next_untrapped {o : Host.Outcome State Fault Refusal} (h : (nextState o).bind (fun t => t.cur.map Cur.verdict) = some .go) :
    ∃ t, o = .next t ∧ ∀ r, t.cur.map Cur.verdict ≠ some (.trap r) := by
  cases o with
  | next t => exact ⟨t, rfl, fun r hr => by have := h.symm.trans hr; simp at this⟩
  | fault _ => cases h
  | refused _ => cases h

/-- A team that ends a firing of a queue whose status block is at 0x30000. -/
def ending : State :=
  { queueWorld true with mem := pageTable, queues := [(3, { queue3 with cfg := some { qcfg with statusBlock := 0x30000 } })]
                         teams := [(2, { team with qbatch := 3, firing := true })] }

theorem witness_IssueFrame : (Instr.cxor always 1 (fl 1) (fl 1)).shape.isSome = true ∧ (on gang).Issues cur gang ∧
    (∃ t, exec (.cxor always 1 (fl 1) (fl 1)) (on gang) = .next t ∧ ∀ r, t.cur.map Cur.verdict ≠ some (.trap r)) ∧
    ∀ gd a b e, Instr.cxor always 1 (fl 1) (fl 1) ≠ .gset gd a b e := by
  refine ⟨rfl, on_issues _, next_untrapped (o := execCxor always 1 (fl 1) (fl 1) (on gang)) ?_, by intros; nofun⟩
  decide +kernel

/-- The first byte after the status block is none that the end of the firing writes. -/
theorem witness_IssueFrameFiring : (Instr.qdone always).shape.isSome = true ∧ ending.Issues cur queueing ∧ ending.mem.wf = true ∧
    (∃ t, exec (.qdone always) ending = .next t ∧ ∀ r, t.cur.map Cur.verdict ≠ some (.trap r)) ∧
    ¬FiringByte ending ending.walkHost queueing.team 0x30040 := by
  refine ⟨rfl, ⟨rfl, by decide, rfl, rfl⟩, by decide +kernel, next_untrapped (o := execQdone always ending) (by decide +kernel), ?_⟩
  rintro ⟨tm, cfg, ht, -, hc, -, h⟩
  obtain rfl : { team with qbatch := 3, firing := true } = tm := Option.some.inj ht
  obtain rfl : { qcfg with statusBlock := 0x30000 } = cfg := Option.some.inj hc
  have hw : ending.walkHost 1 0x30000 =
      .page { context := 1, base := 0, size := 2 ^ 24, kind := 0, frame := 0, sys := false, exec := true, write := true } [0x8000, 0x8800, 0x9000] := by
    decide +kernel
  rcases h with ⟨e, ls, h, -, -, -, hk⟩ | ⟨h, -⟩
  · obtain rfl : _ = e := (Trans.page.inj (hw.symm.trans h)).1
    revert hk; decide +kernel
  · have := h _ _ hw
    revert this; decide +kernel

/-- GSET of an item of the gang that is served, and of the action 0. -/
theorem witness_IssueFrameGset : ∀ n ∈ [11, 5], (Instr.gset always (r n) zero (r 2)).shape.isSome = true ∧
    (handlerWorld 0x0B 0).Issues cur (handling 1) ∧ (handlerWorld 0x0B 0).cores.wf = true ∧ (handlerWorld 0x0B 0).mem.wf = true ∧
    (∃ t, exec (.gset always (r n) zero (r 2)) (handlerWorld 0x0B 0) = .next t ∧ ∀ r, t.cur.map Cur.verdict ≠ some (.trap r)) ∧
    (∃ k, ((handling 1).effGroups always).head? = some k ∧
      (un (handlerWorld 0x0B 0) cur (handling 1) (r n) k = 0xFF ↔ n = 5)) ∧
    ((handlerWorld 0x0B 0).served 5).map Prod.fst = some 8 := by
  intro n hn
  simp only [List.mem_cons, List.not_mem_nil, or_false] at hn
  rcases hn with rfl | rfl <;>
    exact ⟨rfl, ⟨rfl, by decide, rfl, rfl⟩, rfl, rfl, next_untrapped (by show (nextState (execGset _ _ _ _ _)).bind _ = _; decide +kernel),
      ⟨0, by decide +kernel⟩, rfl⟩

/-! ## Witness: the step -/

/-- A bundle of operations, each in its slot, as the next of the gang of `State.withFetchWord`. -/
def placed (ops : List (Slot × Instr)) : State :=
  State.reset.withFetchWord 320 (2 ^ 319 + sumNat (ops.map fun p => ((encode p.2).get!).toNat * 2 ^ p.1.low))

/-- One operation, and one with another beside it. -/
def one : State := placed [(.s, .cxor always 1 (fl 1) (fl 1))]
def two : State := placed [(.s, .cxor always 1 (fl 1) (fl 1)), (.v0, .vmov always 9 zero)]

/-- What issues on core 0: the only gang that may, its bundle and the entry, and the state that they were found in. -/
def issuing (s : State) : Option (State × Nat × Gang × Fetched × Entry) :=
  match State.candidates { s with phase := 1 } 0 with
  | ([(gid, g, .go)], u) => match g.fetch with
    | .bundle b => match b.entry with
      | .usable e => some (u, gid, g, b, e)
      | .refused _ _ => none
    | _ => none
  | _ => none

theorem issuing_spec {s u : State} {gid : Nat} {g : Gang} {b : Fetched} {e : Entry} (h : issuing s = some (u, gid, g, b, e)) :
    State.candidates { s with phase := 1 } 0 = ([(gid, g, .go)], u) ∧ g.fetch = .bundle b ∧ b.entry = .usable e := by
  unfold issuing at h
  split at h
  · split at h
    · split at h
      · obtain ⟨rfl, rfl, rfl, rfl, rfl⟩ := by simpa using h
        exact ⟨‹_›, ‹_›, ‹_›⟩
      · cases h
    · cases h
  · cases h

/-- The state as a bundle found there issues, in a mode and with its operations. -/
def issued (x : State × Nat × Gang × Fetched × Entry) (mode : Mode) : State :=
  let (u, gid, g, b, e) := x
  let u := u.updCore 0 fun c => { c with readyAt := some u.time }
  let c : Cur :=
    { gid := gid, slot := .s, pos := g.pos, next := b.next, imms := b.imms, mode := mode, verdict := .go
      snap := if mode = .whole then none else some g, bundle := u.bundles, ops := e.ops, ready := [], claims := [] }
  ({ u with cur := some c, bundles := u.bundles + 1 } : State).putGang gid (g.issued b.next u.time)

/-- An outcome is a next state that does not park for a register. -/
def runs (o : Host.Outcome State Fault Refusal) : Bool := (nextState o).any fun t =>
  match t.cur.map Cur.verdict with
  | some (.hold (.registers _)) => false
  | _ => true

/-- The first event of the agenda, two from the outside, and one after the issues of the cycle. -/
def dueAgenda : State := { one with agenda := [(0, .starvationBound 7)] }
def dueInput : State := { one with agenda := [], inputs := [(0, .halt)] }
def dueRing : State := { one with agenda := [], inputs := [(0, .doorbell 1), (0, .halt), (0, .resync 0)] }
def dueAfter : State := { one with agenda := [(1, .starvationBound 7)], phase := 193 }

theorem witness_StepRuns :
    (∀ s ∈ [one, two], Quiet s ∧ s.nextStop = none ∧ s.nextCore = some 0 ∧ (s.core 0).parked = [] ∧ (s.core (partnerOf 0)).parked = [] ∧
      (∀ x ∈ (s.core 0).refills.vals, x.stalled = false)) ∧
    (issuing one).any (fun x => x.2.2.2.2.ops.length == 1 && x.2.2.2.2.pop == 0 &&
      runs (exec (.cxor always 1 (fl 1) (fl 1)) (issued x .whole))) = true ∧
    (issuing two).any (fun x => x.2.2.2.2.ops.length == 2 &&
      runs ((issued x .commit).runOps .commit (effectOrder x.2.2.2.2.ops))) = true ∧
    (dueAgenda.agenda = [(0, .starvationBound 7)] ∧ dueAgenda.time = 0) ∧
    ((∀ p ∈ dueInput.agenda.head?, 2 * dueInput.time < p.1) ∧ dueInput.nextInput = some (0, .halt) ∧
      dueRing.nextInput = some (0, .resync 0) ∧ (0, Event.resync 0) ∈ dueRing.inputs) ∧
    ((∀ p ∈ dueAfter.agenda.head?, 2 * dueAfter.time < p.1) ∧ (∀ p ∈ dueAfter.inputs, dueAfter.time < p.1) ∧ 193 ≤ dueAfter.phase) ∧
    (let s : State := { one with phase := 191, cores := [] }; Quiet s ∧ s.nextStop = none ∧ s.nextCore = none) := by
  unfold Quiet; decide +kernel

/-! ## The spec's worked examples -/

/-- The encoding chapter's example `exit?!c3`, and the V0 word of the vector notes' FFMA chain. -/
theorem test_words : encode (.exit ⟨true, 3⟩) = some 0xD92000000000 ∧
    encode (.ffma always 30 ⟨false, .lv0⟩ (r 1) (r 21)) = some 0x810C1E410115 := by decide +kernel

/-- The number notes, E4M3 near the top of its range: 0.3, 448, 464, 465 and 500 without and with SAT. -/
theorem test_narrow_e4m3 :
    ([0x3E99999A, 0x43E00000, 0x43E80000, 0x43E88000, 0x43FA0000] : List Nat).map (narrow 0x04 .e4m3 .rne false) =
      [(0x2A, flagNX), (0x7E, 0), (0x7E, flagNX), (0x7F, flagOF ||| flagNX), (0x7F, flagOF ||| flagNX)] ∧
    narrow 0x804 .e4m3 .rne true 0x43E88000 = (0x7E, flagOF ||| flagNX) := by decide +kernel

/-- The number notes, a scaled slot: 10.0, 0.01 and 20.0 into slot 3 with scale 2 to the -5, and the code 0x7A read back. -/
theorem test_scaled_slot :
    ([0x41200000, 0x3C23D70A, 0x41A00000] : List Nat).map (narrow 0x7A1804 .e4m3 .rne true) =
      [(0x7A, 0), (0x2A, flagNX), (0x7E, flagOF ||| flagNX)] ∧
    widen 0x7A1804 .e4m3 0x7A = (0x41200000, 0) := by decide +kernel

/-- The number notes, error feedback: steps 1, 2, 3 and 4 of 1.03125 into E4M3. -/
theorem test_error_feedback :
    feedback 0x804 .e4m3 0x3F840000 0 = (0x38, 0x3D000000, flagNX) ∧
    feedback 0x804 .e4m3 0x3F840000 0x3D000000 = (0x38, 0x3D800000, flagNX) ∧
    feedback 0x804 .e4m3 0x3F840000 0x3D800000 = (0x39, 0xBD000000, flagNX) ∧
    (feedback 0x804 .e4m3 0x3F840000 0xBD000000).1 = 0x38 := by decide +kernel

/-- The number notes, one MMA chunk by hand: both chunks leave 1 + 2 to the -22. -/
theorem test_mma_chunk :
    let p := fun (n : Bool) (m : Nat) (e : Int) => FVal.fin n m e
    accumulate fp32 0x3F800000 (chunkSum (List.replicate 4 (p false 1 (-12), p false 1 (-12)))) = 0x3F800002 ∧
    accumulate fp32 0x3F800002 (chunkSum [(p false 1 4, p false 1 4), (p false 1 (-12), p false 1 (-12)),
      (p true 1 4, p false 1 4), (p false 0 0, p false 1 0)]) = 0x3F800002 := by decide +kernel

/-- The vector notes, reducing and scanning a group: the tree gives 16,777,230, and the scan in lane order 16,777,216. -/
theorem test_vred_tree :
    (reduceTree (redFn .fadd .rne) 6 ((0x4B800000, true) :: List.replicate 15 (0x3F800000, true))).1 = 0x4B800007 ∧
    ((scanLanes .rne (fun p => if p = 0 then 0x4B800000 else 0x3F800000) (List.range 16) 0x80000000).map fun x => x.2.1) =
      List.replicate 16 0x4B800000 := by decide +kernel

/-- FIPS 180-4's digest of `abc`. -/
theorem test_sha256 : natOfBytes (sha256 [0x61, 0x62, 0x63]).reverse =
    0xBA7816BF8F01CFEA414140DE5DAE2223B00361A396177A9CB410FF61F20015AD := by decide +kernel

/-- R71, R126: an ADD issued in a beat lands one beat later; 7 - 5 and the least integer plus 64. -/
theorem test_add_lands : ((nextState (execAdd always 9 (r 1) (r 2) (on gang))).bind fun t => (t.gang 1).map fun g => g.flights.map fun f =>
    (f.dest, f.land, f.vals)) = some [(.s 9, (on gang).beat + 1, [(0, 2), (1, 0x8000000000000040)])] := by decide +kernel

/-- R128: a shift amount is taken modulo 64, so a shift by 64 leaves the register as it is. -/
theorem test_shl_by_64 : ((nextState (execShl ⟨false, 0⟩ 9 (r 1) (r 2) (on { gang with active := 2 }))).bind fun t => (t.gang 1).map fun g =>
    g.flights.map fun f => f.vals) = some [[(1, 0x8000000000000000)]] := by decide +kernel

/-! ## Ill-formed terms -/

/-- The roles that fields take (R98, R100): a lane number as a scalar, a scalar latch as a vector, a vector latch in the
wrong map, a team number in a pair, a register as a condition, condition 0 as a destination, a diagonal in MMA. -/
theorem test_roles_refused :
    (Instr.add always 1 ⟨false, .lane⟩ (r 1)).wf = false ∧ (Instr.add always 1 (r 32) (r 1)).wf = false ∧
    (Instr.vadd always 1 ⟨false, .ls⟩ (r 1)).wf = false ∧ (Instr.add always 1 ⟨false, .lv0⟩ (r 1)).wf = false ∧
    (Instr.dadd always 2 ⟨false, .team⟩ (r 4)).wf = false ∧ (Instr.cand always 1 (r 1) (fl 1)).wf = false ∧
    (Instr.pand always 1 (fl 1) (r 1)).wf = false ∧ (Instr.cand always 0 (fl 1) (fl 1)).wf = false ∧
    (Instr.pand always 0 (fl 1) (fl 1)).wf = false ∧
    (Instr.mma always 0 ⟨.diagonal, 1⟩ 2 ⟨0, 0, .full⟩).wf = false ∧
    (Instr.cand always 1 (fl 1) (fl 1)).wf = true := by decide +kernel

/-- The places of an entry (R110): another map's slot, an immediate that the entry lacks, a slot or an image that may not
hold the operation, an odd pair, a special register that may not be written; and an event, which no slot holds. -/
theorem test_places_refused :
    (Instr.add always 1 (r 1) (r 2)).wfIn .v0 false 4 = false ∧ (Instr.add always 1 (r 1) (im 2)).wfIn .s false 2 = false ∧
    (Instr.gstate always 1 (r 1) (r 2)).wfIn .c0 false 0 = false ∧ (Instr.gstate always 1 (r 1) (r 2)).wfIn .c0 true 0 = true ∧
    (Instr.gstate always 1 (r 1) (r 2)).wfIn .c1 true 0 = false ∧
    (Instr.dadd always 3 (r 4) (r 6)).wfIn .v0 false 0 = false ∧ (Instr.wrsr always 1 (r 1)).wfIn .s false 0 = false ∧
    (Instr.wrsr always 2 (r 1)).wfIn .s false 0 = true ∧ (Instr.halt).wfIn .s false 0 = false := by decide +kernel

/-! ## Words decoded -/

/-- Words of the table, as numbers, decode to the instructions beside them. -/
def decodesTo (l : List (Nat × Instr)) : Bool := l.all fun p => decide (decodeTableWord 320 p.1 = some p.2)

/-- ADD, SUB, MUL, MULH, MULHW, DIV, DIVW, REM, REMW, AND, OR, XOR: words laid out from R95, R96 and the S map of R112, with four immediates. -/
theorem test_decode_s_1 : decodesTo
    [(0xC0000000A0040EC9D800000000000000000000000000000000000000000000000000000000000000, .add ⟨false, 4⟩ 14 ⟨true, .qh 1⟩ ⟨true, .zero⟩),
     (0xC0000000B008100BC000000000000000000000000000000000000000000000000000000000000000, .sub ⟨false, 6⟩ 16 ⟨false, .reg 11⟩ ⟨true, .ls⟩),
     (0xC0000000B00C109C5100000000000000000000000000000000000000000000000000000000000000, .mul ⟨false, 6⟩ 16 ⟨true, .reg 28⟩ ⟨false, .imm 1⟩),
     (0xC0000000E81010100600000000000000000000000000000000000000000000000000000000000000, .mulh ⟨true, 5⟩ 16 ⟨false, .reg 16⟩ ⟨false, .reg 6⟩),
     (0xC0000000801412444000000000000000000000000000000000000000000000000000000000000000, .mulhw ⟨false, 0⟩ 18 ⟨false, .lc1⟩ ⟨false, .ls⟩),
     (0xC000000080180F884400000000000000000000000000000000000000000000000000000000000000, .div ⟨false, 0⟩ 15 ⟨true, .reg 8⟩ ⟨false, .lc1⟩),
     (0xC0000000E01C1F179400000000000000000000000000000000000000000000000000000000000000, .divw ⟨true, 4⟩ 31 ⟨false, .reg 23⟩ ⟨true, .reg 20⟩),
     (0xC0000000A020179F9A00000000000000000000000000000000000000000000000000000000000000, .rem ⟨false, 4⟩ 23 ⟨true, .reg 31⟩ ⟨true, .reg 26⟩),
     (0xC0000000F82404D34400000000000000000000000000000000000000000000000000000000000000, .remw ⟨true, 7⟩ 4 ⟨true, .imm 3⟩ ⟨false, .lc1⟩),
     (0xC0000000A8281403D800000000000000000000000000000000000000000000000000000000000000, .and ⟨false, 5⟩ 20 ⟨false, .reg 3⟩ ⟨true, .zero⟩),
     (0xC0000000A82C0DC3D300000000000000000000000000000000000000000000000000000000000000, .or ⟨false, 5⟩ 13 ⟨true, .lc0⟩ ⟨true, .imm 3⟩),
     (0xC0000000F83014CA8800000000000000000000000000000000000000000000000000000000000000, .xor ⟨true, 7⟩ 20 ⟨true, .qh 2⟩ ⟨true, .reg 8⟩)] = true := by decide +kernel

/-- ANDN, SHL, SHR, SAR, ROL, MIN, MAX, MINW, MAXW, CLZ, CNT, SEL: words laid out from R95, R96 and the S map of R112, with four immediates. -/
theorem test_decode_s_2 : decodesTo
    [(0xC0000000C83406DAC400000000000000000000000000000000000000000000000000000000000000, .andn ⟨true, 1⟩ 6 ⟨true, .grp⟩ ⟨true, .lc1⟩),
     (0xC0000000E838019DC800000000000000000000000000000000000000000000000000000000000000, .shl ⟨true, 5⟩ 1 ⟨true, .reg 29⟩ ⟨true, .qh 0⟩),
     (0xC0000000C03C1B528D00000000000000000000000000000000000000000000000000000000000000, .shr ⟨true, 0⟩ 27 ⟨false, .imm 2⟩ ⟨true, .reg 13⟩),
     (0xC0000000E040080CDB00000000000000000000000000000000000000000000000000000000000000, .sar ⟨true, 4⟩ 8 ⟨false, .reg 12⟩ ⟨true, .team⟩),
     (0xC0000000B0441786D000000000000000000000000000000000000000000000000000000000000000, .rol ⟨false, 6⟩ 23 ⟨true, .reg 6⟩ ⟨true, .imm 0⟩),
     (0xC0000000C04814171700000000000000000000000000000000000000000000000000000000000000, .min ⟨true, 0⟩ 20 ⟨false, .reg 23⟩ ⟨false, .reg 23⟩),
     (0xC0000000B84C07439E00000000000000000000000000000000000000000000000000000000000000, .max ⟨false, 7⟩ 7 ⟨false, .lc0⟩ ⟨true, .reg 30⟩),
     (0xC0000000E85013499700000000000000000000000000000000000000000000000000000000000000, .minw ⟨true, 5⟩ 19 ⟨false, .qh 1⟩ ⟨true, .reg 23⟩),
     (0xC0000000B85417850200000000000000000000000000000000000000000000000000000000000000, .maxw ⟨false, 7⟩ 23 ⟨true, .reg 5⟩ ⟨false, .reg 2⟩),
     (0xC0000000B0580F8F0000000000000000000000000000000000000000000000000000000000000000, .clz ⟨false, 6⟩ 15 ⟨true, .reg 15⟩),
     (0xC0000000C05C1F110000000000000000000000000000000000000000000000000000000000000000, .cnt ⟨true, 0⟩ 31 ⟨false, .reg 17⟩),
     (0xC000000088600B1FD0E0000000000000000000000000000000000000000000000000000000000000, .sel ⟨false, 1⟩ 11 ⟨false, .reg 31⟩ ⟨true, .imm 0⟩ ⟨true, .flag 0⟩)] = true := by decide +kernel

/-- MOV, LI, LIH, CEQ, CNE, CLT, CLE, CLTW, CLEW, CAND, COR, CXOR: words laid out from R95, R96 and the S map of R112, with four immediates. -/
theorem test_decode_s_3 : decodesTo
    [(0xC0000000B8641E0F0000000000000000000000000000000000000000000000000000000000000000, .mov ⟨false, 7⟩ 30 ⟨false, .reg 15⟩),
     (0xC0000000E06816530000000000000000000000000000000000000000000000000000000000000000, .li ⟨true, 4⟩ 22 3),
     (0xC0000000B86C1E405200000000000000000000000000000000000000000000000000000000000000, .lih ⟨false, 7⟩ 30 ⟨false, .ls⟩ 2),
     (0xC0000000F88063445300000000000000000000000000000000000000000000000000000000000000, .ceq ⟨true, 7⟩ 3 ⟨false, .lc1⟩ ⟨false, .imm 3⟩),
     (0xC0000000C88464DB5C00000000000000000000000000000000000000000000000000000000000000, .cne ⟨true, 1⟩ 4 ⟨true, .team⟩ ⟨false, .gwid⟩),
     (0xC0000000C888665CC800000000000000000000000000000000000000000000000000000000000000, .clt ⟨true, 1⟩ 6 ⟨false, .gwid⟩ ⟨true, .qh 0⟩),
     (0xC0000000808C66CB8100000000000000000000000000000000000000000000000000000000000000, .cle ⟨false, 0⟩ 6 ⟨true, .qh 3⟩ ⟨true, .reg 1⟩),
     (0xC0000000D8906498DA00000000000000000000000000000000000000000000000000000000000000, .cltw ⟨true, 3⟩ 4 ⟨true, .reg 24⟩ ⟨true, .grp⟩),
     (0xC0000000D8946753DA00000000000000000000000000000000000000000000000000000000000000, .clew ⟨true, 3⟩ 7 ⟨false, .imm 3⟩ ⟨true, .grp⟩),
     (0xC0000000B89863666100000000000000000000000000000000000000000000000000000000000000, .cand ⟨false, 7⟩ 3 ⟨false, .flag 6⟩ ⟨false, .flag 1⟩),
     (0xC0000000A09C66676400000000000000000000000000000000000000000000000000000000000000, .cor ⟨false, 4⟩ 6 ⟨false, .flag 7⟩ ⟨false, .flag 4⟩),
     (0xC0000000E8A06264E200000000000000000000000000000000000000000000000000000000000000, .cxor ⟨true, 5⟩ 2 ⟨false, .flag 4⟩ ⟨true, .flag 2⟩)] = true := by decide +kernel

/-- CANY, CEVERY, BR, BRC, BRD, JOIN, CALL, RET, LOOP, BRX, EXIT, FREEZE: words laid out from R95, R96 and the S map of R112, with four immediates. -/
theorem test_decode_s_4 : decodesTo
    [(0xC000000080A462E30000000000000000000000000000000000000000000000000000000000000000, .cany ⟨false, 0⟩ 2 ⟨true, .flag 3⟩),
     (0xC0000000C0A863660000000000000000000000000000000000000000000000000000000000000000, .cevery ⟨true, 0⟩ 3 ⟨false, .flag 6⟩),
     (0xC0000000F90000520000000000000000000000000000000000000000000000000000000000000000, .br ⟨true, 7⟩ 2),
     (0xC0000000A10500625200000000000000000000000000000000000000000000000000000000000000, .brc ⟨false, 4⟩ true ⟨false, .flag 2⟩ 2),
     (0xC0000000910800645253000000000000000000000000000000000000000000000000000000000000, .brd ⟨false, 2⟩ ⟨false, .flag 4⟩ 2 3),
     (0xC0000000E10C00000000000000000000000000000000000000000000000000000000000000000000, .join ⟨true, 4⟩),
     (0xC0000000F11000510000000000000000000000000000000000000000000000000000000000000000, .call ⟨true, 6⟩ 1),
     (0xC0000000A91400000000000000000000000000000000000000000000000000000000000000000000, .ret ⟨false, 5⟩),
     (0xC0000000B118160C5000000000000000000000000000000000000000000000000000000000000000, .loop ⟨false, 6⟩ 22 ⟨false, .reg 12⟩ 0),
     (0xC0000000991C00C80000000000000000000000000000000000000000000000000000000000000000, .brx ⟨false, 3⟩ ⟨true, .qh 0⟩),
     (0xC0000000992000000000000000000000000000000000000000000000000000000000000000000000, .exit ⟨false, 3⟩),
     (0xC0000000D12400000000000000000000000000000000000000000000000000000000000000000000, .freeze ⟨true, 2⟩)] = true := by decide +kernel

/-- YIELD, SLEEP, TRAP, RDSR, WRSR: words laid out from R95, R96 and the S map of R112, with four immediates. -/
theorem test_decode_s_5 : decodesTo
    [(0xC0000000E92800000000000000000000000000000000000000000000000000000000000000000000, .yield ⟨true, 5⟩),
     (0xC0000000A12C00C40000000000000000000000000000000000000000000000000000000000000000, .sleep ⟨false, 4⟩ ⟨true, .lc1⟩),
     (0xC0000000993000510000000000000000000000000000000000000000000000000000000000000000, .trap ⟨false, 3⟩ 1),
     (0xC0000000D13401030000000000000000000000000000000000000000000000000000000000000000, .rdsr ⟨true, 2⟩ 1 3),
     (0xC0000000A93804D80000000000000000000000000000000000000000000000000000000000000000, .wrsr ⟨false, 5⟩ 4 ⟨true, .zero⟩)] = true := by decide +kernel

/-- VADD, VSUB, VMUL, VMULH, VAND, VOR, VXOR, VSHL, VSHR, VSAR, VMIN, VMAX: words laid out from R95, R96 and the V map of R112, with four immediates. -/
theorem test_decode_v_1 : decodesTo
    [(0xC0000000000000000000000000000000800423034100000000000000000000000000000000000000, .vadd ⟨false, 0⟩ 35 ⟨false, .reg 3⟩ ⟨false, .lv0⟩),
     (0xC0000000000000000000C8082A5BC200000000000000000000000000000000000000000000000000, .vsub ⟨true, 1⟩ 42 ⟨false, .team⟩ ⟨true, .lv1⟩),
     (0xC0000000000000000000F00C380F0200000000000000000000000000000000000000000000000000, .vmul ⟨true, 6⟩ 56 ⟨false, .reg 15⟩ ⟨false, .reg 2⟩),
     (0xC0000000000000000000000000000000C8103A5BA200000000000000000000000000000000000000, .vmulh ⟨true, 1⟩ 58 ⟨false, .team⟩ ⟨true, .reg 34⟩),
     (0xC0000000000000000000000000000000D81809584800000000000000000000000000000000000000, .vand ⟨true, 3⟩ 9 ⟨false, .zero⟩ ⟨false, .qh 0⟩),
     (0xC0000000000000000000B81C0C9ECA00000000000000000000000000000000000000000000000000, .vor ⟨false, 7⟩ 12 ⟨true, .reg 30⟩ ⟨true, .qh 2⟩),
     (0xC0000000000000000000000000000000E020134B4900000000000000000000000000000000000000, .vxor ⟨true, 4⟩ 19 ⟨false, .qh 3⟩ ⟨false, .qh 1⟩),
     (0xC0000000000000000000000000000000F0243DD22600000000000000000000000000000000000000, .vshl ⟨true, 6⟩ 61 ⟨true, .imm 2⟩ ⟨false, .reg 38⟩),
     (0xC0000000000000000000A82812A35000000000000000000000000000000000000000000000000000, .vshr ⟨false, 5⟩ 18 ⟨true, .reg 35⟩ ⟨false, .imm 0⟩),
     (0xC0000000000000000000982C29CA4A00000000000000000000000000000000000000000000000000, .vsar ⟨false, 3⟩ 41 ⟨true, .qh 2⟩ ⟨false, .qh 2⟩),
     (0xC0000000000000000000C83002D22000000000000000000000000000000000000000000000000000, .vmin ⟨true, 1⟩ 2 ⟨true, .imm 2⟩ ⟨false, .reg 32⟩),
     (0xC0000000000000000000D0342B33A900000000000000000000000000000000000000000000000000, .vmax ⟨true, 2⟩ 43 ⟨false, .reg 51⟩ ⟨true, .reg 41⟩)] = true := by decide +kernel

/-- VMINW, VMAXW, VMAD, VABS, VCLZ, VCNT, VMOV, VSEL, VLI, VCEQ, VCNE, VCLT: words laid out from R95, R96 and the V map of R112, with four immediates. -/
theorem test_decode_v_2 : decodesTo
    [(0xC0000000000000000000F0381E3C0200000000000000000000000000000000000000000000000000, .vminw ⟨true, 6⟩ 30 ⟨false, .reg 60⟩ ⟨false, .reg 2⟩),
     (0xC0000000000000000000000000000000F83C20503800000000000000000000000000000000000000, .vmaxw ⟨true, 7⟩ 32 ⟨false, .imm 0⟩ ⟨false, .reg 56⟩),
     (0xC0000000000000000000B014235019D1000000000000000000000000000000000000000000000000, .vmad ⟨false, 6⟩ 35 ⟨false, .imm 0⟩ ⟨false, .reg 25⟩ ⟨true, .imm 1⟩),
     (0xC0000000000000000000000000000000D04035410000000000000000000000000000000000000000, .vabs ⟨true, 2⟩ 53 ⟨false, .lv0⟩),
     (0xC0000000000000000000000000000000E8440DB00000000000000000000000000000000000000000, .vclz ⟨true, 5⟩ 13 ⟨true, .reg 48⟩),
     (0xC0000000000000000000000000000000E84822890000000000000000000000000000000000000000, .vcnt ⟨true, 5⟩ 34 ⟨true, .reg 9⟩),
     (0xC000000000000000000000000000000080501E580000000000000000000000000000000000000000, .vmov ⟨false, 0⟩ 30 ⟨false, .zero⟩),
     (0xC0000000000000000000000000000000C04C1C81B3E5000000000000000000000000000000000000, .vsel ⟨true, 0⟩ 28 ⟨true, .reg 1⟩ ⟨true, .reg 51⟩ ⟨true, .flag 5⟩),
     (0xC0000000000000000000000000000000E85431530000000000000000000000000000000000000000, .vli ⟨true, 5⟩ 49 3),
     (0xC0000000000000000000000000000000D080634B5800000000000000000000000000000000000000, .vceq ⟨true, 2⟩ 3 ⟨false, .qh 3⟩ ⟨false, .zero⟩),
     (0xC0000000000000000000000000000000E08461A1D800000000000000000000000000000000000000, .vcne ⟨true, 4⟩ 1 ⟨true, .reg 33⟩ ⟨true, .zero⟩),
     (0xC0000000000000000000000000000000F888633F0900000000000000000000000000000000000000, .vclt ⟨true, 7⟩ 3 ⟨false, .reg 63⟩ ⟨false, .reg 9⟩)] = true := by decide +kernel

/-- VCLE, VCLTW, VCLEW, FCEQ, FCLT, FCLE, FCUN, DCEQ, DCLT, DCLE, PAND, POR: words laid out from R95, R96 and the V map of R112, with four immediates. -/
theorem test_decode_v_3 : decodesTo
    [(0xC0000000000000000000000000000000888C63383300000000000000000000000000000000000000, .vcle ⟨false, 1⟩ 3 ⟨false, .reg 56⟩ ⟨false, .reg 51⟩),
     (0xC0000000000000000000B09065141900000000000000000000000000000000000000000000000000, .vcltw ⟨false, 6⟩ 5 ⟨false, .reg 20⟩ ⟨false, .reg 25⟩),
     (0xC0000000000000000000000000000000A89461C9AD00000000000000000000000000000000000000, .vclew ⟨false, 5⟩ 1 ⟨true, .qh 1⟩ ⟨true, .reg 45⟩),
     (0xC0000000000000000000909866D25000000000000000000000000000000000000000000000000000, .fceq ⟨false, 2⟩ 6 ⟨true, .imm 2⟩ ⟨false, .imm 0⟩),
     (0xC0000000000000000000000000000000E89C64124900000000000000000000000000000000000000, .fclt ⟨true, 5⟩ 4 ⟨false, .reg 18⟩ ⟨false, .qh 1⟩),
     (0xC0000000000000000000C8A062C15300000000000000000000000000000000000000000000000000, .fcle ⟨true, 1⟩ 2 ⟨true, .lv0⟩ ⟨false, .imm 3⟩),
     (0xC0000000000000000000E8A4658D0E00000000000000000000000000000000000000000000000000, .fcun ⟨true, 5⟩ 5 ⟨true, .reg 13⟩ ⟨false, .reg 14⟩),
     (0xC0000000000000000000A8A8668E8C00000000000000000000000000000000000000000000000000, .dceq ⟨false, 5⟩ 6 ⟨true, .reg 14⟩ ⟨true, .reg 12⟩),
     (0xC0000000000000000000000000000000C0AC62AE1A00000000000000000000000000000000000000, .dclt ⟨true, 0⟩ 2 ⟨true, .reg 46⟩ ⟨false, .reg 26⟩),
     (0xC000000000000000000000000000000098B0620E3800000000000000000000000000000000000000, .dcle ⟨false, 3⟩ 2 ⟨false, .reg 14⟩ ⟨false, .reg 56⟩),
     (0xC0000000000000000000A0C06562E500000000000000000000000000000000000000000000000000, .pand ⟨false, 4⟩ 5 ⟨false, .flag 2⟩ ⟨true, .flag 5⟩),
     (0xC0000000000000000000000000000000E0C464676400000000000000000000000000000000000000, .por ⟨true, 4⟩ 4 ⟨false, .flag 7⟩ ⟨false, .flag 4⟩)] = true := by decide +kernel

/-- PXOR, PANDN, PMOV, FADD, FSUB, FMUL, FMIN, FMAX, FFMA, FFMS, FNMA, FABS: words laid out from R95, R96 and the V map of R112, with four immediates. -/
theorem test_decode_v_4 : decodesTo
    [(0xC0000000000000000000D8C86762E300000000000000000000000000000000000000000000000000, .pxor ⟨true, 3⟩ 7 ⟨false, .flag 2⟩ ⟨true, .flag 3⟩),
     (0xC0000000000000000000C8CC6265E000000000000000000000000000000000000000000000000000, .pandn ⟨true, 1⟩ 2 ⟨false, .flag 5⟩ ⟨true, .flag 0⟩),
     (0xC0000000000000000000000000000000F0D063E70000000000000000000000000000000000000000, .pmov ⟨true, 6⟩ 3 ⟨true, .flag 7⟩),
     (0xC0000000000000000000000000000000890036B65B00000000000000000000000000000000000000, .fadd ⟨false, 1⟩ 54 ⟨true, .reg 54⟩ ⟨false, .team⟩),
     (0xC0000000000000000000000000000000A90401C49900000000000000000000000000000000000000, .fsub ⟨false, 5⟩ 1 ⟨true, .lc1⟩ ⟨true, .reg 25⟩),
     (0xC0000000000000000000B1081BCB8700000000000000000000000000000000000000000000000000, .fmul ⟨false, 6⟩ 27 ⟨true, .qh 3⟩ ⟨true, .reg 7⟩),
     (0xC0000000000000000000E91836CBDC00000000000000000000000000000000000000000000000000, .fmin ⟨true, 5⟩ 54 ⟨true, .qh 3⟩ ⟨true, .gwid⟩),
     (0xC0000000000000000000A11C0F598B00000000000000000000000000000000000000000000000000, .fmax ⟨false, 4⟩ 15 ⟨false, .lane⟩ ⟨true, .reg 11⟩),
     (0xC0000000000000000000A10C10442A1E000000000000000000000000000000000000000000000000, .ffma ⟨false, 4⟩ 16 ⟨false, .lc1⟩ ⟨false, .reg 42⟩ ⟨false, .reg 30⟩),
     (0xC00000000000000000008910273D0493000000000000000000000000000000000000000000000000, .ffms ⟨false, 1⟩ 39 ⟨false, .reg 61⟩ ⟨false, .reg 4⟩ ⟨true, .reg 19⟩),
     (0xC000000000000000000089140E104A2A000000000000000000000000000000000000000000000000, .fnma ⟨false, 1⟩ 14 ⟨false, .reg 16⟩ ⟨false, .qh 2⟩ ⟨false, .reg 42⟩),
     (0xC0000000000000000000E9200B8D0000000000000000000000000000000000000000000000000000, .fabs ⟨true, 5⟩ 11 ⟨true, .reg 13⟩)] = true := by decide +kernel

/-- FNEG, FRCP, FRSQ, FSQRT, FEXP2, FLOG2, FRND, DADD, DSUB, DMUL, DFMA, DRCP: words laid out from R95, R96 and the V map of R112, with four immediates. -/
theorem test_decode_v_5 : decodesTo
    [(0xC0000000000000000000D1240A370000000000000000000000000000000000000000000000000000, .fneg ⟨true, 2⟩ 10 ⟨false, .reg 55⟩),
     (0xC000000000000000000089281A220000000000000000000000000000000000000000000000000000, .frcp ⟨false, 1⟩ 26 ⟨false, .reg 34⟩),
     (0xC0000000000000000000000000000000D12C120D0000000000000000000000000000000000000000, .frsq ⟨true, 2⟩ 18 ⟨false, .reg 13⟩),
     (0xC0000000000000000000000000000000893038DA0000000000000000000000000000000000000000, .fsqrt ⟨false, 1⟩ 56 ⟨true, .grp⟩),
     (0xC0000000000000000000913435C90000000000000000000000000000000000000000000000000000, .fexp2 ⟨false, 2⟩ 53 ⟨true, .qh 1⟩),
     (0xC0000000000000000000000000000000F9382BB80000000000000000000000000000000000000000, .flog2 ⟨true, 7⟩ 43 ⟨true, .reg 56⟩),
     (0xC0000000000000000000993F1BCA0000000000000000000000000000000000000000000000000000, .frnd ⟨false, 3⟩ .rd 27 ⟨true, .qh 2⟩),
     (0xC0000000000000000000000000000000B18012320C00000000000000000000000000000000000000, .dadd ⟨false, 6⟩ 18 ⟨false, .reg 50⟩ ⟨false, .reg 12⟩),
     (0xC0000000000000000000F98400009E00000000000000000000000000000000000000000000000000, .dsub ⟨true, 7⟩ 0 ⟨false, .reg 0⟩ ⟨true, .reg 30⟩),
     (0xC0000000000000000000E1883C0A2000000000000000000000000000000000000000000000000000, .dmul ⟨true, 4⟩ 60 ⟨false, .reg 10⟩ ⟨false, .reg 32⟩),
     (0xC0000000000000000000000000000000F98C202480BA000000000000000000000000000000000000, .dfma ⟨true, 7⟩ 32 ⟨false, .reg 36⟩ ⟨true, .reg 0⟩ ⟨true, .reg 58⟩),
     (0xC0000000000000000000000000000000A19018240000000000000000000000000000000000000000, .drcp ⟨false, 4⟩ 24 ⟨false, .reg 36⟩)] = true := by decide +kernel

/-- DRSQ, DSQRT, HADD2, HMUL2, HFMA2, CVTIF, CVTFI, CVTFD, CVTDF, CVTN, CVTW, VSHF: words laid out from R95, R96 and the V map of R112, with four immediates. -/
theorem test_decode_v_6 : decodesTo
    [(0xC0000000000000000000A99404880000000000000000000000000000000000000000000000000000, .drsq ⟨false, 5⟩ 4 ⟨true, .reg 8⟩),
     (0xC0000000000000000000999828940000000000000000000000000000000000000000000000000000, .dsqrt ⟨false, 3⟩ 40 ⟨true, .reg 20⟩),
     (0xC000000000000000000091C11B9BCB00000000000000000000000000000000000000000000000000, .hadd2 ⟨false, 2⟩ true 27 ⟨true, .reg 27⟩ ⟨true, .qh 3⟩),
     (0xC0000000000000000000000000000000E1C524D0A600000000000000000000000000000000000000, .hmul2 ⟨true, 4⟩ true 36 ⟨true, .imm 0⟩ ⟨true, .reg 38⟩),
     (0xC000000000000000000081C90A89BC10000000000000000000000000000000000000000000000000, .hfma2 ⟨false, 0⟩ true 10 ⟨true, .reg 9⟩ ⟨true, .reg 60⟩ ⟨false, .reg 16⟩),
     (0xC0000000000000000000C201131D0000000000000000000000000000000000000000000000000000, .cvtif ⟨true, 0⟩ true 19 ⟨false, .reg 29⟩),
     (0xC0000000000000000000BA0638910000000000000000000000000000000000000000000000000000, .cvtfi ⟨false, 7⟩ ⟨false, true⟩ 56 ⟨true, .reg 17⟩),
     (0xC0000000000000000000FA0802490000000000000000000000000000000000000000000000000000, .cvtfd ⟨true, 7⟩ 2 ⟨false, .qh 1⟩),
     (0xC0000000000000000000920C1A200000000000000000000000000000000000000000000000000000, .cvtdf ⟨false, 2⟩ 26 ⟨false, .reg 32⟩),
     (0xC00000000000000000009A12060E03AB000000000000000000000000000000000000000000000000, .cvtn ⟨false, 3⟩ 6 ⟨false, .reg 14⟩ ⟨0, 3⟩ (.ef 43 true)),
     (0xC00000000000000000000000000000008A1423A61800000000000000000000000000000000000000, .cvtw ⟨false, 1⟩ 35 ⟨true, .reg 38⟩ ⟨3, 0⟩),
     (0xC0000000000000000000000000000000DA403AD05295000000000000000000000000000000000000, .vshf ⟨true, 3⟩ 58 ⟨true, .imm 0⟩ ⟨false, .imm 2⟩ ⟨true, .reg 21⟩)] = true := by decide +kernel

/-- VBCAST, VROT, VRED, VSCAN, VRDX, VWRX: words laid out from R95, R96 and the V map of R112, with four immediates. -/
theorem test_decode_v_7 : decodesTo
    [(0xC0000000000000000000000000000000B2442FD18100000000000000000000000000000000000000, .vbcast ⟨false, 6⟩ 47 ⟨true, .imm 1⟩ ⟨true, .reg 1⟩),
     (0xC0000000000000000000E2483EC8BF00000000000000000000000000000000000000000000000000, .vrot ⟨true, 4⟩ 62 ⟨true, .qh 0⟩ ⟨true, .reg 63⟩),
     (0xC0000000000000000000000000000000BA4E0DA90000000000000000000000000000000000000000, .vred ⟨false, 7⟩ .fmax 13 ⟨true, .reg 41⟩),
     (0xC0000000000000000000000000000000FA5039BF0000000000000000000000000000000000000000, .vscan ⟨true, 7⟩ 57 ⟨true, .reg 63⟩),
     (0xC0000000000000000000C25408050000000000000000000000000000000000000000000000000000, .vrdx ⟨true, 0⟩ 8 ⟨false, .reg 5⟩),
     (0xC0000000000000000000000000000000F2580015A900000000000000000000000000000000000000, .vwrx ⟨true, 6⟩ ⟨false, .reg 21⟩ ⟨true, .reg 41⟩)] = true := by decide +kernel

/-- MMA, MMAZ, MDRAIN, MFILL, MZERO, HALLOC, HFREE, HPUB, HWAIT, HGIVE, HSHARE, HTAKE: words laid out from R95, R96 and the M map of R112, with four immediates. -/
theorem test_decode_m_1 : decodesTo
    [(0xC0000000000000000000000000000000000000000000880405693D85000000000000000000000000, .mma ⟨false, 1⟩ 5 ⟨.column, 41⟩ 61 ⟨4, 1, .half⟩),
     (0xC0000000000000000000000000000000000000000000B8080454173A000000000000000000000000, .mmaz ⟨false, 7⟩ 4 ⟨.column, 20⟩ 23 ⟨1, 6, .quarter⟩),
     (0xC0000000000000000000000000000000000000000000C00D2B080000000000000000000000000000, .mdrain ⟨true, 0⟩ true 43 8),
     (0xC0000000000000000000000000000000000000000000C0100A320000000000000000000000000000, .mfill ⟨true, 0⟩ 10 50),
     (0xC0000000000000000000000000000000000000000000D01408000000000000000000000000000000, .mzero ⟨true, 2⟩ 8),
     (0xC000000000000000000000000000000000000000000090431F000000000000000000000000000000, .halloc ⟨false, 2⟩ ⟨true, true⟩ 31),
     (0xC0000000000000000000000000000000000000000000984400010000000000000000000000000000, .hfree ⟨false, 3⟩ 1),
     (0xC0000000000000000000000000000000000000000000805800340000000000000000000000000000, .hpub ⟨false, 0⟩ 52),
     (0xC0000000000000000000000000000000000000000000A86000030000000000000000000000000000, .hwait ⟨false, 5⟩ 3),
     (0xC0000000000000000000000000000000000000000000B048003B9300000000000000000000000000, .hgive ⟨false, 6⟩ 59 ⟨true, .reg 19⟩ 0),
     (0xC0000000000000000000000000000000000000000000985000169100000000000000000000000000, .hshare ⟨false, 3⟩ 22 ⟨true, .reg 17⟩ 0),
     (0xC0000000000000000000000000000000000000000000B84C23000001000000000000000000000000, .htake ⟨false, 7⟩ 35 1)] = true := by decide +kernel

/-- HDUP, HINFO: words laid out from R95, R96 and the M map of R112, with four immediates. -/
theorem test_decode_m_2 : decodesTo
    [(0xC0000000000000000000000000000000000000000000985413150000000000000000000000000000, .hdup ⟨false, 3⟩ 19 21),
     (0xC0000000000000000000000000000000000000000000F85C0E3C0000000000000000000000000000, .hinfo ⟨true, 7⟩ 14 60)] = true := by decide +kernel

/-- LDS, LDSW, STS, LDV, LDVW, STV, LDVB, STVB, LDL, STL, ATADD, ATMIN: words laid out from R95, R96 and the C map of R112, with four immediates. -/
theorem test_decode_c_1 : decodesTo
    [(0xC00000000000000000000000000000000000000000000000000000009804178D8400000000000000, .lds ⟨false, 3⟩ .w1 23 ⟨true, .reg 13⟩ ⟨true, .reg 4⟩),
     (0xC0000000000000000000000000000000000000000000000000000000B80906539600000000000000, .ldsw ⟨false, 7⟩ .w2 6 ⟨false, .imm 3⟩ ⟨true, .reg 22⟩),
     (0xC0000000000000000000000000000000000000000000000000000000880D00D28CDB000000000000, .sts ⟨false, 1⟩ .w2 ⟨true, .imm 2⟩ ⟨true, .reg 12⟩ ⟨true, .team⟩),
     (0xC0000000000000000000000000000000000000000000000000000000F812149A5000000000000000, .ldv ⟨true, 7⟩ .w4 20 ⟨true, .reg 26⟩ ⟨false, .imm 0⟩),
     (0xC0000000000000000000000000000000000000000000000000000000000000000000C8153B9AC100, .ldvw ⟨true, 1⟩ .w2 59 ⟨true, .reg 26⟩ ⟨true, .lv0⟩),
     (0xC0000000000000000000000000000000000000000000000000000000D019005CACD1000000000000, .stv ⟨true, 2⟩ .w2 ⟨false, .gwid⟩ ⟨true, .reg 44⟩ ⟨true, .imm 1⟩),
     (0xC0000000000000000000000000000000000000000000000000000000E01E00490000000000000000, .ldvb ⟨true, 4⟩ 0 ⟨false, .qh 1⟩),
     (0xC00000000000000000000000000000000000000000000000000000000000000000009822009B00D1, .stvb ⟨false, 3⟩ ⟨true, .reg 27⟩ ⟨true, .imm 1⟩),
     (0xC0000000000000000000000000000000000000000000000000000000000000000000E8271C004900, .ldl ⟨true, 5⟩ .w8 28 ⟨false, .qh 1⟩),
     (0xC0000000000000000000000000000000000000000000000000000000000000000000E8290000C31C, .stl ⟨true, 5⟩ .w2 ⟨true, .lc0⟩ ⟨false, .reg 28⟩),
     (0xC0000000000000000000000000000000000000000000000000000000000000000000B042130AD090, .atadd ⟨false, 6⟩ .system 19 ⟨false, .reg 10⟩ ⟨true, .imm 0⟩ ⟨true, .reg 16⟩),
     (0xC0000000000000000000000000000000000000000000000000000000904516511841000000000000, .atmin ⟨false, 2⟩ .package 22 ⟨false, .imm 1⟩ ⟨false, .reg 24⟩ ⟨false, .lv0⟩)] = true := by decide +kernel

/-- ATMAX, ATMINW, ATMAXW, ATAND, ATOR, ATXOR, ATXCH, ATFADD, ATCAS, FACQ, FREL, FAR: words laid out from R95, R96 and the C map of R112, with four immediates. -/
theorem test_decode_c_2 : decodesTo
    [(0xC0000000000000000000000000000000000000000000000000000000E84A3F8C9E23000000000000, .atmax ⟨true, 5⟩ .system 63 ⟨true, .reg 12⟩ ⟨true, .reg 30⟩ ⟨false, .reg 35⟩),
     (0xC0000000000000000000000000000000000000000000000000000000000000000000804D364A5986, .atminw ⟨false, 0⟩ .package 54 ⟨false, .qh 2⟩ ⟨false, .lane⟩ ⟨true, .reg 6⟩),
     (0xC000000000000000000000000000000000000000000000000000000000000000000098512F019112, .atmaxw ⟨false, 3⟩ .package 47 ⟨false, .reg 1⟩ ⟨true, .reg 17⟩ ⟨false, .reg 18⟩),
     (0xC000000000000000000000000000000000000000000000000000000000000000000080540C4BBF5B, .atand ⟨false, 0⟩ .team 12 ⟨false, .qh 3⟩ ⟨true, .reg 63⟩ ⟨false, .team⟩),
     (0xC0000000000000000000000000000000000000000000000000000000000000000000A85A391CAAB2, .ator ⟨false, 5⟩ .system 57 ⟨false, .reg 28⟩ ⟨true, .reg 42⟩ ⟨true, .reg 50⟩),
     (0xC0000000000000000000000000000000000000000000000000000000F05C0D43292B000000000000, .atxor ⟨true, 6⟩ .team 13 ⟨false, .lc0⟩ ⟨false, .reg 41⟩ ⟨false, .reg 43⟩),
     (0xC0000000000000000000000000000000000000000000000000000000F8602F13D852000000000000, .atxch ⟨true, 7⟩ .team 47 ⟨false, .reg 19⟩ ⟨true, .zero⟩ ⟨false, .imm 2⟩),
     (0xC0000000000000000000000000000000000000000000000000000000E86A2D11CA49000000000000, .atfadd ⟨true, 5⟩ .system 45 ⟨false, .reg 17⟩ ⟨true, .qh 2⟩ ⟨false, .qh 1⟩),
     (0xC0000000000000000000000000000000000000000000000000000000000000000000E8642618D993, .atcas ⟨true, 5⟩ .team 38 ⟨false, .reg 24⟩ ⟨true, .lane⟩ ⟨true, .reg 19⟩),
     (0xC0000000000000000000000000000000000000000000000000000000908200000000000000000000, .facq ⟨false, 2⟩ .package),
     (0xC0000000000000000000000000000000000000000000000000000000988400000000000000000000, .frel ⟨false, 3⟩ .group),
     (0xC0000000000000000000000000000000000000000000000000000000A88B00000000000000000000, .far ⟨false, 5⟩ .system)] = true := by decide +kernel

/-- TLD, TST, XSV, XVS, CPY, CPYB, CPYM, CPYO, CPYG, CPYL, CCHAIN, CSEAL: words laid out from R95, R96 and the C map of R112, with four immediates. -/
theorem test_decode_c_3 : decodesTo
    [(0xC0000000000000000000000000000000000000000000000000000000C0A016428800000000000000, .tld ⟨true, 0⟩ 22 ⟨.column, 2⟩ ⟨true, .reg 8⟩),
     (0xC0000000000000000000000000000000000000000000000000000000C0A40029DAA9000000000000, .tst ⟨true, 0⟩ ⟨.row, 41⟩ ⟨true, .grp⟩ ⟨true, .reg 41⟩),
     (0xC0000000000000000000000000000000000000000000000000000000000000000000E8C0220B0000, .xsv ⟨true, 5⟩ 34 ⟨false, .reg 11⟩),
     (0xC0000000000000000000000000000000000000000000000000000000000000000000B8C401049E00, .xvs ⟨false, 7⟩ false 1 ⟨false, .reg 4⟩ ⟨true, .reg 30⟩),
     (0xC000000000000000000000000000000000000000000000000000000099002858518E000000000000, .cpy ⟨false, 3⟩ false 40 ⟨false, .zero⟩ ⟨false, .imm 1⟩ ⟨true, .reg 14⟩),
     (0xC0000000000000000000000000000000000000000000000000000000000000000000910425DCC053, .cpyb ⟨false, 2⟩ false 37 ⟨true, .gwid⟩ ⟨true, .ls⟩ ⟨false, .imm 3⟩),
     (0xC0000000000000000000000000000000000000000000000000000000A10828148C8C000000000000, .cpym ⟨false, 4⟩ false 40 ⟨false, .reg 20⟩ ⟨true, .reg 12⟩ ⟨true, .reg 12⟩),
     (0xC0000000000000000000000000000000000000000000000000000000A10C14320443000000000000, .cpyo ⟨false, 4⟩ 20 50 ⟨false, .reg 4⟩ ⟨false, .lc0⟩),
     (0xC0000000000000000000000000000000000000000000000000000000000000000000E9100E9D1B00, .cpyg ⟨true, 5⟩ 14 ⟨true, .reg 29⟩ ⟨false, .reg 27⟩),
     (0xC0000000000000000000000000000000000000000000000000000000000000000000C114360199C8, .cpyl ⟨true, 0⟩ 54 1 ⟨true, .reg 25⟩ ⟨true, .qh 0⟩),
     (0xC0000000000000000000000000000000000000000000000000000000C91800000000000000000000, .cchain ⟨true, 1⟩),
     (0xC0000000000000000000000000000000000000000000000000000000000000000000E91C1F000000, .cseal ⟨true, 5⟩ 31)] = true := by decide +kernel

/-- CWAIT, CBIND, BARINIT, BARARV, BARWT, BARSYN, QPUSH, QPUSHN, QPOP, QBIND, QARM, QSTAT: words laid out from R95, R96 and the C map of R112, with four immediates. -/
theorem test_decode_c_4 : decodesTo
    [(0xC0000000000000000000000000000000000000000000000000000000A12000520000000000000000, .cwait ⟨false, 4⟩ 2),
     (0xC0000000000000000000000000000000000000000000000000000000F124000D0000000000000000, .cbind ⟨true, 6⟩ ⟨true, 5⟩),
     (0xC0000000000000000000000000000000000000000000000000000000000000000000B140000596C0, .barinit ⟨false, 6⟩ 5 ⟨true, .reg 22⟩ ⟨true, .ls⟩),
     (0xC0000000000000000000000000000000000000000000000000000000000000000000C94400050000, .bararv ⟨true, 1⟩ 5),
     (0xC0000000000000000000000000000000000000000000000000000000C94800060000000000000000, .barwt ⟨true, 1⟩ 6),
     (0xC0000000000000000000000000000000000000000000000000000000994C00020000000000000000, .barsyn ⟨false, 3⟩ 2),
     (0xC0000000000000000000000000000000000000000000000000000000000000000000E1800044B700, .qpush ⟨true, 4⟩ ⟨false, .lc1⟩ ⟨true, .reg 55⟩),
     (0xC0000000000000000000000000000000000000000000000000000000B98464C3B700000000000000, .qpushn ⟨false, 7⟩ 4 ⟨true, .lc0⟩ ⟨true, .reg 55⟩),
     (0xC0000000000000000000000000000000000000000000000000000000000000000000A9883AD20000, .qpop ⟨false, 5⟩ 58 ⟨true, .imm 2⟩),
     (0xC0000000000000000000000000000000000000000000000000000000000000000000A18C4A440000, .qbind ⟨false, 4⟩ 2 ⟨false, .lc1⟩),
     (0xC0000000000000000000000000000000000000000000000000000000000000000000919000529416, .qarm ⟨false, 2⟩ ⟨false, .imm 2⟩ ⟨true, .reg 20⟩ ⟨false, .reg 22⟩),
     (0xC0000000000000000000000000000000000000000000000000000000000000000000819415C00000, .qstat ⟨false, 0⟩ 21 ⟨true, .ls⟩)] = true := by decide +kernel

/-- QDONE, LAUNCH, GSTATE, GSET, MBOX: words laid out from R95, R96 and the C map of R112, with four immediates. -/
theorem test_decode_c_5 : decodesTo
    [(0xC0000000000000000000000000000000000000000000000000000000D19800000000000000000000, .qdone ⟨true, 2⟩),
     (0xC000000000000000000000000000000000000000000000000000000089C006190000000000000000, .launch ⟨false, 1⟩ 6 ⟨false, .reg 25⟩),
     (0xC000000000000000000000000000000000000000000000000000000089E0211DC800000000000000, .gstate ⟨false, 1⟩ 33 ⟨false, .reg 29⟩ ⟨true, .qh 0⟩),
     (0xC0000000000000000000000000000000000000000000000000000000F9E400D28543000000000000, .gset ⟨true, 7⟩ ⟨true, .imm 2⟩ ⟨true, .reg 5⟩ ⟨false, .lc0⟩),
     (0xC0000000000000000000000000000000000000000000000000000000D9E80F1D0000000000000000, .mbox ⟨true, 3⟩ 15 ⟨false, .reg 29⟩)] = true := by decide +kernel

end Sys2Proof.Tests
end

section
/-! PROOF. What writing events, the mirror and MSI-X change in the state, said once: everything else stays. -/

namespace Sys2Proof.Laws

open Sys2Proof.Machine

/-! ## Folds -/

/-- A part of the state that every step of a fold keeps is kept by the fold. -/
theorem foldl_keeps {σ β γ : Type} (part : σ → γ) (f : σ → β → σ) (h : ∀ s x, part (f s x) = part s) :
    ∀ (l : List β) (s : σ), part (l.foldl f s) = part s
  | [], _ => rfl
  | x :: l, s => (foldl_keeps part f h l (f s x)).trans (h s x)

/-- A state that every step of a fold leaves is left by the fold. -/
theorem foldl_fixed {σ β : Type} {f : σ → β → σ} {s : σ} (h : ∀ x, f s x = s) : ∀ l : List β, l.foldl f s = s
  | [] => rfl
  | x :: l => by rw [List.foldl_cons, h x, foldl_fixed h l]

/-- Steps that each stand in a reflexive and transitive relation to their start make a fold that does. -/
theorem foldl_related {σ β : Type} (R : σ → σ → Prop) (f : σ → β → σ) (refl : ∀ s, R s s)
    (trans : ∀ {s t u}, R s t → R t u → R s u) (h : ∀ s x, R s (f s x)) :
    ∀ (l : List β) (s : σ), R s (l.foldl f s)
  | [], s => refl s
  | x :: l, s => trans (h s x) (foldl_related R f refl trans h l (f s x))

/-! ## The host's memory, its event numbers and its vectors (R373, R380) -/

/-- `t` is `s` but for memory, EVENT_SEQ, the events still to be written again, and MSI-X. -/
def WritesEvents (s t : State) : Prop :=
  ∃ mem seq todo pending vectors,
    t = { s with mem := mem, eventSeq := seq, rewrites := todo, msixPending := pending, vectors := vectors }

theorem WritesEvents.refl (s : State) : WritesEvents s s := ⟨_, _, _, _, _, rfl⟩

theorem WritesEvents.trans {s t u : State} : WritesEvents s t → WritesEvents t u → WritesEvents s u := by
  rintro ⟨m, e, r, p, v, rfl⟩ ⟨m', e', r', p', v', rfl⟩
  exact ⟨m', e', r', p', v', rfl⟩

/-- The mirror changes memory alone. -/
theorem mirror_eq (s : State) : ∃ mem, s.mirror = { s with mem := mem } := by
  unfold State.mirror
  split
  · exact ⟨s.mem, rfl⟩
  · exact ⟨_, rfl⟩

theorem writeMem_mem (s : State) (k : Nat) (bs : List Byte) : (s.writeMem k bs).mem = s.mem.setRun k bs := rfl

theorem mirror_of_no_address {s : State} (h : s.statusAddr = 0) : s.mirror = s := by
  simp [State.mirror, h]

/-- A vector's signal changes MSI-X alone. -/
theorem signal_eq (s : State) (v : Nat) :
    ∃ pending vectors, s.signal v = { s with msixPending := pending, vectors := vectors } := by
  unfold State.signal
  split
  · exact ⟨_, _, rfl⟩
  · split
    · exact ⟨_, s.vectors, rfl⟩
    · exact ⟨s.msixPending, _, rfl⟩

theorem signal_mem (s : State) (v : Nat) : (s.signal v).mem = s.mem := by
  obtain ⟨p, w, h⟩ := signal_eq s v
  rw [h]

theorem signal_rewrites (s : State) (v : Nat) : (s.signal v).rewrites = s.rewrites := by
  obtain ⟨p, w, h⟩ := signal_eq s v
  rw [h]

theorem writesEvents_mirror (s : State) : WritesEvents s s.mirror := by
  obtain ⟨mem, h⟩ := mirror_eq s
  exact ⟨mem, _, _, _, _, h⟩

theorem writesEvents_signal (s : State) (v : Nat) : WritesEvents s (s.signal v) := by
  obtain ⟨p, w, h⟩ := signal_eq s v
  exact ⟨_, _, _, p, w, h⟩

theorem writesEvents_writeEvent (s : State) (n : Nat) (e : HostEvent) : WritesEvents s (s.writeEvent n e) :=
  .trans (.trans ⟨_, _, _, _, _, rfl⟩ (writesEvents_mirror _)) (writesEvents_signal _ _)

theorem writesEvents_flushEvents (s : State) : WritesEvents s s.flushEvents := by
  refine foldl_related WritesEvents _ .refl .trans (fun s p => ?_) s.events s
  dsimp only
  split
  · exact writesEvents_writeEvent s p.1 p.2
  · exact .refl s

/-- With nobody leading no event is written. -/
theorem flushEvents_of_not_leads {s : State} (h : s.leads = false) : s.flushEvents = s :=
  foldl_fixed (fun p => by simp only [State.mayWrite, h, Bool.false_and, Bool.and_false, Bool.false_eq_true, if_false])
    s.events

/-- The one event held is written where it is to be written and may be. -/
theorem flushEvents_singleton {s : State} {n : Nat} {e : HostEvent} (h : s.events = [(n, e)])
    (hw : s.toWrite n = true) (hm : s.mayWrite n = true) : s.flushEvents = s.writeEvent n e := by
  simp [State.flushEvents, h, hw, hm]

/-- With no status mirror an event's write is that of its slot, with its number and its signal. -/
theorem writeEvent_of_no_address {s : State} (n : Nat) (e : HostEvent) (h : s.statusAddr = 0) :
    s.writeEvent n e = State.signal
      { s.writeMem (memKey kindHost (s.eventBase + 64 * (n % 2 ^ s.eventLog))) (e.bytes n) with
        eventSeq := Nat.max s.eventSeq n, rewrites := s.rewrites.filter (· != n) } e.type :=
  congrArg (State.signal · e.type) (mirror_of_no_address h)

theorem writeEvent_mem_of_no_address {s : State} (n : Nat) (e : HostEvent) (h : s.statusAddr = 0) :
    (s.writeEvent n e).mem =
      s.mem.setRun (memKey kindHost (s.eventBase + 64 * (n % 2 ^ s.eventLog))) (e.bytes n) := by
  simp only [writeEvent_of_no_address n e h, signal_mem, writeMem_mem]

theorem writeEvent_rewrites_of_no_address {s : State} (n : Nat) (e : HostEvent) (h : s.statusAddr = 0) :
    (s.writeEvent n e).rewrites = s.rewrites.filter (· != n) := by
  rw [writeEvent_of_no_address n e h, signal_rewrites]

/-! ## DOORBELL's value (R375): the taking of commands leaves it -/

theorem WritesEvents.doorbell {s t : State} : WritesEvents s t → t.doorbell = s.doorbell := by
  rintro ⟨m, e, r, p, v, rfl⟩
  rfl

theorem haltRing_doorbell (s : State) (cause : Nat) : (s.haltRing cause).doorbell = s.doorbell :=
  (writesEvents_mirror _).doorbell

theorem emit_doorbell (s : State) (e : HostEvent) : (s.emit e).doorbell = s.doorbell := by
  unfold State.emit
  split
  · rfl
  · exact (writesEvents_flushEvents _).doorbell

theorem advanceCompleted_doorbell (s : State) : s.advanceCompleted.doorbell = s.doorbell := by
  simp only [State.advanceCompleted]
  split
  · rfl
  · split
    all_goals
      split
      · exact ((writesEvents_mirror _).trans (writesEvents_signal _ _)).doorbell
      · rfl

theorem failCommand_doorbell (s : State) (hsn code addr : Nat) : (s.failCommand hsn code addr).doorbell = s.doorbell :=
  (advanceCompleted_doorbell _).trans (emit_doorbell s _)

theorem takeOne_doorbell (s : State) : s.takeOne.doorbell = s.doorbell := by
  simp only [State.takeOne]
  split
  · exact haltRing_doorbell s 1
  · split
    · exact (writesEvents_mirror _).doorbell
    · exact (failCommand_doorbell _ _ _ _).trans (writesEvents_mirror _).doorbell

theorem takeCommands_doorbell : ∀ (n : Nat) (s : State), (s.takeCommands n).doorbell = s.doorbell
  | 0, _ => rfl
  | n + 1, s => by
    unfold State.takeCommands
    split
    · exact (takeCommands_doorbell n _).trans (takeOne_doorbell s)
    · rfl

end Sys2Proof.Laws
end

section
/-! PROOF. A core's record, its mailbox, and what a new debug level changes (R391, R392, R394). -/

namespace Sys2Proof.Laws

open Sys2Proof.Machine

/-! ## Tables and cores -/

theorem mem_keys_put {α : Type} {k : Nat} (a : Nat) (x : α) :
    ∀ t : Tbl α, k ∈ Tbl.keys t → k ∈ Tbl.keys (Tbl.put t a x)
  | [], h => absurd h List.not_mem_nil
  | (k', y) :: t, h => by
    have ih := mem_keys_put (k := k) a x t
    simp only [Tbl.keys, List.map_cons, List.mem_cons] at h ih ⊢
    unfold Tbl.put
    split
    · exact List.mem_cons_of_mem a (List.mem_cons.2 h)
    · split
      · exact List.mem_cons.2 h
      · exact List.mem_cons.2 (h.imp_right ih)

theorem updCore_core_other (s : State) {n k : Nat} (f : Core → Core) (h : k ≠ n) :
    (s.updCore n f).core k = s.core k := by
  simp only [State.core, Tbl.getD]
  exact congrArg (·.getD Core.reset) (find_put_other _ _ _ h s.cores)

/-! ## Mailboxes -/

theorem mboxStep_of_empty {s : State} {n : Nat} (h : (s.core n).mbox = []) : s.mboxStep n = s := by
  simp [State.mboxStep, h, State.mboxGo]

theorem monitorOut_of_none {s : State} {n : Nat} (h : (s.core n).monitor = none) : s.monitorOut n = s := by
  simp [State.monitorOut, h]

/-! ## Deliveries and the agenda -/

/-- An entry of the agenda changes the agenda alone. -/
theorem atOnce_eq (s : State) (n : Nat) (e : Event) : ∃ agenda, s.atOnce n e = { s with agenda := agenda } := by
  unfold State.atOnce
  split
  · exact ⟨_, rfl⟩
  · exact ⟨_, rfl⟩

/-- `t` is `s` but for gangs, identifiers and the agenda. -/
def Delivers (s t : State) : Prop :=
  ∃ gangs next agenda, t = { s with gangs := gangs, nextId := next, agenda := agenda }

theorem Delivers.refl (s : State) : Delivers s s := ⟨_, _, _, rfl⟩

theorem Delivers.trans {s t u : State} : Delivers s t → Delivers t u → Delivers s u := by
  rintro ⟨g, n, a, rfl⟩ ⟨g', n', a', rfl⟩
  exact ⟨g', n', a', rfl⟩

theorem delivers_deliver (s : State) (gid long : Nat) (val : Option (Nat × Nat)) (due : Nat) :
    Delivers s (s.deliver gid long val due) := by
  simp only [State.deliver]
  split
  · exact .refl s
  · split
    · exact .refl s
    · split
      · exact ⟨_, _, _, rfl⟩
      · split
        · exact ⟨_, _, _, rfl⟩
        · exact ⟨_, _, _, rfl⟩

/-! ## The parts of the state that a new debug level leaves -/

/-- `t` is `s` but for gangs, identifiers, the agenda and cores. -/
def KeepsPackage (s t : State) : Prop :=
  ∃ gangs next agenda cores, t = { s with gangs := gangs, nextId := next, agenda := agenda, cores := cores }

theorem KeepsPackage.refl (s : State) : KeepsPackage s s := ⟨_, _, _, _, rfl⟩

theorem KeepsPackage.trans {s t u : State} : KeepsPackage s t → KeepsPackage t u → KeepsPackage s u := by
  rintro ⟨g, n, a, c, rfl⟩ ⟨g', n', a', c', rfl⟩
  exact ⟨g', n', a', c', rfl⟩

theorem keepsPackage_updCore (s : State) (n : Nat) (f : Core → Core) : KeepsPackage s (s.updCore n f) :=
  ⟨_, _, _, _, rfl⟩

theorem Delivers.keepsPackage {s t : State} : Delivers s t → KeepsPackage s t := by
  rintro ⟨g, n, a, rfl⟩
  exact ⟨g, n, a, _, rfl⟩

/-- One core's exchanges end with zero. -/
def endMbox (s : State) (p : Nat × Core) : State :=
  p.2.mbox.foldl (fun s m => s.deliver m.1 m.2.2.1 (some (m.2.1, 0)) s.time)
    (s.updCore p.1 fun c => { c with mbox := [] })

theorem zeroMbox_eq (s : State) : s.zeroMbox = s.cores.foldl endMbox s := rfl

theorem delivers_endMbox (s : State) (p : Nat × Core) :
    Delivers (s.updCore p.1 fun c => { c with mbox := [] }) (endMbox s p) :=
  foldl_related Delivers _ .refl .trans (fun s _ => delivers_deliver s _ _ _ _) p.2.mbox _

theorem keepsPackage_zeroMbox (s : State) : KeepsPackage s s.zeroMbox := by
  rw [zeroMbox_eq]
  exact foldl_related KeepsPackage endMbox .refl .trans
    (fun s p => (keepsPackage_updCore s p.1 _).trans (delivers_endMbox s p).keepsPackage) s.cores s

/-- The mailbox of a core is empty after its exchanges have ended, and of another core as it was. -/
theorem endMbox_mbox (s : State) (p : Nat × Core) (k : Nat) :
    ((endMbox s p).core k).mbox = if k = p.1 then [] else (s.core k).mbox := by
  obtain ⟨g, n, a, h⟩ := delivers_endMbox s p
  have hcore : (endMbox s p).core k = (s.updCore p.1 fun c => { c with mbox := [] }).core k := by
    rw [h]
    rfl
  rw [hcore]
  split
  · rename_i hk
    rw [hk, updCore_core]
  · rename_i hk
    rw [updCore_core_other s _ hk]

theorem endMbox_foldl_mbox {k : Nat} : ∀ (l : Tbl Core) (s : State), k ∈ l.keys ∨ (s.core k).mbox = [] →
    ((l.foldl endMbox s).core k).mbox = []
  | [], s, h => h.resolve_left List.not_mem_nil
  | p :: l, s, h => by
    refine endMbox_foldl_mbox l (endMbox s p) ?_
    rw [endMbox_mbox]
    by_cases hk : k = p.1
    · simp [hk]
    · rw [if_neg hk]
      exact h.imp_left fun hm => (List.mem_cons.1 hm).resolve_left hk

theorem zeroMbox_mbox {s : State} {k : Nat} (h : k ∈ s.cores.keys) : (s.zeroMbox.core k).mbox = [] := by
  rw [zeroMbox_eq]
  exact endMbox_foldl_mbox s.cores s (.inl h)

/-- The jobs of one core that were set aside are queued again. -/
def requeueJobs (s : State) (k : Nat) : State :=
  if (s.core k).setAside.isEmpty then s
  else (s.updCore k fun c => { c with index := c.setAside ++ c.index, setAside := [] }).atOnce (4 * (s.beat + 1))
    (.indexJobLand k)

theorem unhalt_eq (s : State) : s.unhalt = s.cores.keys.foldl requeueJobs { s with halted := false } := rfl

/-- Queueing a core's jobs again keeps the package, and every core that was listed. -/
theorem requeueJobs_keeps (s : State) (k : Nat) :
    KeepsPackage s (requeueJobs s k) ∧ ∀ n ∈ s.cores.keys, n ∈ (requeueJobs s k).cores.keys := by
  unfold requeueJobs
  split
  · exact ⟨.refl s, fun _ h => h⟩
  · obtain ⟨a, h⟩ := atOnce_eq (s.updCore k fun c => { c with index := c.setAside ++ c.index, setAside := [] })
      (4 * (s.beat + 1)) (.indexJobLand k)
    rw [h]
    exact ⟨⟨_, _, _, _, rfl⟩, fun n hn => mem_keys_put k _ _ hn⟩

theorem keepsPackage_unhalt (s : State) : KeepsPackage { s with halted := false } s.unhalt := by
  rw [unhalt_eq]
  exact foldl_related KeepsPackage requeueJobs .refl .trans (fun s k => (requeueJobs_keeps s k).1) _ _

theorem mem_keys_unhalt {s : State} {n : Nat} (h : n ∈ s.cores.keys) : n ∈ s.unhalt.cores.keys := by
  rw [unhalt_eq]
  exact foldl_related (fun s t : State => n ∈ s.cores.keys → n ∈ t.cores.keys) requeueJobs (fun _ h => h)
    (fun h1 h2 h => h2 (h1 h)) (fun s k => (requeueJobs_keeps s k).2 n) s.cores.keys { s with halted := false } h

/-! ## Dies that leave A2 -/

/-- A core's waking on a parked die takes the die from A2, and changes nothing but its cores and the time it was away. -/
theorem wakeCore_of_parked {s : State} {die : Nat} (h : (s.parkedDies.find die).isSome = true) : ∃ cores out,
    s.wakeCore (die * Config.coresPerDie) =
      { s with cores := cores, parkedDies := s.parkedDies.del die, outTime := out } := by
  have hdie : dieOf (die * Config.coresPerDie) = die := Nat.mul_div_cancel die (by decide)
  simp only [State.wakeCore, hdie, h, if_true]
  exact foldl_related (fun s t : State => ∃ cores out, t = { s with cores := cores, outTime := out }) _
    (fun s => ⟨_, _, rfl⟩) (by rintro s _ _ ⟨c, o, rfl⟩ ⟨c', o', rfl⟩; exact ⟨c', o', rfl⟩)
    (fun s i => ⟨_, _, rfl⟩) _ _

/-- Waking each parked die in turn leaves none parked. -/
theorem wakeCore_foldl_parkedDies : ∀ (parked : Tbl Nat) (s : State), s.parkedDies = parked → ∃ cores out,
    parked.keys.foldl (fun s d => s.wakeCore (d * Config.coresPerDie)) s =
      { s with cores := cores, parkedDies := [], outTime := out }
  | [], s, h => by
    refine ⟨s.cores, s.outTime, ?_⟩
    cases s
    cases h
    rfl
  | (die, t) :: parked, s, h => by
    have hfind : (s.parkedDies.find die).isSome = true := by simp [h, Tbl.find]
    have hdel : s.parkedDies.del die = parked := by simp [h, Tbl.del]
    obtain ⟨c, o, hw⟩ := wakeCore_of_parked hfind
    obtain ⟨c', o', ht⟩ := wakeCore_foldl_parkedDies parked (s.wakeCore (die * Config.coresPerDie)) (by rw [hw, hdel])
    refine ⟨c', o', ht.trans ?_⟩
    rw [hw]

/-! ## Debug levels (R391, R392) -/

/-- At level halt no die stays in A2, and a halted package stays halted. -/
theorem setLevel_halt (s : State) : ∃ cores out,
    s.setLevel 2 = { s with debugLvl := 2, cores := cores, parkedDies := [], outTime := out } :=
  wakeCore_foldl_parkedDies s.parkedDies { s with debugLvl := 2 } rfl

/-- The state that goes on where a level below halt begins. -/
def belowHalt (s : State) (l : Nat) : State :=
  if s.halted then ({ s with debugLvl := l } : State).unhalt else { s with debugLvl := l }

theorem setLevel_below {s : State} {l : Nat} (h : l ≠ 2) :
    s.setLevel l = if l = 0 then (belowHalt s l).zeroMbox else belowHalt s l := by
  simp only [State.setLevel, if_neg h]
  rfl

/-- Below halt the package is not halted, and every core is listed that was. -/
theorem belowHalt_keeps (s : State) (l : Nat) : KeepsPackage { s with debugLvl := l, halted := false } (belowHalt s l) ∧
    ∀ n ∈ s.cores.keys, n ∈ (belowHalt s l).cores.keys := by
  unfold belowHalt
  split
  · exact ⟨keepsPackage_unhalt _, fun _ h => mem_keys_unhalt h⟩
  · rename_i h
    refine ⟨⟨s.gangs, s.nextId, s.agenda, s.cores, ?_⟩, fun _ h => h⟩
    cases s
    simp_all

theorem keepsPackage_setLevel {s : State} {l : Nat} (h : l ≠ 2) :
    KeepsPackage { s with debugLvl := l, halted := false } (s.setLevel l) := by
  rw [setLevel_below h]
  split
  · exact (belowHalt_keeps s l).1.trans (keepsPackage_zeroMbox _)
  · exact (belowHalt_keeps s l).1

/-- At level none no exchange waits in a mailbox. -/
theorem setLevel_none_mbox {s : State} {n : Nat} (h : n ∈ s.cores.keys) : ((s.setLevel 0).core n).mbox = [] := by
  rw [setLevel_below (by decide), if_pos rfl]
  exact zeroMbox_mbox ((belowHalt_keeps s 0).2 n h)

end Sys2Proof.Laws
end

section
/-! PROOF. Fields of little-endian bytes, and what a host read of BAR0 delivers (R7, R373, R383, R384, R392, R394, R397). -/

namespace Sys2Proof.Laws

open Sys2Proof.Machine

/-! ## Little-endian bytes (R7) -/

@[simp] theorem bytesLE_length : ∀ n x : Nat, (bytesLE n x).length = n
  | 0, _ => rfl
  | n + 1, x => by simp [bytesLE, bytesLE_length n]

theorem natOfBytes_bytesLE : ∀ n x : Nat, natOfBytes (bytesLE n x) = x % 256 ^ n
  | 0, x => by simp [bytesLE, natOfBytes, Nat.mod_one]
  | n + 1, x => by
    rw [bytesLE, natOfBytes, natOfBytes_bytesLE n, Nat.pow_succ', Nat.mod_mul]
    simp

theorem natOfBytes_replicate_zero : ∀ n : Nat, natOfBytes (List.replicate n 0#8) = 0
  | 0 => rfl
  | n + 1 => by simp [List.replicate_succ, natOfBytes, natOfBytes_replicate_zero n]

theorem bytesLE_drop : ∀ k n x : Nat, (bytesLE (k + n) x).drop k = bytesLE n (x / 256 ^ k)
  | 0, n, x => by simp
  | k + 1, n, x => by
    rw [Nat.add_right_comm, bytesLE, List.drop_succ_cons, bytesLE_drop k n, Nat.div_div_eq_div_mul, Nat.pow_succ']

theorem bytesLE_take : ∀ k n x : Nat, (bytesLE (k + n) x).take k = bytesLE k x
  | 0, _, _ => by simp [bytesLE]
  | k + 1, n, x => by rw [Nat.add_right_comm, bytesLE, List.take_succ_cons, bytesLE_take k n, bytesLE]

/-- A field of the bytes of a number is those bits of it. -/
theorem fieldOf_bytesLE (o k n x : Nat) : fieldOf (bytesLE (o + (k + n)) x) o k = x / 256 ^ o % 256 ^ k := by
  rw [fieldOf, bytesLE_drop, bytesLE_take, natOfBytes_bytesLE]

/-- The field at the front of a list is the whole of the bytes that stand there. -/
theorem fieldOf_bytesLE_append (n x : Nat) (bs : List Byte) : fieldOf (bytesLE n x ++ bs) 0 n = x % 256 ^ n := by
  rw [fieldOf, List.drop_zero, List.take_left' (bytesLE_length n x), natOfBytes_bytesLE]

/-- A field beyond the first bytes is the field of the rest. -/
theorem fieldOf_append_right (as bs : List Byte) (o n : Nat) :
    fieldOf (as ++ bs) (as.length + o) n = fieldOf bs o n := by
  rw [fieldOf, List.drop_length_add_append, fieldOf]

/-! ## The registers by their regions (R373) -/

theorem statusPage_consumedSeq (s : State) : fieldOf s.statusPage 0 8 = s.consumedSeq % 2 ^ 64 := by
  simp only [State.statusPage, List.append_assoc]
  exact fieldOf_bytesLE_append 8 _ _

theorem statusPage_completedSeq (s : State) : fieldOf s.statusPage 8 8 = s.completedSeq % 2 ^ 64 := by
  simp only [State.statusPage, List.append_assoc]
  exact (fieldOf_append_right (bytesLE 8 s.consumedSeq) _ 0 8).trans (fieldOf_bytesLE_append 8 _ _)

theorem statusPage_eventSeq (s : State) : fieldOf s.statusPage 16 8 = s.eventSeq % 2 ^ 64 := by
  simp only [State.statusPage, List.append_assoc]
  exact (fieldOf_append_right (bytesLE 8 s.consumedSeq) _ 8 8).trans
    ((fieldOf_append_right (bytesLE 8 s.completedSeq) _ 0 8).trans (fieldOf_bytesLE_append 8 _ _))

theorem statusPage_ringState (s : State) : fieldOf s.statusPage 24 8 = (s.ringState + s.haltCause * 2 ^ 8) % 2 ^ 64 := by
  simp only [State.statusPage, List.append_assoc]
  exact (fieldOf_append_right (bytesLE 8 s.consumedSeq) _ 16 8).trans
    ((fieldOf_append_right (bytesLE 8 s.completedSeq) _ 8 8).trans
      ((fieldOf_append_right (bytesLE 8 s.eventSeq) _ 0 8).trans (fieldOf_bytesLE_append 8 _ _)))

theorem statusPage_reserved (s : State) : fieldOf s.statusPage 32 8 = 0 := by
  have hlen : (bytesLE 8 s.consumedSeq ++ bytesLE 8 s.completedSeq ++ bytesLE 8 s.eventSeq ++
      bytesLE 8 s.ringStateWord).length = 32 := by simp
  have h := fieldOf_append_right (bytesLE 8 s.consumedSeq ++ bytesLE 8 s.completedSeq ++ bytesLE 8 s.eventSeq ++
    bytesLE 8 s.ringStateWord) (List.replicate 224 0) 0 8
  rw [hlen] at h
  exact h.trans (natOfBytes_replicate_zero 8)

theorem queenBytes_leader (s : State) : fieldOf s.queenBytes 0 8 = s.leader % 8 :=
  (fieldOf_bytesLE_append 8 _ _).trans (Nat.mod_eq_of_lt (by omega))

theorem queenBytes_expiry (s : State) : fieldOf s.queenBytes 8 8 = s.queenExpiry % 2 ^ 64 :=
  (fieldOf_append_right (bytesLE 8 (s.leader % 8)) _ 0 8).trans (by
    rw [← List.append_nil (bytesLE 8 s.queenExpiry)]
    exact fieldOf_bytesLE_append 8 _ _)

theorem register_meas (s : State) {offset : Nat} (h : 0x400 ≤ offset) (h' : offset < 0x500) : s.register offset =
    fieldOf (bytesLE 32 (s.meas.get ((offset - 0x400) / 32)).toNat) (offset % 32) 8 := by
  unfold State.register
  split
  case h_12 => rw [if_neg (by omega), if_pos ⟨h, h'⟩]
  all_goals omega

theorem register_block (s : State) {offset : Nat} (h : 0x10000 ≤ offset) (h' : offset < 0x1C000) : s.register offset =
    (s.core ((offset - 0x10000) / 256)).dbg.read s.debugOpen (offset % 256) := by
  unfold State.register
  split
  case h_12 => rw [if_neg (by omega), if_neg (by omega), if_neg (by omega), if_pos ⟨h, h'⟩]
  all_goals omega

theorem register_wear (s : State) {offset : Nat} (h : 0x1D000 ≤ offset) (h' : offset < 0x1D600) : s.register offset =
    ((s.wear.find ((offset - 0x1D000) / 256)).map fun w => fieldOf w.published (offset % 256) 8).getD 0 := by
  unfold State.register
  split
  case h_12 =>
    rw [if_neg (by omega), if_neg (by omega), if_neg (by omega), if_neg (by omega), if_pos ⟨h, h'⟩]
    cases s.wear.find ((offset - 0x1D000) / 256) <;> rfl
  all_goals omega

/-- A read that is not OUTW's delivers the register and does nothing else. -/
theorem execRegisterRead_of_register {s : State} {offset n : Nat} (h8 : offset % 8 = 0)
    (hout : ¬(0x10000 ≤ offset ∧ offset < 0x1C000 ∧ offset % 256 = 0)) (h : s.register offset = n) :
    execRegisterRead offset s = .next { s with hostRead := n } := by
  rw [execRegisterRead, if_neg hout, if_pos h8, h]

/-! ## Reads of the measurements, a core's block and the wear blocks -/

theorem read_meas (s : State) {n i : Nat} (hn : n < 8) (hi : i < 4) : execRegisterRead (0x400 + 32 * n + 8 * i) s =
    .next { s with hostRead := (s.meas.get n).toNat / 2 ^ (64 * i) % 2 ^ 64 } := by
  refine execRegisterRead_of_register (by omega) (by omega) ?_
  rw [register_meas s (by omega) (by omega), show (0x400 + 32 * n + 8 * i - 0x400) / 32 = n by omega,
    show (0x400 + 32 * n + 8 * i) % 32 = 8 * i by omega]
  have hfield : fieldOf (bytesLE 32 (s.meas.get n).toNat) (8 * i) 8 =
      (s.meas.get n).toNat / 256 ^ (8 * i) % 2 ^ 64 := by
    have h := fieldOf_bytesLE (8 * i) 8 (24 - 8 * i) (s.meas.get n).toNat
    rw [show 8 * i + (8 + (24 - 8 * i)) = 32 by omega] at h
    exact h
  have hpow : 256 ^ (8 * i) = 2 ^ (64 * i) := calc
    256 ^ (8 * i) = (2 ^ 8) ^ (8 * i) := congrArg (· ^ (8 * i)) (by decide)
    _ = 2 ^ (8 * (8 * i)) := (Nat.pow_mul 2 8 (8 * i)).symm
    _ = 2 ^ (64 * i) := congrArg (2 ^ ·) (by omega)
  rw [hfield, hpow]

/-- A read of a core's block, but for OUTW, delivers what stands in the block. -/
theorem read_block (s : State) {core off : Nat} (hc : core < 192) (ho : off < 256) (h8 : off % 8 = 0) (h0 : off ≠ 0) :
    execRegisterRead (0x10000 + 256 * core + off) s =
      .next { s with hostRead := (s.core core).dbg.read s.debugOpen off } := by
  refine execRegisterRead_of_register (by omega) (by omega) ?_
  rw [register_block s (by omega) (by omega), show (0x10000 + 256 * core + off - 0x10000) / 256 = core by omega,
    show (0x10000 + 256 * core + off) % 256 = off by omega]

theorem read_outw (s : State) {core : Nat} (hc : core < 192) :
    execRegisterRead (0x10000 + 256 * core) s = execOutw core s := by
  rw [execRegisterRead, if_pos (by omega), show (0x10000 + 256 * core - 0x10000) / 256 = core by omega]

theorem read_wear (s : State) {die i : Nat} (hd : die < 6) (hi : i < 32) : execRegisterRead (0x1D000 + 256 * die + 8 * i) s =
    .next { s with hostRead := ((s.wear.find die).map fun w => fieldOf w.published (8 * i) 8).getD 0 } := by
  refine execRegisterRead_of_register (by omega) (by omega) ?_
  rw [register_wear s (by omega) (by omega), show (0x1D000 + 256 * die + 8 * i - 0x1D000) / 256 = die by omega,
    show (0x1D000 + 256 * die + 8 * i) % 256 = 8 * i by omega]

/-! ## What stands in a core's block (R392, R394, R395) -/

theorem read_pmsel (d : Debug) (visible : Bool) {i : Nat} (hi : i < 8) :
    d.read visible (0x80 + 8 * i) = d.pmsel.getD i 0 := by
  rw [Debug.read, if_pos (by omega), show (0x80 + 8 * i - 0x80) / 8 = i by omega]

theorem read_pmcnt {d : Debug} (visible : Bool) {i : Nat} (h : d.pmwritten = []) :
    d.read visible (0xC0 + 8 * i) = d.pmcnt.getD i 0 := by
  rw [Debug.read, if_neg (by omega), if_pos (by omega), show (0xC0 + 8 * i - 0xC0) / 8 = i by omega, h]
  rfl

theorem read_bp (d : Debug) {i : Nat} (hi : i < 8) : d.read true (0x20 + 8 * i) = d.bp.getD i 0 := by
  rw [Debug.read, if_neg (by omega), if_neg (by omega), if_neg (by decide), if_neg (by omega), if_pos (by omega),
    show (0x20 + 8 * i - 0x20) / 8 = i by omega]

/-- Below the performance counters a block reads as zero where no debugging is open. -/
theorem read_hidden (d : Debug) {off : Nat} (h : off < 0x80) : d.read false off = 0 := by
  rw [Debug.read, if_neg (by omega), if_neg (by omega), if_pos (by decide)]

/-- INW is only written. -/
theorem read_inw (d : Debug) (visible : Bool) : d.read visible 8 = 0 := by
  cases visible <;> rfl

/-! ## The package figure (R397) -/

theorem packageFigure_eq (s : State) :
    s.packageFigure = (((List.range Config.dieCount).filterMap s.dieFigure).min?).getD 0 := by
  unfold State.packageFigure
  cases (List.range Config.dieCount).filterMap s.dieFigure <;> rfl

theorem dieFigure_eq_some {s : State} {die n : Nat} :
    s.dieFigure die = some n ↔ ∃ w, s.wear.find die = some w ∧ n = fieldOf w.published 0x30 4 := by
  simp only [State.dieFigure, Option.map_eq_some_iff, eq_comm (b := n)]

/-- The package figure is the least of those of the dies that have been sampled. -/
theorem packageFigure_least {s : State} {die : Nat} {w : Wear} (hd : die < 6) (hw : s.wear.find die = some w) :
    s.packageFigure ≤ fieldOf w.published 0x30 4 ∧
      ∃ d < 6, ∃ y, s.wear.find d = some y ∧ s.packageFigure = fieldOf y.published 0x30 4 := by
  have hmem : fieldOf w.published 0x30 4 ∈ (List.range Config.dieCount).filterMap s.dieFigure :=
    List.mem_filterMap.2 ⟨die, List.mem_range.2 hd, dieFigure_eq_some.2 ⟨w, hw, rfl⟩⟩
  obtain ⟨least, hleast⟩ := Option.isSome_iff_exists.1 (List.isSome_min?_of_mem hmem)
  rw [packageFigure_eq, hleast, Option.getD_some]
  obtain ⟨hin, hle⟩ := List.min?_eq_some_iff.1 hleast
  obtain ⟨d, hrange, hfig⟩ := List.mem_filterMap.1 hin
  exact ⟨hle _ hmem, d, List.mem_range.1 hrange, dieFigure_eq_some.1 hfig⟩

end Sys2Proof.Laws
end

section
/-! PROOF. The steps of the boot after the lock (R383, R387). -/

namespace Sys2Proof.Laws

open Sys2Proof.Machine

/-- Stage 5's firmware leaves the boot's failure code. -/
theorem runFirmware_bootFail (s : State) : s.runFirmware.bootFail = s.bootFail := by
  simp only [State.runFirmware, writeMem_bootFail]
  exact foldl_keeps State.bootFail (fun s r => s.extend 3 r) (fun _ _ => rfl) _ s

/-- A boot step is made, or its code stands in BOOTSTAT. -/
theorem bootStepTo_outcome {s : State} {f : State → State} {next : Nat} (h0 : s.bootFail = 0) (h : next = s.bootStage + 1)
    (hf : ∀ t : State, (f t).bootFail = t.bootFail) :
    ((s.bootStepTo next f).bootStage = s.bootStage + 1 ∧ (s.bootStepTo next f).bootFail = 0) ∨
      ((s.bootStepTo next f).bootStage = s.bootStage ∧ (s.bootStepTo next f).bootFail = s.bootStage ∧
        (s.bootStepTo next f).mem = s.mem) := by
  simp only [State.bootStepTo]
  split
  · exact .inr ⟨rfl, rfl, rfl⟩
  · exact .inl ⟨h, (hf _).trans h0⟩

theorem execBootStep_of_failed {s : State} (h : s.bootFail ≠ 0) : execBootStep s = .next s := by
  rw [execBootStep, if_pos h]

/-- An accepted image has the magic at its front. -/
theorem magic_of_imageAccepted {carve : List Byte} (h : imageAccepted carve = true) :
    carve.take 4 = [0x53, 0x56, 0x46, 0x57] := by
  simp only [imageAccepted, Bool.and_eq_true, beq_iff_eq] at h
  exact h.1.1

theorem execBootStep_accepted {s : State} (h0 : s.bootFail = 0) (h4 : s.bootStage = 4)
    (h : imageAccepted (s.bytesAt (memKey kindDevice s.carveBase) s.carveSize) = true) : execBootStep s =
      .next { s.extend 1 (imageBytes (s.bytesAt (memKey kindDevice s.carveBase) s.carveSize)) with bootStage := 5 } := by
  simp only [execBootStep, h0, h4, h, ne_eq, not_true_eq_false, if_false, if_true]

theorem execBootStep_rejected {s : State} (h0 : s.bootFail = 0) (h4 : s.bootStage = 4)
    (h : imageAccepted (s.bytesAt (memKey kindDevice s.carveBase) s.carveSize) = false) :
    execBootStep s = .next { s with bootFail := 4 } := by
  simp only [execBootStep, h0, h4, h, ne_eq, not_true_eq_false, if_false, Bool.false_eq_true]

/-- Stages 5 and 6 are made one by one, or the boot stops at them. -/
theorem execBootStep_stage {s : State} (h0 : s.bootFail = 0) (h : s.bootStage = 5 ∨ s.bootStage = 6) :
    ∃ t, execBootStep s = .next t ∧ ((t.bootStage = s.bootStage + 1 ∧ t.bootFail = 0) ∨
      (t.bootStage = s.bootStage ∧ t.bootFail = s.bootStage ∧ t.mem = s.mem)) := by
  rcases h with h | h
  · exact ⟨s.bootStepTo 6 State.runFirmware, by simp [execBootStep, h0, h],
      bootStepTo_outcome h0 (by rw [h]) runFirmware_bootFail⟩
  · exact ⟨s.bootStepTo 7 State.bringUpPorts, by simp [execBootStep, h0, h],
      bootStepTo_outcome h0 (by rw [h]) fun _ => rfl⟩

end Sys2Proof.Laws
end

section
/-! PROOF. What a host write to each register of BAR0 does (R373, R375, R377, R378, R380, R383, R391, R392, R394). -/

namespace Sys2Proof.Laws

open Sys2Proof.Machine

/-! ## The ring's and the event ring's registers -/

theorem execDoorbell_lower {s : State} {v : Word64} (h : v.toNat < s.doorbell) : execDoorbell v s = .next s := by
  simp [execDoorbell, h]

theorem execDoorbell_beyond {s : State} {v : Word64} (ho : s.ringOpen = true) (hr : s.ringState = 0)
    (h : s.doorbell ≤ v.toNat) (hb : s.consumedSeq + 2 ^ s.ringLog < v.toNat) :
    execDoorbell v s = .next (s.haltRing 2) := by
  simp [execDoorbell, ho, hr, Nat.not_lt.2 h, hb]

theorem execDoorbell_within {s : State} {v : Word64} (ho : s.ringOpen = true) (hr : s.ringState = 0)
    (h : s.doorbell ≤ v.toNat) (hb : v.toNat ≤ s.consumedSeq + 2 ^ s.ringLog) :
    execDoorbell v s = .next ({ s with doorbell := v.toNat } : State).takeAll := by
  simp [execDoorbell, ho, hr, Nat.not_lt.2 h, Nat.not_lt.2 hb]

theorem haltRing_fields (s : State) (cause : Nat) :
    (s.haltRing cause).ringState = 1 ∧ (s.haltRing cause).haltCause = cause := by
  obtain ⟨mem, h⟩ := mirror_eq { s with ringState := 1, haltCause := cause }
  rw [State.haltRing, h]
  exact ⟨rfl, rfl⟩

/-- The ring running again, with the commands not yet taken discarded. -/
def ringRestarted (s : State) : State := { s with doorbell := s.consumedSeq, ringState := 0, haltCause := 0 }

/-- The state as RESYNC leaves it, before the held events are written again. -/
def resynced (s : State) : State :=
  { (ringRestarted s).mirror with rewrites := (s.events.filter fun p => decide (s.ackSeq < p.1)).map Prod.fst }

theorem resynced_eq (s : State) : ∃ mem, resynced s =
    { ringRestarted s with mem := mem
                           rewrites := (s.events.filter fun p => decide (s.ackSeq < p.1)).map Prod.fst } := by
  obtain ⟨mem, h⟩ := mirror_eq (ringRestarted s)
  exact ⟨mem, by rw [resynced, h]⟩

theorem execResync_open {s : State} (v : Word64) (ho : s.ringOpen = true) :
    execResync v s = .next (resynced s).flushEvents := by
  obtain ⟨mem, h⟩ := mirror_eq (ringRestarted s)
  rw [ringRestarted] at h
  simp [execResync, ho, resynced, ringRestarted, h]

/-- What RESYNC leaves of the ring and of the events. -/
theorem resync_fields (s : State) : (resynced s).flushEvents.doorbell = s.consumedSeq ∧
    (resynced s).flushEvents.ringState = 0 ∧ (resynced s).flushEvents.haltCause = 0 ∧
    (resynced s).flushEvents.commands = s.commands ∧ (resynced s).flushEvents.events = s.events := by
  obtain ⟨m, e, r, p, v, hflush⟩ := writesEvents_flushEvents (resynced s)
  obtain ⟨mem, h⟩ := resynced_eq s
  rw [hflush, h]
  exact ⟨rfl, rfl, rfl, rfl, rfl⟩

/-- Without a leader the events above ACK_SEQ wait to be written again. -/
theorem resync_rewrites_of_not_leads {s : State} (h : s.leads = false) : (resynced s).flushEvents.rewrites =
    (s.events.filter fun p => decide (s.ackSeq < p.1)).map Prod.fst := by
  obtain ⟨mem, heq⟩ := resynced_eq s
  have hleads : (resynced s).leads = false := by rw [heq]; exact h
  rw [flushEvents_of_not_leads hleads, resynced]

/-- The one event held is written again at once, in its slot. -/
theorem resync_singleton {s : State} {n : Nat} {e : HostEvent} (h : s.events = [(n, e)]) (ha : s.ackSeq < n)
    (hm : s.mayWrite n = true) (hs : s.statusAddr = 0) : (resynced s).flushEvents.rewrites = [] ∧
      (resynced s).flushEvents.mem =
        s.mem.setRun (memKey kindHost (s.eventBase + 64 * (n % 2 ^ s.eventLog))) (e.bytes n) := by
  have heq : resynced s = { ringRestarted s with rewrites := [n] } := by
    rw [resynced, mirror_of_no_address (s := ringRestarted s) hs, h]
    simp [ha]
  have hw : (resynced s).toWrite n = true := by simp [heq, State.toWrite]
  have hm' : (resynced s).mayWrite n = true := by rw [heq]; exact hm
  have hs' : (resynced s).statusAddr = 0 := by rw [heq]; exact hs
  have he : (resynced s).events = [(n, e)] := by rw [heq]; exact h
  have hbase : (resynced s).eventBase = s.eventBase := by rw [heq]; rfl
  have hlog : (resynced s).eventLog = s.eventLog := by rw [heq]; rfl
  rw [flushEvents_singleton he hw hm', writeEvent_rewrites_of_no_address n e hs',
    writeEvent_mem_of_no_address n e hs', hbase, hlog, heq]
  exact ⟨by simp, by rw [ringRestarted]⟩

theorem execAckSeq_none_lost {s : State} (v : Word64) (ho : s.ringOpen = true) (hl : s.eventsLost = 0) : execAckSeq v s =
    .next ({ s with ackSeq := v.toNat, events := s.events.filter fun p => decide (v.toNat < p.1) } : State).flushEvents := by
  simp [execAckSeq, ho, hl]

theorem execRingcfg_configures {s : State} {v : Word64} (ho : s.ringOpen = true)
    (hr : s.ringState = 2 ∨ (s.ringState = 1 ∧ s.completedSeq = s.consumedSeq)) (h6 : 6 ≤ v.toNat % 32)
    (h16 : v.toNat % 32 ≤ 16) : ∃ mem, execRingcfg v s = .next
      { s with ringCfg := v.toNat / 2 ^ 12 * 2 ^ 12 + v.toNat % 32, doorbell := 0, consumedSeq := 0, completedSeq := 0,
               commands := [], ringState := 0, haltCause := 0, mem := mem } := by
  have hlog : ringLogOk v.toNat = true := decide_eq_true ⟨h6, h16⟩
  have hstate : (s.ringState == 2 || (s.ringState == 1 && s.completedSeq == s.consumedSeq)) = true := by
    simpa using hr
  obtain ⟨mem, h⟩ := mirror_eq { s with ringCfg := v.toNat / 2 ^ 12 * 2 ^ 12 + v.toNat % 32, doorbell := 0, consumedSeq := 0,
                                        completedSeq := 0, commands := [], ringState := 0, haltCause := 0 }
  refine ⟨mem, ?_⟩
  simp only [execRingcfg, ho, hstate, hlog, Bool.and_self, if_true, h]

theorem execRingcfg_running {s : State} {v : Word64} (hr : s.ringState = 0) : execRingcfg v s = .next s := by
  simp [execRingcfg, hr]

theorem execEvcfg_configures {s : State} {v : Word64} (ho : s.ringOpen = true) (h6 : 6 ≤ v.toNat % 32)
    (h16 : v.toNat % 32 ≤ 16) : execEvcfg v s =
      .next ({ s with evCfg := v.toNat / 2 ^ 12 * 2 ^ 12 + v.toNat % 32 } : State).flushEvents := by
  have hlog : ringLogOk v.toNat = true := decide_eq_true ⟨h6, h16⟩
  simp [execEvcfg, ho, hlog]

/-- A ring's base and log2 size stand in one word, and each is read back. -/
theorem ringWord_base (v : Nat) : (v / 2 ^ 12 * 2 ^ 12 + v % 32) / 2 ^ 12 * 2 ^ 12 = v / 2 ^ 12 * 2 ^ 12 := by omega

theorem ringWord_log (v : Nat) : (v / 2 ^ 12 * 2 ^ 12 + v % 32) % 32 = v % 32 := by omega

/-! ## The carve-out (R383) -/

theorem execCarveLock_locks {s : State} (hl : s.carveLocked = false) (h3 : s.bootStage = 3)
    (hb : s.carveBase + s.carveSize ≤ 2 ^ 36) :
    execCarveLock 1 s = .next { s with carveLocked := true, bootStage := 4 } := by
  have hd : decide (2 ^ 36 < s.carveBase + s.carveSize) = false := decide_eq_false (Nat.not_lt.2 hb)
  simp only [execCarveLock, hl, h3, hd, bne_self_eq_false, Bool.or_self, Bool.false_eq_true, if_false]

theorem execCarveLock_ignored {s : State} {v : Word64}
    (h : v ≠ 1 ∨ s.carveLocked = true ∨ s.bootStage ≠ 3 ∨ 2 ^ 36 < s.carveBase + s.carveSize) :
    execCarveLock v s = .next s := by
  have hc : (v != 1 || s.carveLocked || s.bootStage != 3 || decide (2 ^ 36 < s.carveBase + s.carveSize)) = true := by
    simpa [or_assoc] using h
  rw [execCarveLock, if_pos hc]

theorem writeCarve_open {s : State} (base : Bool) {v : Nat} (hl : s.carveLocked = false) (hs : s.sleeping = false)
    (hv : v % 2 ^ 20 = 0) : s.writeCarve base v =
      if base then { s with carveBase := v } else if v ≤ 2 ^ 28 then { s with carveSize := v } else s := by
  simp only [State.writeCarve, hl, hs, hv, bne_self_eq_false, Bool.or_self, Bool.false_eq_true, if_false]

/-! ## Debug levels, mailboxes and performance selects (R391, R392, R394, R395) -/

theorem execDebuglvl_permitted {s : State} {v : Word64} (hs : s.sleeping = false)
    (h : levelPermitted s.lifecycle (v.toNat % 4) = true) : execDebuglvl v s = .next (s.setLevel (v.toNat % 4)) := by
  simp [execDebuglvl, hs, h]

theorem execDebuglvl_refused {s : State} {v : Word64} (h : levelPermitted s.lifecycle (v.toNat % 4) = false) :
    execDebuglvl v s = .next s := by
  simp [execDebuglvl, h]

/-- What a level leaves and sets: at halt no die is parked, below halt the package is not halted. -/
theorem setLevel_fields (s : State) (l : Nat) : (s.setLevel l).debugLvl = l ∧ (s.setLevel l).mem = s.mem ∧
    (l ≠ 2 → (s.setLevel l).halted = false) ∧
    (l = 2 → (s.setLevel l).halted = s.halted ∧ (s.setLevel l).parkedDies = []) := by
  by_cases hl : l = 2
  · subst hl
    obtain ⟨c, o, h⟩ := setLevel_halt s
    rw [h]
    exact ⟨rfl, rfl, fun hne => absurd rfl hne, fun _ => ⟨rfl, rfl⟩⟩
  · obtain ⟨g, n, a, c, h⟩ := keepsPackage_setLevel (s := s) hl
    rw [h]
    exact ⟨rfl, rfl, fun _ => rfl, fun he => absurd he hl⟩

theorem execInw_full {s : State} {core : Nat} (v : Word64) (h : (s.core core).dbg.inFull = true) :
    execInw core v s = .next s := by
  simp [execInw, h]

theorem execInw_closed {s : State} {core : Nat} (v : Word64) (h : s.debugOpen = false) : execInw core v s = .next s := by
  simp [execInw, h]

/-- A word for an empty INW of a core whose mailbox holds no exchange stays there. -/
theorem execInw_waits {s : State} {core : Nat} (v : Word64) (hc : core < 192) (hs : s.sleeping = false)
    (ho : s.debugOpen = true) (hf : (s.core core).dbg.inFull = false) (hm : (s.core core).mbox = []) :
    execInw core v s =
      .next (s.updCore core fun c => { c with dbg := { c.dbg with inw := v, inFull := true } }) := by
  have hstep := mboxStep_of_empty (s := s.updCore core fun c => { c with dbg := { c.dbg with inw := v, inFull := true } })
    (n := core) (by rw [updCore_core]; exact hm)
  have hlt : ¬Config.coreCount ≤ core := Nat.not_le.2 hc
  simp [execInw, ho, hf, hs, hlt, hstep]

theorem execOutw_closed {s : State} {core : Nat} (hc : core < 192) (hs : s.sleeping = false) (ho : s.debugOpen = false) :
    execOutw core s = .next { s with hostRead := 0 } := by
  have hlt : ¬Config.coreCount ≤ core := Nat.not_le.2 hc
  simp [execOutw, ho, hs, hlt]

/-- The state in which the host has taken OUTW's word. -/
def outwTaken (s : State) (core : Nat) : State :=
  ({ s with hostRead := (s.core core).dbg.outw.toNat } : State).updCore core
    fun c => { c with dbg := { c.dbg with outFull := false } }

theorem outwTaken_core (s : State) (core : Nat) : (outwTaken s core).core core =
    { s.core core with dbg := { (s.core core).dbg with outFull := false } } :=
  updCore_core _ core _

/-- A read of OUTW takes the word; with no exchange and no monitor nothing follows it. -/
theorem execOutw_takes {s : State} {core : Nat} (hc : core < 192) (hs : s.sleeping = false) (ho : s.debugOpen = true)
    (hm : (s.core core).mbox = []) (hn : (s.core core).monitor = none) : execOutw core s = .next (outwTaken s core) := by
  have hlt : ¬Config.coreCount ≤ core := Nat.not_le.2 hc
  have hbox : ((outwTaken s core).core core).mbox = [] := by rw [outwTaken_core]; exact hm
  have hmon : ((outwTaken s core).core core).monitor = none := by rw [outwTaken_core]; exact hn
  have hafter : ((outwTaken s core).mboxStep core).monitorOut core = outwTaken s core := by
    rw [mboxStep_of_empty hbox, monitorOut_of_none hmon]
  rw [execOutw, if_neg (by simp [hs, hlt]), if_neg (by simp [ho])]
  exact congrArg Host.Outcome.next hafter

/-- A write to a core's block, but for INW, is a write of its debug register. -/
theorem execRegisterWrite_block {s : State} {core off : Nat} (v : Word64) (hc : core < 192) (hs : s.sleeping = false)
    (ho : off < 256) (h8 : off % 8 = 0) (hin : off ≠ 8) : execRegisterWrite (0x10000 + 256 * core + off) v s =
      .next (s.updCore core fun c => { c with dbg := c.dbg.write s.debugOpen off v.toNat }) := by
  have hlt : ¬Config.coreCount ≤ core := Nat.not_le.2 hc
  simp only [execRegisterWrite]
  rw [if_neg (by omega)]
  split
  case h_11 =>
    rw [if_pos (by omega), show (0x10000 + 256 * core + off - 0x10000) / 256 = core by omega,
      show (0x10000 + 256 * core + off) % 256 = off by omega]
    simp [State.writeBlock, hlt, hs, hin]
  all_goals omega

/-- A performance select takes its low byte and its enable bit. -/
theorem write_pmsel (d : Debug) (visible : Bool) {i : Nat} (v : Nat) (hi : i < 8) :
    (d.write visible (0x80 + 8 * i) v).pmsel.find i = some (v % 256 + v / 2 ^ 15 % 2 * 2 ^ 15) := by
  rw [Debug.write, if_pos (by omega), show (0x80 + 8 * i - 0x80) / 8 = i by omega]
  exact find_put_same _ i d.pmsel

end Sys2Proof.Laws
end

section
/-! PROOF. O49: the registers of BAR0 as the host writes and reads them. -/

namespace Sys2Proof.Proofs

open Sys2Proof.Machine Sys2Proof.Laws

/-! ## Writes, register by register -/

/-- DOORBELL while the ring runs (R375). -/
theorem doorbell_write {s : State} (v : Word64) (ho : s.ringOpen = true) (hr : s.ringState = 0) :
    (v.toNat < s.doorbell → exec (.doorbell v) s = .next s) ∧
    (s.doorbell ≤ v.toNat → s.consumedSeq + 2 ^ s.ringLog < v.toNat → ∃ t, exec (.doorbell v) s = .next t ∧
      t.ringState = 1 ∧ t.haltCause = 2 ∧ t.doorbell = s.doorbell) ∧
    (s.doorbell ≤ v.toNat → v.toNat ≤ s.consumedSeq + 2 ^ s.ringLog → ∃ t, exec (.doorbell v) s = .next t ∧
      t.doorbell = v.toNat) := by
  refine ⟨execDoorbell_lower, fun h hb => ⟨_, execDoorbell_beyond ho hr h hb, ?_⟩,
    fun h hb => ⟨_, execDoorbell_within ho hr h hb, takeCommands_doorbell _ _⟩⟩
  exact ⟨(haltRing_fields s 2).1, (haltRing_fields s 2).2, haltRing_doorbell s 2⟩

/-- RESYNC (R377, R380). -/
theorem resync_write {s : State} (v : Word64) (ho : s.ringOpen = true) :
    ∃ t, exec (.resync v) s = .next t ∧ t.doorbell = s.consumedSeq ∧ t.ringState = 0 ∧ t.haltCause = 0 ∧
      t.commands = s.commands ∧ t.events = s.events ∧
      (s.leads = false → t.rewrites = (s.events.filter fun p => s.ackSeq < p.1).map Prod.fst) ∧
      ∀ m e, s.events = [(m, e)] → s.ackSeq < m → s.mayWrite m = true → s.statusAddr = 0 → t.rewrites = [] ∧
        t.mem = s.mem.setRun (memKey kindHost (s.eventBase + 64 * (m % 2 ^ s.eventLog))) (e.bytes m) := by
  obtain ⟨hd, hr, hh, hc, he⟩ := resync_fields s
  exact ⟨_, execResync_open v ho, hd, hr, hh, hc, he, resync_rewrites_of_not_leads, fun _ _ => resync_singleton⟩

/-- ACK_SEQ with no event lost (R380). -/
theorem ackSeq_write {s : State} (v : Word64) (ho : s.ringOpen = true) (hl : s.eventsLost = 0) :
    ∃ t, exec (.ackSeq v) s = .next t ∧ t.ackSeq = v.toNat ∧ t.events = s.events.filter fun p => v.toNat < p.1 := by
  obtain ⟨m, e, r, p, w, h⟩ := writesEvents_flushEvents
    { s with ackSeq := v.toNat, events := s.events.filter fun p => decide (v.toNat < p.1) }
  exact ⟨_, execAckSeq_none_lost v ho hl, by rw [h], by rw [h]⟩

/-- RINGCFG and EVCFG with a size that a ring may have (R373, R378). -/
theorem ringWord_write {s : State} {v : Word64} (ho : s.ringOpen = true) (h6 : 6 ≤ v.toNat % 32) (h16 : v.toNat % 32 ≤ 16) :
    (s.ringState = 2 ∨ (s.ringState = 1 ∧ s.completedSeq = s.consumedSeq) → ∃ t, exec (.ringcfg v) s = .next t ∧
      t.ringState = 0 ∧ t.ringBase = v.toNat / 2 ^ 12 * 2 ^ 12 ∧ t.ringLog = v.toNat % 32 ∧ t.doorbell = 0 ∧
      t.consumedSeq = 0 ∧ t.completedSeq = 0) ∧
    (∃ t, exec (.evcfg v) s = .next t ∧ t.eventBase = v.toNat / 2 ^ 12 * 2 ^ 12 ∧ t.eventLog = v.toNat % 32) := by
  constructor
  · intro hr
    obtain ⟨mem, h⟩ := execRingcfg_configures ho hr h6 h16
    exact ⟨_, h, rfl, ringWord_base _, ringWord_log _, rfl, rfl, rfl⟩
  · obtain ⟨m, e, r, p, w, h⟩ := writesEvents_flushEvents { s with evCfg := v.toNat / 2 ^ 12 * 2 ^ 12 + v.toNat % 32 }
    exact ⟨_, execEvcfg_configures ho h6 h16, by rw [h]; exact ringWord_base _, by rw [h]; exact ringWord_log _⟩

/-- The verdict of the ROM on the image (R383). -/
theorem bootStep_image {s : State} (h0 : s.bootFail = 0) (h4 : s.bootStage = 4) :
    let carve := s.bytesAt (memKey kindDevice s.carveBase) s.carveSize
    (imageAccepted carve = true → ∃ t, execBootStep s = .next t ∧ t.mem = s.mem ∧ t.bootStage = 5 ∧ t.bootFail = 0 ∧
      t.meas = s.meas.set 1 (BitVec.ofNat 256 (natOfBytes (sha256 (bytesLE 32 (s.meas.get 1).toNat ++
        imageBytes carve))))) ∧
    (imageAccepted carve = false ∨ carve.take 4 ≠ [0x53, 0x56, 0x46, 0x57] →
      execBootStep s = .next { s with bootFail := 4 }) := by
  refine ⟨fun h => ⟨_, execBootStep_accepted h0 h4 h, rfl, rfl, h0, rfl⟩, fun h => execBootStep_rejected h0 h4 ?_⟩
  exact h.elim id fun hmagic => Bool.eq_false_iff.2 fun hacc => hmagic (magic_of_imageAccepted hacc)

/-- DEBUGLVL with a level that is permitted (R391, R392). -/
theorem debuglvl_write {s : State} {v : Word64} (hs : s.sleeping = false)
    (h : levelPermitted s.lifecycle (v.toNat % 4) = true) : ∃ t, exec (.debuglvl v) s = .next t ∧
      t.debugLvl = v.toNat % 4 ∧ t.mem = s.mem ∧ (v.toNat % 4 ≠ 2 → t.halted = false) ∧
      (v.toNat % 4 = 2 → t.halted = s.halted ∧ t.parkedDies = []) ∧
      (v.toNat % 4 = 0 → ∀ p ∈ s.cores, (t.core p.1).mbox = []) := by
  obtain ⟨hl, hm, hbelow, hhalt⟩ := setLevel_fields s (v.toNat % 4)
  refine ⟨_, execDebuglvl_permitted hs h, hl, hm, hbelow, hhalt, fun hnone p hp => ?_⟩
  rw [hnone]
  exact setLevel_none_mbox (List.mem_map_of_mem hp)

/-- INW and OUTW where debugging is open (R394). -/
theorem mailbox_write_open {s : State} {core : Nat} (v : Word64) (hc : core < 192) (hs : s.sleeping = false)
    (ho : s.debugOpen = true) :
    ((s.core core).dbg.inFull = true → exec (.inw core v) s = .next s) ∧
    ((s.core core).dbg.inFull = false → (s.core core).mbox = [] → ∃ t, exec (.inw core v) s = .next t ∧ t.mem = s.mem ∧
      (t.core core).dbg.inw = v ∧ (t.core core).dbg.inFull = true) ∧
    ((s.core core).mbox = [] → (s.core core).monitor = none → ∃ t, exec (.outw core) s = .next t ∧ t.mem = s.mem ∧
      t.hostRead = (s.core core).dbg.outw.toNat ∧ (t.core core).dbg.outFull = false) := by
  refine ⟨execInw_full v, fun hf hm => ⟨_, execInw_waits v hc hs ho hf hm, rfl, ?_, ?_⟩,
    fun hm hn => ⟨_, execOutw_takes hc hs ho hm hn, rfl, rfl, by rw [outwTaken_core]⟩⟩
  · rw [updCore_core]
  · rw [updCore_core]

/-- The carve-out's base and size before the lock (R383). -/
theorem carve_write {s : State} {v : Word64} (hl : s.carveLocked = false) (hs : s.sleeping = false)
    (hv : v.toNat % 2 ^ 20 = 0) : exec (.registerWrite 0x200 v) s = .next { s with carveBase := v.toNat } ∧
      (v.toNat ≤ 2 ^ 28 → exec (.registerWrite 0x208 v) s = .next { s with carveSize := v.toNat }) := by
  constructor
  · exact congrArg Host.Outcome.next (writeCarve_open true hl hs hv)
  · intro hsize
    exact congrArg Host.Outcome.next ((writeCarve_open false hl hs hv).trans (if_pos hsize))

/-- A core's performance selects (R395). -/
theorem pmsel_write {s : State} (v : Word64) (hs : s.sleeping = false) {core i : Nat} (hc : core < 192) (hi : i < 8) :
    ∃ t, exec (.registerWrite (0x10000 + 256 * core + 0x80 + 8 * i) v) s = .next t ∧ t.mem = s.mem ∧
      (t.core core).dbg.pmsel.find i = some (v.toNat % 256 + v.toNat / 2 ^ 15 % 2 * 2 ^ 15) := by
  have hwrite := execRegisterWrite_block (off := 0x80 + 8 * i) v hc hs (by omega) (by omega) (by omega)
  rw [← Nat.add_assoc] at hwrite
  refine ⟨_, hwrite, rfl, ?_⟩
  rw [updCore_core]
  exact write_pmsel _ _ _ hi

/-- STATUSADDR takes a multiple of 256 (R373). -/
theorem statusAddr_write {s : State} {v : Word64} (ho : s.ringOpen = true) (hv : v.toNat % 256 = 0) :
    exec (.registerWrite 0x28 v) s = .next { s with statusAddr := v.toNat } :=
  congrArg Host.Outcome.next (if_pos (by rw [ho, hv]; rfl))

theorem registerWrites : Claims.RegisterWrites := by
  intro s v
  refine ⟨fun ho => ⟨doorbell_write v ho, resync_write v ho, ackSeq_write v ho, ringWord_write ho, execRingcfg_running,
      statusAddr_write ho⟩, ?_, execCarveLock_ignored, fun h0 => ⟨bootStep_image h0, execBootStep_stage h0⟩,
    execBootStep_of_failed, fun hs => ⟨debuglvl_write hs, execDebuglvl_refused,
      fun core hc ho => mailbox_write_open v hc hs ho,
      fun core hc ho => ⟨execInw_closed v ho, execOutw_closed hc hs ho⟩,
      fun hl hv => carve_write hl hs hv, fun core i hc hi => pmsel_write v hs hc hi⟩,
    rfl, rfl, rfl, rfl, rfl, rfl, rfl⟩
  rintro rfl hl h3 hb
  exact execCarveLock_locks hl h3 hb

end Sys2Proof.Proofs
end

section
/-! PROOF. O49: the host's reads. -/

namespace Sys2Proof.Proofs

open Sys2Proof.Machine Sys2Proof.Laws

/-! ## Reads, region by region -/

/-- A register that is only written, or not listed, reads as zero (R8, R9). -/
theorem read_zero (s : State) : ∀ offset ∈ [0x0, 0x8, 0x210, 0x30, 0x1C018],
    execRegisterRead offset s = .next { s with hostRead := 0 } := by
  simp only [List.forall_mem_cons]
  exact ⟨rfl, rfl, rfl, rfl, rfl, fun _ h => absurd h List.not_mem_nil⟩

/-- While the package sleeps PSTATE's bits [31:28] say so (R389, R391). -/
theorem pstate_sleeping {s : State} (h : s.sleeping = true) : 3 * 2 ^ 28 ≤ s.pstate := by
  rw [State.pstate, if_pos h]
  exact Nat.le_add_left _ _

/-- A core's block as the host reads it, at every debug level (R392, R394, R395). -/
theorem block_reads (s : State) {core : Nat} (hc : core < 192) :
    let a := 0x10000 + 256 * core
    let d := (s.core core).dbg
    let Reads := fun (offset n : Nat) => execRegisterRead offset s = .next { s with hostRead := n }
    execRegisterRead a s = exec (.outw core) s ∧ Reads (a + 8) 0 ∧
    (∀ i < 8, Reads (a + 0x80 + 8 * i) (d.pmsel.getD i 0) ∧
      (d.pmwritten = [] → Reads (a + 0xC0 + 8 * i) (d.pmcnt.getD i 0))) ∧
    (s.debugOpen = true → Reads (a + 0x10) (d.outFull.toNat + 2 * d.inFull.toNat) ∧ Reads (a + 0x60) d.step.toNat ∧
      ∀ i < 8, Reads (a + 0x20 + 8 * i) (d.bp.getD i 0)) ∧
    (s.debugOpen = false → Reads (a + 0x10) 0 ∧ Reads (a + 0x60) 0 ∧ ∀ i < 8, Reads (a + 0x20 + 8 * i) 0) := by
  intro a d Reads
  have block : ∀ {off n : Nat}, off < 256 → off % 8 = 0 → off ≠ 0 → d.read s.debugOpen off = n → Reads (a + off) n :=
    fun ho h8 h0 h => h ▸ read_block s hc ho h8 h0
  have row : ∀ {base i n : Nat}, i < 8 → base ≤ 0xC0 → base % 8 = 0 → base ≠ 0 →
      d.read s.debugOpen (base + 8 * i) = n → Reads (a + base + 8 * i) n := fun hi hb h8 h0 h => by
    rw [Nat.add_assoc]
    exact block (by omega) (by omega) (by omega) h
  refine ⟨read_outw s hc, block (by decide) (by decide) (by decide) (read_inw d _), fun i hi => ⟨?_, fun hw => ?_⟩,
    fun ho => ⟨?_, ?_, fun i hi => ?_⟩, fun ho => ⟨?_, ?_, fun i hi => ?_⟩⟩
  · exact row hi (by decide) (by decide) (by decide) (read_pmsel d _ hi)
  · exact row hi (by decide) (by decide) (by decide) (read_pmcnt _ hw)
  · exact block (by decide) (by decide) (by decide) (by rw [ho]; rfl)
  · exact block (by decide) (by decide) (by decide) (by rw [ho]; rfl)
  · exact row hi (by decide) (by decide) (by decide) (by rw [ho, read_bp d hi])
  · exact block (by decide) (by decide) (by decide) (by rw [ho, read_hidden d (by decide)])
  · exact block (by decide) (by decide) (by decide) (by rw [ho, read_hidden d (by decide)])
  · exact row hi (by decide) (by decide) (by decide) (by rw [ho, read_hidden d (by omega)])

/-- A die's wear block reads as published, and as zero before the first sample (R397). -/
theorem wear_reads (s : State) {die : Nat} (hd : die < 6) :
    (∀ w, s.wear.find die = some w → ∀ i < 32, execRegisterRead (0x1D000 + 256 * die + 8 * i) s =
      .next { s with hostRead := fieldOf w.published (8 * i) 8 }) ∧
    (s.wear.find die = none → ∀ i < 32, execRegisterRead (0x1D000 + 256 * die + 8 * i) s =
      .next { s with hostRead := 0 }) := by
  refine ⟨fun w hw i hi => ?_, fun hw i hi => ?_⟩
  · simpa only [hw, Option.map_some, Option.getD_some] using read_wear s hd hi
  · simpa only [hw, Option.map_none, Option.getD_none] using read_wear s hd hi

theorem registerReads : Claims.RegisterReads := by
  intro s Reads
  have low : ∀ {offset n : Nat}, offset % 8 = 0 → offset < 0x10000 → s.register offset = n → Reads offset n :=
    fun h8 hlt h => execRegisterRead_of_register h8 (by omega) h
  refine ⟨read_zero s, rfl, rfl, rfl, rfl, rfl, rfl, rfl, rfl, rfl, rfl, ?_, ?_, ?_, ?_, ?_, ?_, ?_, ?_, rfl,
    pstate_sleeping, fun n hn i hi => read_meas s hn hi, fun core hc => block_reads s hc, fun die hd => wear_reads s hd,
    s.packageFigure, rfl, fun die hd w hw => packageFigure_least hd hw⟩
  · exact low (by decide) (by decide) (statusPage_consumedSeq s)
  · exact low (by decide) (by decide) (statusPage_completedSeq s)
  · exact low (by decide) (by decide) (statusPage_eventSeq s)
  · exact low (by decide) (by decide) (statusPage_ringState s)
  · exact low (by decide) (by decide) (statusPage_reserved s)
  · intro v ho hr h6 h16
    obtain ⟨mem, h⟩ := execRingcfg_configures ho (.inl hr) h6 h16
    exact ⟨_, h, rfl⟩
  · exact low (by decide) (by decide) (queenBytes_leader s)
  · exact low (by decide) (by decide) (queenBytes_expiry s)

/-- Settles O49: the writes register by register, and the reads region by region. -/
theorem hostRegisters : Obligations.HostRegisters := by
  unfold Obligations.HostRegisters
  exact ⟨registerWrites, registerReads⟩

end Sys2Proof.Proofs
end

section
/-! PROOF. The encoding (R95 to R102, R110, R112): the stream's references, the words of the opcode maps, and the one
operation that names its own destination twice. -/

namespace Sys2Proof.Proofs

/-! ## Stream references (R101) -/

/-- The low seven bits of a byte, as a number. -/
theorem low_bits_toNat (b : Byte) : (b &&& 0x7F).toNat = b.toNat % 128 := by
  rw [BitVec.toNat_and]
  exact Nat.and_two_pow_sub_one_eq_mod b.toNat 7

theorem readRef_short {b0 : Byte} (bs : List Byte) (h : b0.toNat < 0x80) :
    readRef (b0 :: bs) = .ok (.index b0.toNat 1) := by
  simp only [readRef, if_pos h]

theorem readRef_long {b0 : Byte} (b1 : Byte) (rest : List Byte) (h : 0x80 ≤ b0.toNat) (h' : b0.toNat < 0xFF) :
    readRef (b0 :: b1 :: rest) = .ok (.index (b0.toNat % 128 * 256 + b1.toNat) 2) := by
  simp only [readRef, if_neg (Nat.not_lt.2 h), if_pos h']

theorem readRef_escape (b1 : Byte) (rest : List Byte) : readRef (0xFF :: b1 :: rest) =
    if b1.toNat = 0 then .ok .pad else if b1.toNat = 1 then .ok .stop else .error .badEscape := rfl

/-- Settles O55, form by form: a short index, a long index, and the escapes. -/
theorem streamReferences : Obligations.StreamReferences := by
  unfold Obligations.StreamReferences
  intro b0 b1 rest
  refine ⟨fun h => readRef_short _ (by omega), fun h h' => ?_, ?_⟩
  · have := b1.isLt
    rw [low_bits_toNat]
    exact ⟨readRef_long b1 rest h (by omega), by omega⟩
  · rintro rfl
    rw [readRef_escape]
    refine ⟨?_, ?_, fun h h' => ?_⟩
    · rintro rfl; rfl
    · rintro rfl; rfl
    · have hpad : b1.toNat ≠ 0 := fun e => h (BitVec.eq_of_toNat_eq e)
      have hstop : b1.toNat ≠ 1 := fun e => h' (BitVec.eq_of_toNat_eq e)
      rw [if_neg hpad, if_neg hstop]

/-! ## Words of the opcode maps (R112) and the nine reasons (R110) -/

/-- Settles O60: the decoder runs on each of the words, and the filter on a word for each reason. -/
theorem tableWords : Obligations.TableWords := by
  unfold Obligations.TableWords
  refine ⟨?words, ?stop, ?reasons⟩
  case words => decide +kernel
  case stop => rfl
  case reasons => decide +kernel

/-- An entry is refused with the lowest of the filter's reasons (R110). -/
theorem decodeEntry_of_lowestReason {handler inRange : Bool} {w : BitVec 320} {r : Reject}
    (h : lowestReason (filterReasons handler inRange w) = some r) : decodeEntry handler inRange w = .error r := by
  simp only [decodeEntry, h]

/-- Refutes O54: the companion of CVTN's error feedback is a destination too (R173), so a CVTN whose companion is its own
destination is well formed and may stand in V0, and its slot bits decode, but the hazard filter refuses its control word with
reason 3. -/
theorem not_roundTrip : ¬ Obligations.RoundTrip := by
  unfold Obligations.RoundTrip
  intro h
  let i : Instr := .cvtn ⟨false, 0⟩ 5 ⟨false, .reg 4⟩ ⟨1, 3⟩ (.ef 5 false)
  let w : BitVec 48 := 0x821205040B05
  have entry := (h i w .V (by decide) (by decide) (by decide)).2 .v0 false 0 (by decide) (by decide)
  have reason : lowestReason (filterReasons false true (encodeWord .v0 0 w)) = some .duplicateDestination := by
    decide +kernel
  rw [decodeEntry_of_lowestReason reason] at entry
  cases entry

end Sys2Proof.Proofs
end
